-- ==== Sys2Proof/Word.lean ====
section
/-! DEFINITION. The word types of the EX-20 (spec/00_scope.md R8: little-endian 32-bit registers, bytes, 64-bit scalars). -/

namespace Sys2Proof

/-- A byte of memory, of a record or of a message. -/
abbrev Byte := BitVec 8

/-- A 32-bit register, lane or memory word. -/
abbrev Word := BitVec 32

/-- A 64-bit scalar, time tag or table entry. -/
abbrev DWord := BitVec 64

end Sys2Proof
end

