-- ==== Sys2Proof/Syntax.lean ====
section
/-! DEFINITION. The commands the EX-20 takes, one constructor per row of spec/opcode_table.json, with their operands.
Units are named by number. What the spec leaves to the world outside (a measured frequency, a received bit, a sensor
reading, the time of an edge) is an operand of the command that brings it. -/

namespace Sys2Proof

/-- Symbol errors that a DDR4 line shows when it is read: (codeword 0 for A or 1 for B, device 0-17, the 16 bits of
the symbol that are wrong) (spec/12 R336). -/
structure SymErr where
  cw : Nat
  dev : Nat
  bits : Nat
deriving DecidableEq, Repr


/-- A macro cell that reads wrong during a step (spec/04 R110): macro, page, row, column, the wrong bits. -/
structure CellUpset where
  mac : Nat
  pg : Nat
  row : Nat
  col : Nat
  bits : Nat
deriving DecidableEq, Repr

/-- A flit error of a delivery unit (spec/07 R193, R208): the tile whose router finds it, the unit, and the failed 8-byte
words as a mask of 2 bits; mask 0 is a corrected flit. -/
structure UnitFlit where
  tile : Nat
  unit : Nat
  words : Nat
deriving DecidableEq, Repr

/-- What one slot of a warp pick word brings with it (spec/06 R152-R158, R182): tile, word index and working pulse, lag,
PRED field, whether the word is uncorrectable, the 8-byte tile-store words that read as uncorrectable in the operation,
errors corrected. -/
structure WSlot where
  tile : Nat
  word : Nat
  lag : Nat
  q : Nat := 0
  pickBad : Bool := false
  bad : List Nat := []
  fixed : Nat := 0
deriving DecidableEq, Repr

/-- The fields of a Uahomer-D instruction beside its opcode (spec/08 R213). -/
structure WFields where
  pn : Bool := false
  pg : Nat := 0
  rd : Nat := 0
  ra : Nat := 0
  rb : Nat := 0
  rc : Nat := 0
  imm : Nat := 0
deriving DecidableEq, Repr

/-- What the world brings with one weft instruction: the cycles since the one before it in which nothing issued, by
reason (spec/18 R513), whether its word is uncorrectable, the 8-byte tile-store words that read as uncorrectable, the
cells that read wrong during a step. -/
structure WEnv where
  stalls : List (Nat × Nat) := []
  pickBad : Bool := false
  bad : List Nat := []
  ups : List CellUpset := []
deriving DecidableEq, Repr

/-- What the world brings with one 64-byte unit of a shuttle (spec/09 R273, spec/12 R337, spec/15 R425, R429, R430): the
symbol errors of the DDR4 line read, the host's data (none: a completion error), whether they are poisoned, whether the
address has a translation, a line that the host held modified, an uncorrectable error in the coherency cache, what the flits of the
request met on their way (spec/07 R208). -/
structure UnitEnv where
  errs : List SymErr := []
  host : Option (List (BitVec 8)) := none
  poison : Bool := false
  ats : Bool := true
  modified : Option (List (BitVec 8)) := none
  cacheErr : Bool := false
  flit : Nat := 0
deriving DecidableEq, Repr

/-- Where a packet of Reed arrives: the node, and what its flits met on their way (spec/07 R208): 0 no error, 1 a corrected one, 2 an
uncorrectable one. -/
structure Arrival where
  node : Nat
  ecc : Nat := 0
deriving DecidableEq, Repr

/-- A word that the host writes, with its byte enables (spec/01 R29). -/
structure HostWord where
  val : Nat
  be : Nat := 15
deriving DecidableEq, Repr

/-- What the activity counters show for one microsecond (spec/16 R446, R455, R463): operations by table entry that
issued, for C0 and C1, C4, peer bulk, C3, C2 and marrow; those that a bubble held back, for the four throttlable classes;
those of tiles that run weft jobs; the current in mA that the macros of marrow can draw, marrow check mismatches. -/
structure PmcSample where
  fixed : List Nat := []
  c4 : List Nat := []
  peer : List Nat := []
  c3 : List Nat := []
  c2 : List Nat := []
  marrow : List Nat := []
  heldC4 : List Nat := []
  heldPeer : List Nat := []
  heldC3 : List Nat := []
  heldC2 : List Nat := []
  weft : List Nat := []
  capacity : Nat := 0
  mismatches : Nat := 0
deriving DecidableEq, Repr


/-- A module that a DDR4 channel shows at boot step S5 (spec/12 R331-R333): whether it is a registered DIMM, whether it has ECC (72
bits), the width of its devices, its rated MT/s, whether its devices are 3DS stacks, its capacity in units of
16 GB, its organisation and ranks as numbers, its SPD serial, whether training passes by the normal method, by the normal
method tried again, by the conservative method. -/
structure Dimm where
  rdimm : Bool := true
  ecc : Bool := true
  width : Nat := 4
  rate : Nat := 3200
  threeDs : Bool := false
  cap16 : Nat := 4
  org : Nat := 0
  ranks : Nat := 2
  serial : Nat := 0
  normal : Bool := true
  again : Bool := true
  conservative : Bool := true
deriving DecidableEq, Repr

/-- What the world shows during a boot (spec/17 R478-R484): the BOOT_MODE straps, the self-test of S2, the Loom dies that fail
S3 once and those that fail its retry too, the CXL configuration of S4, the modules by channel, the lane groups that fail S7,
the peer ports that fail S8, the baseline of S9 as (lane, vertical, horizontal steps) and whether S9 passes, the sensors that
fail S10 and the PMBus rails found there, the seal of S13, the step that does not end, the milliseconds of each step, those from
S0 to S15, the channels whose zeroing fails in S6. -/
structure BootEnv where
  mode : Nat := 0
  selfTest : Bool := true
  dieOnce : List Nat := []
  dieFail : List Nat := []
  cxlOk : Bool := true
  dimms : List (Option Dimm) := []
  groupFail : List Nat := []
  portFail : List Nat := []
  eye : List (Nat × Nat × Nat) := []
  eyeOk : Bool := true
  sensorFail : List Nat := []
  rails : List (BitVec 32) := []
  measureOk : Bool := true
  hang : Option Nat := none
  initFail : List Nat := []
  ms : List Nat := []
  totalMs : Nat := 0
deriving DecidableEq, Repr

/-- Where Keep takes a command from (spec/15 R432, R435, spec/17 R492, R495, R503): the oldest that waits - a mailbox command waits from
MAILBOX_GO on, one over MCTP while Keep is occupied - or MCTP, with its tag and payload. -/
inductive CmdSrc where
  | queued
  | mctp (tag : Nat) (payload : List (BitVec 8))
deriving DecidableEq, Repr

/-- Fields of configuration space and of the RAS capability (spec/15 R408, R413-R415, R438, R439): the identity; what the
BARs, MSI-X, ATS, the DVSECs and the Register Locator state (its entries as block identifier, BAR and offset); then those that
the host sets: the enables of the CXL DVSEC and of ATS, the enable and function mask of MSI-X, Internal Error. -/
inductive CfgField where
  | vendorId | deviceId | classCode | revisionId | subsystemVendorId | subsystemId
  | bar0Size | bar2Size | msixVectors | msixTable | msixPba | atsQueueDepth | dvsecVendor
  | cacheCapable | ioCapable | memCapable | flit68Capable | memHwInitMode | hdmCount
  | range1Size | range1Base | mediaType | memoryClass | memActiveTimeout | memInfoValid | memActive
  | locator0Id | locator0Bar | locator0Offset | locator1Id | locator1Bar | locator1Offset
  | internalError
  | memEnable | cacheEnable | atsEnable | msixEnable | msixMask
deriving DecidableEq, Repr

/-- Fields of an HDM decoder (spec/15 R416, R417); `uncommit` is its Commit bit written 0, and the last two take no
write. -/
inductive HdmField where
  | base | size | skip | ig | iw | lockOnCommit | uncommit | committed | errorNotCommitted
deriving DecidableEq, Repr

/-- Where a register access goes: BAR0 or BAR2 by offset, configuration space, a field of an HDM decoder. -/
inductive RegTarget where
  | bar0 (a : Nat)
  | bar2 (a : Nat)
  | cfg (f : CfgField)
  | hdm (i : Nat) (f : HdmField)
deriving DecidableEq, Repr

/-- Half of a 64-bit register that the host writes, with its byte enables (spec/00 R14, spec/01 R29). -/
structure HostHalf where
  val : Word
  be : Nat := 15
deriving DecidableEq, Repr

/-- A register that the host reads, with the byte enables of the read (spec/01 R29). -/
structure HostRead where
  x : RegTarget
  be : Nat := 15
deriving DecidableEq, Repr

/-- An address in BAR0 that the host reads, with the byte enables of the read (spec/01 R29). -/
structure HostAt where
  addr : Nat
  be : Nat := 15
deriving DecidableEq, Repr

/-- The commands of the EX-20: one constructor per row of spec/opcode_table.json. -/
inductive Instr where
  /-- POWER_UP (R535): The rails rise in the required steps, and the EX-20 holds every pin in its reset state until SYS_RST_N is released. -/
  | powerUp
  /-- SYS_RST_N_ASSERT (R537): A low pulse on SYS_RST_N that passes the glitch filter performs a complete cold reset. -/
  | sysRstNAssert (hot : Bool)
  /-- SYS_RST_N_RELEASE (R478): The rising edge of SYS_RST_N samples the straps and starts the boot sequence from S0. -/
  | sysRstNRelease (e : BootEnv)
  /-- MEMORY_ACTIVE (R421): Zeroing ends, READY rises, Keep sets region entry 0, Memory_Active rises and vector 1 is raised. -/
  | memoryActive (fail : List Nat) (e : BootEnv)
  /-- STEP_TIMEOUT (R478): A boot step reaches its time bound and is ended as failed. -/
  | stepTimeout (e : BootEnv)
  /-- WATCHDOG (R481): The Keep watchdog is not serviced for 2 s, and the AON logic performs a warm reset. -/
  | watchdog (e : BootEnv)
  /-- RAIL_UNDERVOLTAGE (R541): A watched rail stays below its transient band for more than 2 us, which resets the device as SYS_RST_N does. -/
  | railUndervoltage (hot : Bool)
  /-- AON_UNDERVOLTAGE (R541): VDD_AON stays below 0.68 V for more than 2 us, which resets the AON logic as at power-up. -/
  | aonUndervoltage
  /-- POWER_LOSS (R539): Power is removed, and memory contents, the retained set and any flash write in progress are lost. -/
  | powerLoss
  /-- LOCK_EN_SET (R36): A write of 1 to TB_CTRL.LOCK_EN checks the declared tick configuration and starts tick lock. -/
  | lockEnSet
  /-- LOCK_EN_CLEAR (R53): A write of 0 to LOCK_EN stops the tick PLL, clears ARM and its locks, and ends any run at the next boundary. -/
  | lockEnClear
  /-- TICK_LOCKED (R36): The tick PLL reaches lock, or refuses it on a frequency mismatch. -/
  | tickLocked (hz : Nat)
  /-- TICK_LOCK_FAIL (R36): Lock is not reached within its time bound, and STATE becomes FAILED. -/
  | tickLockFail
  /-- AVS_DONE (R444): AVS finishes its voltage search, sets VDD_CORE and raises AVS_READY, or fails. -/
  | avsDone (ok : List Bool)
  /-- ARM (R40): A write of 1 to TB_CTRL.ARM checks every run-start condition, then arms the next RUN_SYNC edge and locks the RWL registers. -/
  | arm
  /-- STOP (R41): A write of 1 to TB_CTRL.STOP stops frame acceptance from the next frame-period boundary. -/
  | stop
  /-- RUN_STOP_END (R41): The decision latency plus 2 frame periods after the STOP boundary expires, and the run ends in state LOCKED. -/
  | runStopEnd
  /-- RUN_SYNC_EDGE (R39): RUN_SYNC is sampled high after two low samples, which begins, restarts or is ignored by a run according to ARM. -/
  | runSyncEdge
  /-- TICK_LOST (R52): A predicted tick edge goes unmatched, or the phase error persists, which enters holdover in a run or ends lock outside one. -/
  | tickLost
  /-- HOLDOVER_EXIT (R53): Four consecutive good ticks return, and holdover ends without a break. -/
  | holdoverExit
  /-- HOLDOVER_EXPIRED (R53): The holdover limit expires, and the run ends at the next frame-period boundary. -/
  | holdoverExpired
  /-- SYSCLK_LOST (R54): SYSCLK is lost for more than 1 us, which ends any run and holds FAILED until warm reset. -/
  | sysclkLost
  /-- WEFT_PLL_UNLOCK (R54): The weft PLL leaves lock and weft issue stops. -/
  | weftPllUnlock
  /-- DROOP_DETECTED (R46): VDD_CORE falls below its set point by more than THRESH, and warp, REED and weft pulses are stretched. -/
  | droopDetected (die mv weft : Nat)
  /-- TICK_OVERRUN (R48): At a frame-period boundary with q > 4S, unissued pick words are dropped and the period's frames are marked. -/
  | tickOverrun
  /-- TRIG_IN_EDGE (R307): A selected edge on TRIG_IN is timed and entered in the input's edge history. -/
  | trigInEdge (i : Nat) (rising : Bool) (tag : Nat)
  /-- BOLT (R69): A stream lane receives a bolt; the lane removes stuffing, checks the header, decodes, descrambles and checks the frame word. -/
  | bolt (i tick j pos : Nat) (bits : List Bool)
  /-- LANE_DOWN (R87): Clock recovery is lost, or 4 expected headers in a row are missed, and the lane returns to header search. -/
  | laneDown (i : Nat)
  /-- FRAME_DELIVERY (R80): At the stream's delivery pulse, Beam writes the assembled frame into the warp tile stores and writes a pending entry. -/
  | frameDelivery (n : Nat) (flits : List UnitFlit)
  /-- BACK_CHANNEL_BOLT (R88): At a transmit slot, a lane sends a short bolt carrying up to four decision and status records. -/
  | backChannelBolt (i tick j : Nat)
  /-- WARP_MXR (R159): A warp M slot runs one step under its step descriptor into the named bank. -/
  | warpMxr (w : WSlot) (sd : Nat) (ups : List CellUpset)
  /-- WARP_MXC (R159): A warp M slot clears a bank, its SAT mask and its block accumulators. -/
  | warpMxc (w : WSlot) (bank : Nat)
  /-- REQ (R160): A warp V slot requantises half a bank under its tensor scale record. -/
  | req (w : WSlot) (vd half : Nat)
  /-- QNT (R160): A warp V slot quantises 64 FP32 values under its tensor scale record. -/
  | qnt (w : WSlot) (vd : Nat)
  /-- CVT (R160): A warp V slot converts 64 values between formats. -/
  | cvt (w : WSlot) (vd : Nat)
  /-- WARP_ADD (R160): A warp V slot adds FP32 lanes or BF16 pairs. -/
  | warpAdd (w : WSlot) (vd : Nat)
  /-- WARP_MUL (R160): A warp V slot multiplies FP32 lanes or BF16 pairs. -/
  | warpMul (w : WSlot) (vd : Nat)
  /-- WARP_FMA (R160): A warp V slot computes SRCA x SRCB + DST. -/
  | warpFma (w : WSlot) (vd : Nat)
  /-- WARP_MAX (R160): A warp V slot takes the lane maximum. -/
  | warpMax (w : WSlot) (vd : Nat)
  /-- WARP_MIN (R160): A warp V slot takes the lane minimum. -/
  | warpMin (w : WSlot) (vd : Nat)
  /-- EXP2 (R118): A warp V slot computes exp2, correctly rounded. -/
  | exp2 (w : WSlot) (vd : Nat)
  /-- LOG2 (R118): A warp V slot computes log2, correctly rounded. -/
  | log2 (w : WSlot) (vd : Nat)
  /-- RCP (R118): A warp V slot computes the reciprocal, correctly rounded. -/
  | rcp (w : WSlot) (vd : Nat)
  /-- RSQ (R118): A warp V slot computes the reciprocal square root, correctly rounded. -/
  | rsq (w : WSlot) (vd : Nat)
  /-- RED (R119): A warp V slot computes the pairwise tree sum of 64 lanes. -/
  | red (w : WSlot) (vd : Nat)
  /-- PSET (R160): A warp V slot sets a tile predicate from a lane comparison. -/
  | pset (w : WSlot) (vd pd : Nat)
  /-- MOVV (R160): A warp V slot copies 256 bytes within tile store. -/
  | movv (w : WSlot) (vd : Nat)
  /-- BMOV (R160): A warp V slot copies half a bank to tile store as I32. -/
  | bmov (w : WSlot) (vd half : Nat)
  /-- SEND (R161): A warp X slot sends a burst along the Reed slot table. -/
  | send (w : WSlot) (addr len tag : Nat)
  /-- SKPUSH (R161): A warp X slot pushes an entry onto a skein under its served frame. -/
  | skpush (w : WSlot) (addr len sk : Nat)
  /-- SKPOP (R174): A warp X slot pops the skein head that matches its served frame into tile store. -/
  | skpop (w : WSlot) (addr sk : Nat)
  /-- SKSEND (R161): A warp X slot pops the skein head and sends it as a burst. -/
  | sksend (w : WSlot) (tag sk : Nat)
  /-- HTK (R169): A warp C slot posts a Heddle token on a port. -/
  | htk (w : WSlot) (port route tag cnt slack : Nat)
  /-- MARK (R162): A warp C slot ORs bits into the served frame's user mark byte. -/
  | mark (w : WSlot) (umask : Nat)
  /-- SCO (R162): A warp C slot writes bank lanes to Treadle scores. -/
  | sco (w : WSlot) (bank lg cnt stream sc : Nat)
  /-- BURST_ARRIVAL (R170): A burst arrives at a warp tile port and is steered by the oldest matching active token, or by the default route. -/
  | burstArrival (t p : Nat)
  /-- TOKEN_EXPIRED (R173): A token reaches a + SLACK with tags unmatched, and its unmatched destinations receive zeros. -/
  | tokenExpired (t p i : Nat)
  /-- WARP_FLIT_ARRIVAL (R188): A warp flit reaches a router input and is forwarded as its slot entry names. -/
  | warpFlitArrival (r ecc : Nat)
  /-- PACKET_INJECTION (R196): An endpoint injects a packet into Reed. -/
  | packetInjection (dst src kind rtag addr chan : Nat) (payload : List Byte) (ecc : Nat)
  /-- CREDIT_RETURN (R199): A virtual-channel credit returns to a sender. -/
  | creditReturn (n vc : Nat)
  /-- WRITE (R202): A WRITE packet is absorbed into the destination's tile store. -/
  | write (src : Nat) (dst : Arrival)
  /-- TOKEN (R205): A TOKEN packet delivers one channel entry to its destination. -/
  | token (src : Nat) (dst : Arrival)
  /-- CREDIT (R205): A CREDIT packet returns one channel credit to its source. -/
  | credit (src : Nat) (dst : Arrival)
  /-- SHUTTLE_REQ (R197): A shuttle request packet reaches its engine or target. -/
  | shuttleReq (t n u : Nat) (x : UnitEnv)
  /-- SHUTTLE_RESP (R197): A shuttle response packet reaches its requester. -/
  | shuttleResp (t : Arrival) (n u : Nat)
  /-- REG_WR (R197): A register write packet reaches its block. -/
  | regWr (src : Nat) (dst : Arrival)
  /-- REG_RD (R197): A register read packet reaches its block, which returns a response. -/
  | regRd (src : Nat) (dst : Arrival)
  /-- REG_RESP (R197): A register response packet reaches its requester. -/
  | regResp (src : Nat) (dst : Arrival)
  /-- TELEMETRY (R197): A telemetry packet reaches its destination. -/
  | telemetry (src : Nat) (dst : Arrival)
  /-- EVALUATION (R302): At pulse e_s, Treadle evaluates the stream's machines, applies their actions, decides the frame, and issues the record and outputs. -/
  | evaluation (n : Nat)
  /-- TREADLE_TIMER_EXPIRY (R316): A running Treadle timer reaches 0 at a tick edge and becomes expired. -/
  | treadleTimerExpiry (n m j : Nat)
  /-- TRIG_OUT_PULSE_END (R323): A TRIG_OUT pulse width elapses, and the line returns to its inactive level. -/
  | trigOutPulseEnd (j : Nat)
  /-- FORCE (R321): A write of 1 to TR_FORCE.FORCE forces the next evaluation of the stream. -/
  | force (n : Nat)
  /-- C1_RECORD (R345): The capture elastic buffer receives a result record packet, writes the record, and commits or discards the pending entry. -/
  | c1Record (n ecc : Nat)
  /-- C1_COMMIT (R345): A C1_COMMIT commits or discards a pending entry, or tells Treadle that a frame was lost. -/
  | c1Commit (n : Nat) (toTreadle : Bool) (ecc : Nat)
  /-- DECISION_MISSING (R346): A pending entry waits D_s + 2 frame periods without a decision and is discarded as lost. -/
  | decisionMissing (n : Nat)
  /-- BOBBIN_WRITE (R351): Capture bytes become visible in DDR4, and BB_BOB_WPTR advances. -/
  | bobbinWrite (n : Nat)
  /-- REARM (R356): A write of BB_ST_CTRL.REARM re-arms a stopped stream for the next commit. -/
  | rearm (n : Nat)
  /-- REGION_VALID_WRITE (R341): A write of VALID = 1 to a region entry is checked and then takes effect. -/
  | regionValidWrite (r kind stream : Nat)
  /-- REFRESH (R339): tREFI expires, and a rank receives an all-bank refresh. -/
  | refresh (c k : Nat)
  /-- ZQ_CALIBRATION (R339): ZQ short calibration runs on a channel every 128 ms. -/
  | zqCalibration (c : Nat)
  /-- DIMM_TEMP_READ (R339): The module thermal sensor is read every 16 ms, and tREFI follows its reading. -/
  | dimmTempRead (c temp : Nat)
  /-- SCRUB (R338): Patrol scrub reads a line and writes it back when corrected. -/
  | scrub (c : Nat) (errs : List SymErr)
  /-- LINK_RECORD (R373): After its block's result records are written, a provenance link record is written to the link ring. -/
  | linkRecord (n : Nat)
  /-- WF_SQ_PROD (R252): A write of the submission producer index, directly or through the stream doorbell, makes new descriptors available. -/
  | wfSqProd (n v : Nat)
  /-- WF_CQ_CONS (R264): A write of the completion consumer index frees ring space for pending records. -/
  | wfCqCons (n v : Nat)
  /-- DESCRIPTOR_FETCH (R252): The scheduler fetches a job descriptor into the stream queue when the queue has room. -/
  | descriptorFetch (n : Nat) (x : UnitEnv)
  /-- JOB_ADMISSION (R258): The scheduler admits a head job, or a batch, when its group is idle and its energy fits the budget. -/
  | jobAdmission
  /-- RESERVED_JOB (R259): A head job that has waited longer than WF_AGE_LIMIT becomes the reserved job. -/
  | reservedJob (n : Nat)
  /-- ENERGY_GRANT (R260): A pending ENERGY raise fits the budget and is granted. -/
  | energyGrant (t : Nat)
  /-- JOB_END (R262): Every tile of a job has retired JEND, and the job ends normally. -/
  | jobEnd (t : Nat)
  /-- JOB_TRAP_END (R265): After a trap, every tile has stopped and its retired work is complete, so the job ends with the first trap's cause. -/
  | jobTrapEnd (t : Nat)
  /-- COMPLETION_RECORD (R264): A completion record is written in queue order once ring space exists. -/
  | completionRecord (n : Nat) (x : UnitEnv)
  /-- JOB_TIME_LIMIT (R266): A job's TLIM expires, and the job is stopped. -/
  | jobTimeLimit (t : Nat)
  /-- ABORT (R266): A write of WF_Q_CTRL.ABORT stops the running job, flushes the queue and sets HALTED. -/
  | abort (n : Nat) (xs : List UnitEnv)
  /-- RESUME (R265): A write of WF_Q_CTRL.RESUME clears HALTED. -/
  | resume (n : Nat)
  /-- WF_POS (R274): A write of the stream position takes effect only while no ADVANCE job of the stream runs. -/
  | wfPos (n v : Nat)
  /-- SHUTTLE_TICKET_COMPLETE (R271): A shuttle ticket's reads finish and its writes become visible, and the ticket completes with a status. -/
  | shuttleTicketComplete (t n : Nat)
  /-- WAIT_TIMEOUT (R218): An interlock wait reaches WAITTMO, and the instruction traps. -/
  | waitTimeout (t : Nat)
  /-- SCALE_TAG_TIMEOUT (R136): A block-mode step waits TILE_SCALE_TMO cycles for a matching pair and traps. -/
  | scaleTagTimeout (t : Nat)
  /-- NOP (R220): A weft NOP does nothing. -/
  | nop (t opc : Nat) (f : WFields) (e : WEnv)
  /-- FENCE (R220): The core waits until the named kinds of older work have finished their external part. -/
  | fence (t : Nat) (f : WFields) (e : WEnv)
  /-- TRAP (R220): The core traps with a user code. -/
  | trap (t : Nat) (f : WFields) (e : WEnv)
  /-- JEND (R220): The core fences and ends its part of the job with a status. -/
  | jend (t : Nat) (f : WFields) (e : WEnv)
  /-- BRK (R220): The core halts for the debugger under a sufficient debug level, and is otherwise a NOP. -/
  | brk (t : Nat) (f : WFields) (e : WEnv)
  /-- MFC (R220): A control register is read into a scalar. -/
  | mfc (t : Nat) (f : WFields) (e : WEnv)
  /-- MTC (R220): A scalar is written to a control register. -/
  | mtc (t : Nat) (f : WFields) (e : WEnv)
  /-- ADD (R221): The core adds two scalars. -/
  | add (t : Nat) (f : WFields) (e : WEnv)
  /-- SUB (R221): The core subtracts two scalars. -/
  | sub (t : Nat) (f : WFields) (e : WEnv)
  /-- MUL (R221): The core forms the low 64 bits of a scalar product. -/
  | mul (t : Nat) (f : WFields) (e : WEnv)
  /-- MULH (R221): The core forms the high 64 bits of a signed product. -/
  | mulh (t : Nat) (f : WFields) (e : WEnv)
  /-- MULHU (R221): The core forms the high 64 bits of an unsigned product. -/
  | mulhu (t : Nat) (f : WFields) (e : WEnv)
  /-- AND (R221): The core forms the bitwise AND of two scalars. -/
  | and (t : Nat) (f : WFields) (e : WEnv)
  /-- OR (R221): The core forms the bitwise OR of two scalars. -/
  | or (t : Nat) (f : WFields) (e : WEnv)
  /-- XOR (R221): The core forms the bitwise XOR of two scalars. -/
  | xor (t : Nat) (f : WFields) (e : WEnv)
  /-- SHL (R221): The core shifts a scalar left. -/
  | shl (t : Nat) (f : WFields) (e : WEnv)
  /-- SHR (R221): The core shifts a scalar right, filling with zeros. -/
  | shr (t : Nat) (f : WFields) (e : WEnv)
  /-- SRA (R221): The core shifts a scalar right, filling with the sign. -/
  | sra (t : Nat) (f : WFields) (e : WEnv)
  /-- MIN (R221): The core takes the signed minimum. -/
  | min (t : Nat) (f : WFields) (e : WEnv)
  /-- MAX (R221): The core takes the signed maximum. -/
  | max (t : Nat) (f : WFields) (e : WEnv)
  /-- MINU (R221): The core takes the unsigned minimum. -/
  | minu (t : Nat) (f : WFields) (e : WEnv)
  /-- MAXU (R221): The core takes the unsigned maximum. -/
  | maxu (t : Nat) (f : WFields) (e : WEnv)
  /-- CMP (R221): The core compares two scalars into a predicate. -/
  | cmp (t : Nat) (f : WFields) (e : WEnv)
  /-- ADDI (R221): The core adds an immediate to a scalar. -/
  | addi (t : Nat) (f : WFields) (e : WEnv)
  /-- LI (R221): The core loads an immediate into a scalar. -/
  | li (t : Nat) (f : WFields) (e : WEnv)
  /-- LIH (R221): The core loads an immediate into the high half of a scalar. -/
  | lih (t : Nat) (f : WFields) (e : WEnv)
  /-- ANDI (R221): The core ANDs a scalar with an immediate. -/
  | andi (t : Nat) (f : WFields) (e : WEnv)
  /-- ORI (R221): The core ORs a scalar with an immediate. -/
  | ori (t : Nat) (f : WFields) (e : WEnv)
  /-- XORI (R221): The core XORs a scalar with an immediate. -/
  | xori (t : Nat) (f : WFields) (e : WEnv)
  /-- SHLI (R221): The core shifts a scalar left by an immediate. -/
  | shli (t : Nat) (f : WFields) (e : WEnv)
  /-- SHRI (R221): The core shifts a scalar right, with zeros, by an immediate. -/
  | shri (t : Nat) (f : WFields) (e : WEnv)
  /-- SRAI (R221): The core shifts a scalar right, with the sign, by an immediate. -/
  | srai (t : Nat) (f : WFields) (e : WEnv)
  /-- CMPI (R221): The core compares a scalar with an immediate into a predicate. -/
  | cmpi (t : Nat) (f : WFields) (e : WEnv)
  /-- PLOG (R221): The core combines two predicates logically. -/
  | plog (t : Nat) (f : WFields) (e : WEnv)
  /-- PMOV (R221): The core moves a scalar into a predicate. -/
  | pmov (t : Nat) (f : WFields) (e : WEnv)
  /-- PRD (R221): The core moves a predicate into a scalar. -/
  | prd (t : Nat) (f : WFields) (e : WEnv)
  /-- BR (R222): The core branches unconditionally. -/
  | br (t : Nat) (f : WFields) (e : WEnv)
  /-- BANY (R222): The core branches when any predicate bit is 1. -/
  | bany (t : Nat) (f : WFields) (e : WEnv)
  /-- BALL (R222): The core branches when every predicate bit is 1. -/
  | ball (t : Nat) (f : WFields) (e : WEnv)
  /-- JAL (R222): The core branches and saves the return index. -/
  | jal (t : Nat) (f : WFields) (e : WEnv)
  /-- JR (R222): The core jumps to a register address. -/
  | jr (t : Nat) (f : WFields) (e : WEnv)
  /-- LD64 (R224): The core loads 8 bytes from tile store. -/
  | ld64 (t : Nat) (f : WFields) (e : WEnv)
  /-- LD32 (R224): The core loads 4 bytes, sign-extended. -/
  | ld32 (t : Nat) (f : WFields) (e : WEnv)
  /-- LD32U (R224): The core loads 4 bytes, zero-extended. -/
  | ld32u (t : Nat) (f : WFields) (e : WEnv)
  /-- LD16 (R224): The core loads 2 bytes, sign-extended. -/
  | ld16 (t : Nat) (f : WFields) (e : WEnv)
  /-- LD16U (R224): The core loads 2 bytes, zero-extended. -/
  | ld16u (t : Nat) (f : WFields) (e : WEnv)
  /-- LD8 (R224): The core loads 1 byte, sign-extended. -/
  | ld8 (t : Nat) (f : WFields) (e : WEnv)
  /-- LD8U (R224): The core loads 1 byte, zero-extended. -/
  | ld8u (t : Nat) (f : WFields) (e : WEnv)
  /-- ST64 (R224): The core stores 8 bytes. -/
  | st64 (t : Nat) (f : WFields) (e : WEnv)
  /-- ST32 (R224): The core stores 4 bytes. -/
  | st32 (t : Nat) (f : WFields) (e : WEnv)
  /-- ST16 (R224): The core stores 2 bytes. -/
  | st16 (t : Nat) (f : WFields) (e : WEnv)
  /-- ST8 (R224): The core stores 1 byte. -/
  | st8 (t : Nat) (f : WFields) (e : WEnv)
  /-- VLD (R224): The core loads a vector of 256 bytes. -/
  | vld (t : Nat) (f : WFields) (e : WEnv)
  /-- VST (R224): The core stores a vector. -/
  | vst (t : Nat) (f : WFields) (e : WEnv)
  /-- VLDP (R224): The core loads packed elements and widens them. -/
  | vldp (t : Nat) (f : WFields) (e : WEnv)
  /-- VSTP (R224): The core stores the low bits of each lane, packed. -/
  | vstp (t : Nat) (f : WFields) (e : WEnv)
  /-- VLDX (R224): The core gathers 4-byte values by lane index. -/
  | vldx (t : Nat) (f : WFields) (e : WEnv)
  /-- VADD (R226): The core adds I32 lanes, wrapping. -/
  | vadd (t : Nat) (f : WFields) (e : WEnv)
  /-- VSUB (R226): The core subtracts I32 lanes, wrapping. -/
  | vsub (t : Nat) (f : WFields) (e : WEnv)
  /-- VADDS (R226): The core adds I32 lanes, saturating. -/
  | vadds (t : Nat) (f : WFields) (e : WEnv)
  /-- VSUBS (R226): The core subtracts I32 lanes, saturating. -/
  | vsubs (t : Nat) (f : WFields) (e : WEnv)
  /-- VMUL (R226): The core multiplies I32 lanes, wrapping. -/
  | vmul (t : Nat) (f : WFields) (e : WEnv)
  /-- VMULS (R226): The core multiplies I32 lanes, saturating. -/
  | vmuls (t : Nat) (f : WFields) (e : WEnv)
  /-- VAND (R226): The core forms the bitwise AND of lanes. -/
  | vand (t : Nat) (f : WFields) (e : WEnv)
  /-- VOR (R226): The core forms the bitwise OR of lanes. -/
  | vor (t : Nat) (f : WFields) (e : WEnv)
  /-- VXOR (R226): The core forms the bitwise XOR of lanes. -/
  | vxor (t : Nat) (f : WFields) (e : WEnv)
  /-- VSHL (R226): The core shifts lanes left. -/
  | vshl (t : Nat) (f : WFields) (e : WEnv)
  /-- VSHR (R226): The core shifts lanes right, filling with zeros. -/
  | vshr (t : Nat) (f : WFields) (e : WEnv)
  /-- VSRA (R226): The core shifts lanes right, filling with the sign. -/
  | vsra (t : Nat) (f : WFields) (e : WEnv)
  /-- VMIN (R226): The core takes the signed lane minimum. -/
  | vmin (t : Nat) (f : WFields) (e : WEnv)
  /-- VMAX (R226): The core takes the signed lane maximum. -/
  | vmax (t : Nat) (f : WFields) (e : WEnv)
  /-- VCMP (R226): The core compares lanes into a predicate. -/
  | vcmp (t : Nat) (f : WFields) (e : WEnv)
  /-- VSEL (R226): The core selects lanes by a predicate. -/
  | vsel (t : Nat) (f : WFields) (e : WEnv)
  /-- VFADD (R227): The core adds floating-point lanes. -/
  | vfadd (t : Nat) (f : WFields) (e : WEnv)
  /-- VFSUB (R227): The core subtracts floating-point lanes. -/
  | vfsub (t : Nat) (f : WFields) (e : WEnv)
  /-- VFMUL (R227): The core multiplies floating-point lanes. -/
  | vfmul (t : Nat) (f : WFields) (e : WEnv)
  /-- VFMA (R227): The core computes a fused multiply-add per lane. -/
  | vfma (t : Nat) (f : WFields) (e : WEnv)
  /-- VFMAX (R227): The core takes the IEEE maximum per lane. -/
  | vfmax (t : Nat) (f : WFields) (e : WEnv)
  /-- VFMIN (R227): The core takes the IEEE minimum per lane. -/
  | vfmin (t : Nat) (f : WFields) (e : WEnv)
  /-- VFCMP (R227): The core compares floating-point lanes into a predicate. -/
  | vfcmp (t : Nat) (f : WFields) (e : WEnv)
  /-- VFABS (R227): The core clears sign bits, and gives the canonical NaN for a NaN. -/
  | vfabs (t : Nat) (f : WFields) (e : WEnv)
  /-- VEXP2 (R118): The core computes exp2 per lane. -/
  | vexp2 (t : Nat) (f : WFields) (e : WEnv)
  /-- VLOG2 (R118): The core computes log2 per lane. -/
  | vlog2 (t : Nat) (f : WFields) (e : WEnv)
  /-- VRCP (R118): The core computes the reciprocal per lane. -/
  | vrcp (t : Nat) (f : WFields) (e : WEnv)
  /-- VRSQ (R118): The core computes the reciprocal square root per lane. -/
  | vrsq (t : Nat) (f : WFields) (e : WEnv)
  /-- VFRED (R227): The core sums 64 lanes by the fixed tree into a scalar. -/
  | vfred (t : Nat) (f : WFields) (e : WEnv)
  /-- VBCST (R228): The core broadcasts a scalar to the lanes. -/
  | vbcst (t : Nat) (f : WFields) (e : WEnv)
  /-- VEXT (R228): The core extracts one lane into a scalar. -/
  | vext (t : Nat) (f : WFields) (e : WEnv)
  /-- VINS (R228): The core inserts a scalar into one lane. -/
  | vins (t : Nat) (f : WFields) (e : WEnv)
  /-- VPERM (R228): The core permutes the lanes. -/
  | vperm (t : Nat) (f : WFields) (e : WEnv)
  /-- VIOTA (R228): The core writes each lane's index. -/
  | viota (t : Nat) (f : WFields) (e : WEnv)
  /-- VIRED (R228): The core forms the exact sum of the enabled I32 lanes. -/
  | vired (t : Nat) (f : WFields) (e : WEnv)
  /-- VCVT (R228): The core converts lanes between formats. -/
  | vcvt (t : Nat) (f : WFields) (e : WEnv)
  /-- VRNG (R229): The core draws Philox random values per lane. -/
  | vrng (t : Nat) (f : WFields) (e : WEnv)
  /-- VQNT (R230): The core quantises a whole tensor into a slot-ring channel or packed codes. -/
  | vqnt (t : Nat) (f : WFields) (e : WEnv)
  /-- XCLR (R232): The core clears an exact accumulator. -/
  | xclr (t : Nat) (f : WFields) (e : WEnv)
  /-- XADD (R232): The core adds FP32 lanes exactly into an exact accumulator. -/
  | xadd (t : Nat) (f : WFields) (e : WEnv)
  /-- XRD (R232): The core reads out exact-accumulator lanes, rounded once. -/
  | xrd (t : Nat) (f : WFields) (e : WEnv)
  /-- XSUM (R232): The core reads out the exact sum of all lanes. -/
  | xsum (t : Nat) (f : WFields) (e : WEnv)
  /-- XST (R232): The core stores an exact image. -/
  | xst (t : Nat) (f : WFields) (e : WEnv)
  /-- XLD (R232): The core loads an exact image. -/
  | xld (t : Nat) (f : WFields) (e : WEnv)
  /-- XACC (R232): The core adds an exact image into an exact accumulator. -/
  | xacc (t : Nat) (f : WFields) (e : WEnv)
  /-- MXW (R234): The core writes one weight page. -/
  | mxw (t : Nat) (f : WFields) (e : WEnv)
  /-- MXWF8 (R234): The core aligns and writes a four-page F8 weight set. -/
  | mxwf8 (t : Nat) (f : WFields) (e : WEnv)
  /-- MXS (R234): The core selects the weight set of each named macro. -/
  | mxs (t : Nat) (f : WFields) (e : WEnv)
  /-- MXR (R235): The core runs one step under a step descriptor. -/
  | mxr (t : Nat) (f : WFields) (e : WEnv)
  /-- MXC (R234): The core clears a bank, its SAT mask and its block accumulators. -/
  | mxc (t : Nat) (f : WFields) (e : WEnv)
  /-- ACCRD (R234): The core reads half a bank into a vector. -/
  | accrd (t : Nat) (f : WFields) (e : WEnv)
  /-- ACCSAT (R234): The core reads the SAT bits of half a bank into a predicate. -/
  | accsat (t : Nat) (f : WFields) (e : WEnv)
  /-- ACCWR (R234): The core writes half a bank and clears its SAT bits. -/
  | accwr (t : Nat) (f : WFields) (e : WEnv)
  /-- SHQ (R237): The core enqueues a shuttle descriptor and receives a ticket. -/
  | shq (t : Nat) (f : WFields) (e : WEnv)
  /-- SHW (R237): The core waits for a ticket and receives its status. -/
  | shw (t : Nat) (f : WFields) (e : WEnv)
  /-- SHT (R237): The core tests a ticket's completion without waiting. -/
  | sht (t : Nat) (f : WFields) (e : WEnv)
  /-- CHSEND (R238): The core waits for a credit and sends a channel entry. -/
  | chsend (t : Nat) (f : WFields) (e : WEnv)
  /-- CHRECV (R238): The core waits for a channel entry and receives its address. -/
  | chrecv (t : Nat) (f : WFields) (e : WEnv)
  /-- CHREL (R238): The core releases a held entry and returns its credit. -/
  | chrel (t : Nat) (f : WFields) (e : WEnv)
  /-- CHPOLL (R238): The core tests whether a channel entry waits. -/
  | chpoll (t : Nat) (f : WFields) (e : WEnv)
  /-- ENERGY (R240): The core declares the energy class of the code that follows. -/
  | energy (t : Nat) (f : WFields) (e : WEnv)
  /-- LOAD (R294): The load command checks the whole image, then writes it to the device. -/
  | load (src : CmdSrc) (errs : List (Nat × List SymErr))
  /-- LOAD_COMPLETE (R294): The write pass ends, the recomputed digests are compared, and the image becomes loaded, or no image stays loaded. -/
  | loadComplete (errs : List (Nat × List SymErr))
  /-- TILE_IA_DATA (R298): An access through the indirect data port reads or writes 32 bits and advances the address, subject to the run state and unlock. -/
  | tileIaData (t : Nat) (w : Option Word)
  /-- IA_PAGE_WRITE (R298): TILE_IA_CMD with OP 0b01 writes a macro page from the page buffer. -/
  | iaPageWrite (t m p : Nat) (signed : Bool)
  /-- IA_PAGE_READ (R298): TILE_IA_CMD with OP 0b10 copies a macro page to the page buffer. -/
  | iaPageRead (t m p : Nat)
  /-- IA_PAGE_DONE (R298): A page command finishes after 96 arithmetic cycles, and BUSY clears. -/
  | iaPageDone (t : Nat)
  /-- FAULT_RING_RELEASE (R180): A write of WT_FLT_REL releases the oldest fault records. -/
  | faultRingRelease (t n : Nat)
  /-- PORT_TRAIN (R385): Setting KW_PORT_CFG.EN starts training with TRAIN bolts. -/
  | portTrain (p : Nat) (v : Word)
  /-- PORT_OFF (R390): Clearing EN sets the port OFF and discards its state. -/
  | portOff (p : Nat) (v : Word)
  /-- PORT_UP (R385): The lanes lock and deskew and the partners agree, so the port reaches UP. -/
  | portUp (p dev pp : Nat)
  /-- PORT_TRAIN_FAIL (R385): The port does not reach UP within 10 ms and goes DOWN. -/
  | portTrainFail (p : Nat)
  /-- PORT_RETRAIN (R385): A DOWN port with AUTO set retrains every 100 ms. -/
  | portRetrain (p : Nat)
  /-- PORT_DOWN (R388): A lane loses clock recovery or misses 4 headers, so the port goes DOWN and its tickets fail. -/
  | portDown (p : Nat)
  /-- PEER_BOLT (R386): A port receives a peer bolt; the port processes ACK, NAK and FREED and accepts, discards or rejects the bolt. -/
  | peerBolt (p j tag : Nat) (bits : List Bool)
  /-- REPLAY_TIMEOUT (R387): RTMO expires with bolts outstanding, and a replay starts. -/
  | replayTimeout (p : Nat)
  /-- TIME_CHECK_SEND (R399): At a tick that is a multiple of 2^TC_LOG2, each UP port sends a TIME_CHECK. -/
  | timeCheckSend
  /-- TIME_CHECK (R400): A received TIME_CHECK yields the offset and delay measurement. -/
  | timeCheck (p : Nat)
  /-- SCORE_SEND (R402): Every SCORE_MS, the device sends a SCORE toward the root. -/
  | scoreSend
  /-- SCORE (R401): A received SCORE is forwarded toward the root or delivered to Keep, and its ingress port is recorded. -/
  | score (p : Nat)
  /-- GRANT (R403): A received GRANT is forwarded, or is verified and sets the package cap. -/
  | grant (p : Nat)
  /-- COORDINATOR (R404): Every SCORE_MS the root coordinator moves budget in pairs of grants. -/
  | coordinator
  /-- EVENT (R398): A received EVENT is written to the port's event ring. -/
  | event (p : Nat)
  /-- MEM_WR (R396): A remote write request is checked against the regions, performed and acknowledged. -/
  | memWr (p : Nat)
  /-- MEM_RD (R396): A remote read request is checked, performed and answered with data. -/
  | memRd (p : Nat) (errs : List SymErr)
  /-- WR_ACK (R395): A write acknowledgement completes the requester's unit. -/
  | wrAck (p : Nat)
  /-- RD_DATA (R395): Read data complete the requester's unit. -/
  | rdData (p : Nat) (x : UnitEnv)
  /-- PERST_N (R440): Assertion of PERST_N uncommits the decoders and invalidates the caches, while runs continue. -/
  | perstN
  /-- LINK_UP (R410): The CXL link trains to L0 after PERST_N deassertion. -/
  | linkUp (cxl : Bool) (speed width : Nat)
  /-- LINK_DOWN (R440): The link leaves L0 without PERST_N, with the same effects as PERST_N. -/
  | linkDown
  /-- HDM_DECODER_COMMIT (R417): The host commits an HDM decoder, and the commit is checked. -/
  | hdmDecoderCommit (i : Nat)
  /-- HOST_MEM_READ (R418): A host CXL.mem read is translated, checked against the regions and served from DDR4. -/
  | hostMemRead (hpa : Nat) (errs : List SymErr)
  /-- HOST_MEM_WRITE (R418): A host CXL.mem write is translated, checked and stored, and may flip a page to host bias. -/
  | hostMemWrite (hpa mask : Nat) (bs : List Byte) (poison : Bool) (errs : List SymErr)
  /-- BIAS_FLIP (R427): A write of CX_BIAS_CTRL.GO flips a range of pages to device or host bias. -/
  | biasFlip (target : Bool)
  /-- BIAS_FLIP_DONE (R427): The flip processes its last page, or stops, and BUSY falls. -/
  | biasFlipDone (n : Nat) (dirty : List (Nat × List Byte))
  /-- HOST_SNOOP (R429): A host snoop is answered by the coherency cache. -/
  | hostSnoop (l : Nat) (inv : Bool)
  /-- ATS_INVALIDATION (R430): An ATS invalidation completes after the units in flight to the range have completed. -/
  | atsInvalidation (pg n : Nat)
  /-- MAILBOX_GO (R433): A write of MB_CTRL.GO takes a mailbox command and dispatches it. -/
  | mailboxGo
  /-- MCTP_CONTROL_MESSAGE (R503): Keep answers an MCTP control message on the SMBus sideband. -/
  | mctpControlMessage (msg : List Byte)
  /-- GET_INFO (R492): The command returns identification and boot status. -/
  | getInfo (src : CmdSrc)
  /-- GET_LEDGER (R492): The command returns boot records, newest first. -/
  | getLedger (src : CmdSrc)
  /-- GET_CERT (R492): The command returns the device certificate. -/
  | getCert (src : CmdSrc)
  /-- GET_KEM_KEY (R486): The command returns the signed KEM encapsulation key. -/
  | getKemKey (src : CmdSrc)
  /-- GET_CHALLENGE (R487): The command returns a fresh 32-byte nonce. -/
  | getChallenge (src : CmdSrc)
  /-- ATTEST (R499): The command returns a signed attestation report. -/
  | attest (src : CmdSrc)
  /-- WARM_RESET (R485): The command performs a warm reset after sending its response. -/
  | warmReset (src : CmdSrc) (e : BootEnv)
  /-- RECOVERY_WRITE (R480): In recovery, the command writes a firmware chunk to slot A and boots it after the last chunk. -/
  | recoveryWrite (src : CmdSrc) (e : BootEnv)
  /-- KEY_ESTABLISH (R491): The command verifies the owner signature and establishes K_cmd with counter 0. -/
  | keyEstablish (src : CmdSrc) (late : Bool)
  /-- OWNER_TRANSFER (R488): The command verifies the transfer, clears the device, writes the new owner record and warm resets. -/
  | ownerTransfer (src : CmdSrc) (late : Bool) (e : BootEnv)
  /-- SET_CAP (R451): The critical command sets the package power cap within range. -/
  | setCap (src : CmdSrc)
  /-- FW_UPDATE (R497): The command verifies an image and writes a firmware slot, or writes the boot image. -/
  | fwUpdate (src : CmdSrc) (flashOk warm : Bool) (errs : List (Nat × List SymErr)) (e : BootEnv)
  /-- FARM_POWER (R496): The command installs or erases the farm power key and sets EN and COORD. -/
  | farmPower (src : CmdSrc)
  /-- DEBUG_UNLOCK (R501): The command sets a debug level against a signed challenge. -/
  | debugUnlock (src : CmdSrc) (late : Bool)
  /-- ZEROIZE (R502): The command ends any run, clears tile state and keys, and with DDR4 starts rewriting memory. -/
  | zeroize (src : CmdSrc)
  /-- ZEROIZE_DDR4_DONE (R502): The DDR4 rewrite finishes, Memory_Active rises, and a warm reset follows. -/
  | zeroizeDdr4Done (e : BootEnv)
  /-- FUSE_ADVANCE (R498): The command blows anti-rollback fuses up to the running SVN. -/
  | fuseAdvance (src : CmdSrc) (blown : Bool)
  /-- SET_POLICY (R489): The command writes both owner record copies with a new policy. -/
  | setPolicy (src : CmdSrc) (flashOk : Bool)
  /-- LEDGER_CLEAR (R484): The command clears the failure counts of the named steps and items. -/
  | ledgerClear (src : CmdSrc)
  /-- PMC_CONTROL_UPDATE (R455): Every 1 us, PMC estimates power, sets bubbles and marrow, and publishes the weft budget. -/
  | pmcControlUpdate (x : PmcSample)
  /-- PMC_MEASUREMENT (R449): Every 100 us, PMC measures power and updates the calibration gain and offset. -/
  | pmcMeasurement (core : Nat)
  /-- PMC_OP_STEP (R458): Every 100 us, PMC may step the weft operating point by one. -/
  | pmcOpStep (stretched : Bool)
  /-- PMBUS_POLL (R448): Every 1 ms, PMC reads voltage and current from each rail regulator. -/
  | pmbusPoll (vals : List (Option Nat))
  /-- TEMP_SAMPLE (R466): Every 50 us, every sensor is read and the thermal levels are evaluated. -/
  | tempSample (qs : List Int)
  /-- THERMAL_TRIP (R468): A comparator crosses 115 C, which asserts THERMTRIP_N and PWR_OFF_REQ_N and stops the core clocks. -/
  | thermalTrip (k : Nat)
  /-- VR_HOT (R469): VR_HOT_N goes low, and the throttle level applies. -/
  | vrHot
  /-- SNAP_IN_EDGE (R508): A rising edge on SNAP_IN requests a snapshot at a latch tick. -/
  | snapInEdge (tag : Nat)
  /-- AT_GO (R508): A write of SN_CTRL.AT_GO requests the latch tick in SN_AT. -/
  | atGo
  /-- SNAPSHOT_NOW (R508): A write of SN_CTRL.NOW latches the banks at once outside a run. -/
  | snapshotNow
  /-- SNAPSHOT_LATCH (R510): At the latch tick, every bank latches, HELD sets and SNAP_OUT pulses. -/
  | snapshotLatch
  /-- SNAPSHOT_RELEASE (R510): A write of SN_CTRL.RELEASE clears HELD. -/
  | snapshotRelease
  /-- WT_SLACK_CLR (R512): A write restores every slack register of the tile. -/
  | wtSlackClr (t : Nat)
  /-- EYE_SCAN_GO (R516): A write of EY_CTRL.GO starts a scan point on a lane that is up. -/
  | eyeScanGo (i : Nat) (v : Word)
  /-- EYE_SCAN_ABORT (R516): ABORT, or a lane loss, ends the point ABORTED. -/
  | eyeScanAbort (i : Nat) (laneLost : Bool)
  /-- EYE_SCAN_DONE (R516): The point compares its 2^DWELL bits and sets DONE. -/
  | eyeScanDone (i errs : Nat)
  /-- TAP_RESET (R520): TRST_N low, or a return to Test-Logic-Reset, resets the TAP and after a driven instruction holds the pins in the safe state. -/
  | tapReset
  /-- EXTEST (R522): The driven instruction takes the pins, ending operation as R378 states. -/
  | extest
  /-- EXTEST_PULSE (R522): The driven AC instruction takes the pins. -/
  | extestPulse
  /-- EXTEST_TRAIN (R522): The driven AC training instruction takes the pins. -/
  | extestTrain
  /-- CLAMP (R522): The driven clamp instruction takes the pins. -/
  | clamp
  /-- HIGHZ (R522): The driven high-impedance instruction takes the pins. -/
  | highz
  /-- IDCODE (R521): The instruction selects the IDCODE register and leaves the pins to the core. -/
  | idcode
  /-- SAMPLE_PRELOAD (R520): The instruction samples or preloads the boundary cells and leaves the pins to the core. -/
  | samplePreload
  /-- BYPASS (R520): The instruction selects the bypass register and leaves the pins to the core. -/
  | bypass
  /-- REGISTER_WRITE (R11): A write to a register with no row of its own acts by its access type, lock and reserved-bit rules. -/
  | registerWrite (x : RegTarget) (v : HostWord)
  /-- RC_READ (R13): A read of an RC field returns its value and clears it. -/
  | rcRead (a : HostRead)
  /-- REG64_LOW_READ (R14): A read of the low half of a 64-bit register latches the high half. -/
  | reg64LowRead (a : HostAt)
  /-- REG64_HIGH_WRITE (R14): A write of the high half commits the staged low half together with the high half. -/
  | reg64HighWrite (a : Nat) (v : HostHalf)
  /-- RAIL_BACK_IN_DC_BAND (R541): 1 ms after every watched rail has returned to its DC band, the EX-20 leaves the undervoltage reset and boots from S0. -/
  | railBackInDcBand (e : BootEnv)
  /-- PERST_N_DEASSERTION (R538): PERST_N rises, and the CXL PHY starts training from fuse defaults at the later of the PERST_N and SYS_RST_N edges. -/
  | perstNDeassertion
  /-- VR_HOT_N_HIGH (R469): VR_HOT_N returns high after filtering, and the throttle level it forced is no longer in effect. -/
  | vrHotNHigh
  /-- SNAP_OUT_END (R510): One tick period after the latch edge, SNAP_OUT returns low. -/
  | snapOutEnd
  /-- PORT_SLOT_TRANSMIT (R391): At each port slot, the peer transmitter picks the highest-priority VL with a message and a credit and sends a DATA bolt, or else an IDLE bolt, carrying ACK, NAK and FREED. -/
  | portSlotTransmit (p tag : Nat)
  /-- CLOCK_RECOVERY_LOCK (R64): A stream lane's receiver recovers the clock, and the lane moves from CDR to SYNC and header search. -/
  | clockRecoveryLock (i : Nat)
  /-- REG64_HIGH_READ (R14): A read of the high half of a 64-bit register returns the latched value and empties the latch, or returns the current high half when the latch is empty. -/
  | reg64HighRead (a : HostAt)
  /-- REG64_LOW_WRITE (R14): A write of the low half of a 64-bit register places the value in the staging register without committing it. -/
  | reg64LowWrite (a : Nat) (v : HostHalf)
  /-- SN_DATA_READ (R511): A read of SN_DATA returns the selected snapshot bank word, or 0 for tile-store words below debug level 1, in which case it sets SN_STATUS.DENIED. -/
  | snDataRead
deriving DecidableEq, Repr

end Sys2Proof
end

