-- ==== Sys2Proof/WellFormed.lean ====
section
/-! DEFINITION. Which commands are well formed: the unit that a command names exists in the architecture of the EX-20
(spec/01 R17-R22), and every field of an instruction fits its place (spec/08 R213, spec/06 R158). -/

namespace Sys2Proof

/-- The fields of a Uahomer-D instruction fit their places (spec/08 R213). -/
def fieldsFit (f : WFields) : Bool :=
  decide (f.pg < 2 ^ 3) && decide (f.rd < 2 ^ 5) && decide (f.ra < 2 ^ 5) && decide (f.rb < 2 ^ 5)
    && decide (f.rc < 2 ^ 5) && decide (f.imm < 2 ^ 32)

/-- The word index, lag and predicate field of a warp slot fit their places (spec/06 R153, R157, R158). -/
def slotFits (w : WSlot) : Bool := decide (w.word < 2 ^ 12) && decide (w.lag < 2 ^ 8) && decide (w.q < 2 ^ 4)

/-- The unit that the command names is one the architecture has: 256 tiles, 16 streams, 96 lanes, 257 routers, 16 DDR4
channels, 32 regions, 8 peer ports, 144 lanes with eye scan, 16 trigger pins, 4 Loom dies, 72 sensors, 2 HDM decoders. -/
def unitExists (i : Instr) : Bool :=
  match i with
  | .powerUp => true
  | .sysRstNAssert _ => true
  | .sysRstNRelease _ => true
  | .memoryActive _ _ => true
  | .stepTimeout _ => true
  | .watchdog _ => true
  | .railUndervoltage _ => true
  | .aonUndervoltage => true
  | .powerLoss => true
  | .lockEnSet => true
  | .lockEnClear => true
  | .tickLocked _ => true
  | .tickLockFail => true
  | .avsDone _ => true
  | .arm => true
  | .stop => true
  | .runStopEnd => true
  | .runSyncEdge => true
  | .tickLost => true
  | .holdoverExit => true
  | .holdoverExpired => true
  | .sysclkLost => true
  | .weftPllUnlock => true
  | .droopDetected die _ _ => decide (die < 4)
  | .tickOverrun => true
  | .trigInEdge i _ _ => decide (i < 16)
  | .bolt i _ _ _ _ => decide (i < 96)
  | .laneDown i => decide (i < 96)
  | .frameDelivery n _ => decide (n < 16)
  | .backChannelBolt i _ _ => decide (i < 96)
  | .warpMxr w _ _ => decide (w.tile < 256)
  | .warpMxc w _ => decide (w.tile < 256)
  | .req w _ _ => decide (w.tile < 256)
  | .qnt w _ => decide (w.tile < 256)
  | .cvt w _ => decide (w.tile < 256)
  | .warpAdd w _ => decide (w.tile < 256)
  | .warpMul w _ => decide (w.tile < 256)
  | .warpFma w _ => decide (w.tile < 256)
  | .warpMax w _ => decide (w.tile < 256)
  | .warpMin w _ => decide (w.tile < 256)
  | .exp2 w _ => decide (w.tile < 256)
  | .log2 w _ => decide (w.tile < 256)
  | .rcp w _ => decide (w.tile < 256)
  | .rsq w _ => decide (w.tile < 256)
  | .red w _ => decide (w.tile < 256)
  | .pset w _ _ => decide (w.tile < 256)
  | .movv w _ => decide (w.tile < 256)
  | .bmov w _ _ => decide (w.tile < 256)
  | .send w _ _ _ => decide (w.tile < 256)
  | .skpush w _ _ _ => decide (w.tile < 256)
  | .skpop w _ _ => decide (w.tile < 256)
  | .sksend w _ _ => decide (w.tile < 256)
  | .htk w _ _ _ _ _ => decide (w.tile < 256)
  | .mark w _ => decide (w.tile < 256)
  | .sco w _ _ _ _ _ => decide (w.tile < 256)
  | .burstArrival t _ => decide (t < 256)
  | .tokenExpired t _ _ => decide (t < 256)
  | .warpFlitArrival r _ => decide (r < 257)
  | .packetInjection _ _ _ _ _ _ _ _ => true
  | .creditReturn _ _ => true
  | .write _ dst => decide (dst.node < 256)
  | .token _ dst => decide (dst.node < 256)
  | .credit _ dst => decide (dst.node < 256)
  | .shuttleReq t _ _ _ => decide (t < 256)
  | .shuttleResp t _ _ => decide (t.node < 256)
  | .regWr _ _ => true
  | .regRd _ _ => true
  | .regResp _ _ => true
  | .telemetry _ _ => true
  | .evaluation n => decide (n < 16)
  | .treadleTimerExpiry n _ _ => decide (n < 16)
  | .trigOutPulseEnd j => decide (j < 16)
  | .force n => decide (n < 16)
  | .c1Record n _ => decide (n < 16)
  | .c1Commit n _ _ => decide (n < 16)
  | .decisionMissing n => decide (n < 16)
  | .bobbinWrite n => decide (n < 16)
  | .rearm n => decide (n < 16)
  | .regionValidWrite r _ _ => decide (r < 32)
  | .refresh c _ => decide (c < 16)
  | .zqCalibration c => decide (c < 16)
  | .dimmTempRead c _ => decide (c < 16)
  | .scrub c _ => decide (c < 16)
  | .linkRecord n => decide (n < 16)
  | .wfSqProd n _ => decide (n < 16)
  | .wfCqCons n _ => decide (n < 16)
  | .descriptorFetch n _ => decide (n < 16)
  | .jobAdmission => true
  | .reservedJob n => decide (n < 16)
  | .energyGrant t => decide (t < 256)
  | .jobEnd t => decide (t < 256)
  | .jobTrapEnd t => decide (t < 256)
  | .completionRecord n _ => decide (n < 16)
  | .jobTimeLimit t => decide (t < 256)
  | .abort n _ => decide (n < 16)
  | .resume n => decide (n < 16)
  | .wfPos n _ => decide (n < 16)
  | .shuttleTicketComplete t _ => decide (t < 256)
  | .waitTimeout t => decide (t < 256)
  | .scaleTagTimeout t => decide (t < 256)
  | .nop t _ _ _ => decide (t < 256)
  | .fence t _ _ => decide (t < 256)
  | .trap t _ _ => decide (t < 256)
  | .jend t _ _ => decide (t < 256)
  | .brk t _ _ => decide (t < 256)
  | .mfc t _ _ => decide (t < 256)
  | .mtc t _ _ => decide (t < 256)
  | .add t _ _ => decide (t < 256)
  | .sub t _ _ => decide (t < 256)
  | .mul t _ _ => decide (t < 256)
  | .mulh t _ _ => decide (t < 256)
  | .mulhu t _ _ => decide (t < 256)
  | .and t _ _ => decide (t < 256)
  | .or t _ _ => decide (t < 256)
  | .xor t _ _ => decide (t < 256)
  | .shl t _ _ => decide (t < 256)
  | .shr t _ _ => decide (t < 256)
  | .sra t _ _ => decide (t < 256)
  | .min t _ _ => decide (t < 256)
  | .max t _ _ => decide (t < 256)
  | .minu t _ _ => decide (t < 256)
  | .maxu t _ _ => decide (t < 256)
  | .cmp t _ _ => decide (t < 256)
  | .addi t _ _ => decide (t < 256)
  | .li t _ _ => decide (t < 256)
  | .lih t _ _ => decide (t < 256)
  | .andi t _ _ => decide (t < 256)
  | .ori t _ _ => decide (t < 256)
  | .xori t _ _ => decide (t < 256)
  | .shli t _ _ => decide (t < 256)
  | .shri t _ _ => decide (t < 256)
  | .srai t _ _ => decide (t < 256)
  | .cmpi t _ _ => decide (t < 256)
  | .plog t _ _ => decide (t < 256)
  | .pmov t _ _ => decide (t < 256)
  | .prd t _ _ => decide (t < 256)
  | .br t _ _ => decide (t < 256)
  | .bany t _ _ => decide (t < 256)
  | .ball t _ _ => decide (t < 256)
  | .jal t _ _ => decide (t < 256)
  | .jr t _ _ => decide (t < 256)
  | .ld64 t _ _ => decide (t < 256)
  | .ld32 t _ _ => decide (t < 256)
  | .ld32u t _ _ => decide (t < 256)
  | .ld16 t _ _ => decide (t < 256)
  | .ld16u t _ _ => decide (t < 256)
  | .ld8 t _ _ => decide (t < 256)
  | .ld8u t _ _ => decide (t < 256)
  | .st64 t _ _ => decide (t < 256)
  | .st32 t _ _ => decide (t < 256)
  | .st16 t _ _ => decide (t < 256)
  | .st8 t _ _ => decide (t < 256)
  | .vld t _ _ => decide (t < 256)
  | .vst t _ _ => decide (t < 256)
  | .vldp t _ _ => decide (t < 256)
  | .vstp t _ _ => decide (t < 256)
  | .vldx t _ _ => decide (t < 256)
  | .vadd t _ _ => decide (t < 256)
  | .vsub t _ _ => decide (t < 256)
  | .vadds t _ _ => decide (t < 256)
  | .vsubs t _ _ => decide (t < 256)
  | .vmul t _ _ => decide (t < 256)
  | .vmuls t _ _ => decide (t < 256)
  | .vand t _ _ => decide (t < 256)
  | .vor t _ _ => decide (t < 256)
  | .vxor t _ _ => decide (t < 256)
  | .vshl t _ _ => decide (t < 256)
  | .vshr t _ _ => decide (t < 256)
  | .vsra t _ _ => decide (t < 256)
  | .vmin t _ _ => decide (t < 256)
  | .vmax t _ _ => decide (t < 256)
  | .vcmp t _ _ => decide (t < 256)
  | .vsel t _ _ => decide (t < 256)
  | .vfadd t _ _ => decide (t < 256)
  | .vfsub t _ _ => decide (t < 256)
  | .vfmul t _ _ => decide (t < 256)
  | .vfma t _ _ => decide (t < 256)
  | .vfmax t _ _ => decide (t < 256)
  | .vfmin t _ _ => decide (t < 256)
  | .vfcmp t _ _ => decide (t < 256)
  | .vfabs t _ _ => decide (t < 256)
  | .vexp2 t _ _ => decide (t < 256)
  | .vlog2 t _ _ => decide (t < 256)
  | .vrcp t _ _ => decide (t < 256)
  | .vrsq t _ _ => decide (t < 256)
  | .vfred t _ _ => decide (t < 256)
  | .vbcst t _ _ => decide (t < 256)
  | .vext t _ _ => decide (t < 256)
  | .vins t _ _ => decide (t < 256)
  | .vperm t _ _ => decide (t < 256)
  | .viota t _ _ => decide (t < 256)
  | .vired t _ _ => decide (t < 256)
  | .vcvt t _ _ => decide (t < 256)
  | .vrng t _ _ => decide (t < 256)
  | .vqnt t _ _ => decide (t < 256)
  | .xclr t _ _ => decide (t < 256)
  | .xadd t _ _ => decide (t < 256)
  | .xrd t _ _ => decide (t < 256)
  | .xsum t _ _ => decide (t < 256)
  | .xst t _ _ => decide (t < 256)
  | .xld t _ _ => decide (t < 256)
  | .xacc t _ _ => decide (t < 256)
  | .mxw t _ _ => decide (t < 256)
  | .mxwf8 t _ _ => decide (t < 256)
  | .mxs t _ _ => decide (t < 256)
  | .mxr t _ _ => decide (t < 256)
  | .mxc t _ _ => decide (t < 256)
  | .accrd t _ _ => decide (t < 256)
  | .accsat t _ _ => decide (t < 256)
  | .accwr t _ _ => decide (t < 256)
  | .shq t _ _ => decide (t < 256)
  | .shw t _ _ => decide (t < 256)
  | .sht t _ _ => decide (t < 256)
  | .chsend t _ _ => decide (t < 256)
  | .chrecv t _ _ => decide (t < 256)
  | .chrel t _ _ => decide (t < 256)
  | .chpoll t _ _ => decide (t < 256)
  | .energy t _ _ => decide (t < 256)
  | .load _ _ => true
  | .loadComplete _ => true
  | .tileIaData t _ => decide (t < 256)
  | .iaPageWrite t _ _ _ => decide (t < 256)
  | .iaPageRead t _ _ => decide (t < 256)
  | .iaPageDone t => decide (t < 256)
  | .faultRingRelease t _ => decide (t < 256)
  | .portTrain p _ => decide (p < 8)
  | .portOff p _ => decide (p < 8)
  | .portUp p _ _ => decide (p < 8)
  | .portTrainFail p => decide (p < 8)
  | .portRetrain p => decide (p < 8)
  | .portDown p => decide (p < 8)
  | .peerBolt p _ _ _ => decide (p < 8)
  | .replayTimeout p => decide (p < 8)
  | .timeCheckSend => true
  | .timeCheck p => decide (p < 8)
  | .scoreSend => true
  | .score p => decide (p < 8)
  | .grant p => decide (p < 8)
  | .coordinator => true
  | .event p => decide (p < 8)
  | .memWr p => decide (p < 8)
  | .memRd p _ => decide (p < 8)
  | .wrAck p => decide (p < 8)
  | .rdData p _ => decide (p < 8)
  | .perstN => true
  | .linkUp _ _ _ => true
  | .linkDown => true
  | .hdmDecoderCommit i => decide (i < 2)
  | .hostMemRead _ _ => true
  | .hostMemWrite _ _ _ _ _ => true
  | .biasFlip _ => true
  | .biasFlipDone _ _ => true
  | .hostSnoop _ _ => true
  | .atsInvalidation _ _ => true
  | .mailboxGo => true
  | .mctpControlMessage _ => true
  | .getInfo _ => true
  | .getLedger _ => true
  | .getCert _ => true
  | .getKemKey _ => true
  | .getChallenge _ => true
  | .attest _ => true
  | .warmReset _ _ => true
  | .recoveryWrite _ _ => true
  | .keyEstablish _ _ => true
  | .ownerTransfer _ _ _ => true
  | .setCap _ => true
  | .fwUpdate _ _ _ _ _ => true
  | .farmPower _ => true
  | .debugUnlock _ _ => true
  | .zeroize _ => true
  | .zeroizeDdr4Done _ => true
  | .fuseAdvance _ _ => true
  | .setPolicy _ _ => true
  | .ledgerClear _ => true
  | .pmcControlUpdate _ => true
  | .pmcMeasurement _ => true
  | .pmcOpStep _ => true
  | .pmbusPoll _ => true
  | .tempSample _ => true
  | .thermalTrip k => decide (k < 72)
  | .vrHot => true
  | .snapInEdge _ => true
  | .atGo => true
  | .snapshotNow => true
  | .snapshotLatch => true
  | .snapshotRelease => true
  | .wtSlackClr t => decide (t < 256)
  | .eyeScanGo i _ => decide (i < 144)
  | .eyeScanAbort i _ => decide (i < 144)
  | .eyeScanDone i _ => decide (i < 144)
  | .tapReset => true
  | .extest => true
  | .extestPulse => true
  | .extestTrain => true
  | .clamp => true
  | .highz => true
  | .idcode => true
  | .samplePreload => true
  | .bypass => true
  | .registerWrite _ _ => true
  | .rcRead _ => true
  | .reg64LowRead _ => true
  | .reg64HighWrite _ _ => true
  | .railBackInDcBand _ => true
  | .perstNDeassertion => true
  | .vrHotNHigh => true
  | .snapOutEnd => true
  | .portSlotTransmit p _ => decide (p < 8)
  | .clockRecoveryLock i => decide (i < 96)
  | .reg64HighRead _ => true
  | .reg64LowWrite _ _ => true
  | .snDataRead => true

/-- Every operand that stands for a field of an instruction or of a register fits that field. -/
def operandsFit (i : Instr) : Bool :=
  match i with
  | .powerUp => true
  | .sysRstNAssert _ => true
  | .sysRstNRelease _ => true
  | .memoryActive _ _ => true
  | .stepTimeout _ => true
  | .watchdog _ => true
  | .railUndervoltage _ => true
  | .aonUndervoltage => true
  | .powerLoss => true
  | .lockEnSet => true
  | .lockEnClear => true
  | .tickLocked _ => true
  | .tickLockFail => true
  | .avsDone _ => true
  | .arm => true
  | .stop => true
  | .runStopEnd => true
  | .runSyncEdge => true
  | .tickLost => true
  | .holdoverExit => true
  | .holdoverExpired => true
  | .sysclkLost => true
  | .weftPllUnlock => true
  | .droopDetected _ _ _ => true
  | .tickOverrun => true
  | .trigInEdge _ _ _ => true
  | .bolt _ _ _ _ _ => true
  | .laneDown _ => true
  | .frameDelivery _ flits => flits.all (fun x => decide (x.tile < 256) && decide (x.words < 4))
  | .backChannelBolt _ _ _ => true
  | .warpMxr w sd _ => slotFits w && decide (sd < 64)
  | .warpMxc w bank => slotFits w && decide (bank < 4)
  | .req w vd half => slotFits w && decide (vd < 64) && decide (half < 2)
  | .qnt w vd => slotFits w && decide (vd < 64)
  | .cvt w vd => slotFits w && decide (vd < 64)
  | .warpAdd w vd => slotFits w && decide (vd < 64)
  | .warpMul w vd => slotFits w && decide (vd < 64)
  | .warpFma w vd => slotFits w && decide (vd < 64)
  | .warpMax w vd => slotFits w && decide (vd < 64)
  | .warpMin w vd => slotFits w && decide (vd < 64)
  | .exp2 w vd => slotFits w && decide (vd < 64)
  | .log2 w vd => slotFits w && decide (vd < 64)
  | .rcp w vd => slotFits w && decide (vd < 64)
  | .rsq w vd => slotFits w && decide (vd < 64)
  | .red w vd => slotFits w && decide (vd < 64)
  | .pset w vd pd => slotFits w && decide (vd < 64) && decide (pd < 8)
  | .movv w vd => slotFits w && decide (vd < 64)
  | .bmov w vd half => slotFits w && decide (vd < 64) && decide (half < 2)
  | .send w addr len tag => slotFits w && decide (addr < 32768) && decide (len < 4) && decide (tag < 16)
  | .skpush w addr len sk => slotFits w && decide (addr < 32768) && decide (len < 4) && decide (sk < 8)
  | .skpop w addr sk => slotFits w && decide (addr < 32768) && decide (sk < 8)
  | .sksend w tag sk => slotFits w && decide (tag < 16) && decide (sk < 8)
  | .htk w port route tag cnt slack => slotFits w && decide (port < 4) && decide (route < 15) && decide (tag < 16) && decide (cnt < 4) && decide (slack < 16)
  | .mark w umask => slotFits w && decide (umask < 256)
  | .sco w bank lg cnt stream sc => slotFits w && decide (bank < 4) && decide (lg < 8) && decide (cnt < 8) && decide (stream < 16) && decide (sc < 16)
  | .burstArrival _ p => decide (p < 4)
  | .tokenExpired _ p _ => decide (p < 4)
  | .warpFlitArrival _ ecc => decide (ecc < 3)
  | .packetInjection dst src kind rtag addr chan payload ecc => decide (dst < 1024) && decide (src < 1024) && decide (kind < 32)
    && decide (rtag < 65536) && decide (addr < 2 ^ 32) && decide (chan < 65536) && decide (payload.length ≤ 256)
    && decide (payload.length % 16 = 0) && decide (ecc < 3)
  | .creditReturn _ _ => true
  | .write _ dst => decide (dst.ecc < 3)
  | .token _ dst => decide (dst.ecc < 3)
  | .credit _ dst => decide (dst.ecc < 3)
  | .shuttleReq _ _ _ x => decide (x.flit < 3)
  | .shuttleResp t _ _ => decide (t.ecc < 3)
  | .regWr _ dst => decide (dst.ecc < 3)
  | .regRd _ dst => decide (dst.ecc < 3)
  | .regResp _ dst => decide (dst.ecc < 3)
  | .telemetry _ dst => decide (dst.ecc < 3)
  | .evaluation _ => true
  | .treadleTimerExpiry _ m j => decide (m < 8) && decide (j < 2)
  | .trigOutPulseEnd _ => true
  | .force _ => true
  | .c1Record _ ecc => decide (ecc < 3)
  | .c1Commit _ _ ecc => decide (ecc < 3)
  | .decisionMissing _ => true
  | .bobbinWrite _ => true
  | .rearm _ => true
  | .regionValidWrite _ kind stream => decide (kind < 8) && decide (stream < 16)
  | .refresh _ _ => true
  | .zqCalibration _ => true
  | .dimmTempRead _ _ => true
  | .scrub _ _ => true
  | .linkRecord _ => true
  | .wfSqProd _ v => decide (v < 65536)
  | .wfCqCons _ v => decide (v < 65536)
  | .descriptorFetch _ _ => true
  | .jobAdmission => true
  | .reservedJob _ => true
  | .energyGrant _ => true
  | .jobEnd _ => true
  | .jobTrapEnd _ => true
  | .completionRecord _ _ => true
  | .jobTimeLimit _ => true
  | .abort _ _ => true
  | .resume _ => true
  | .wfPos _ _ => true
  | .shuttleTicketComplete _ _ => true
  | .waitTimeout _ => true
  | .scaleTagTimeout _ => true
  | .nop _ opc f _ => fieldsFit f && decide (opc < 256)
  | .fence _ f _ => fieldsFit f
  | .trap _ f _ => fieldsFit f
  | .jend _ f _ => fieldsFit f
  | .brk _ f _ => fieldsFit f
  | .mfc _ f _ => fieldsFit f
  | .mtc _ f _ => fieldsFit f
  | .add _ f _ => fieldsFit f
  | .sub _ f _ => fieldsFit f
  | .mul _ f _ => fieldsFit f
  | .mulh _ f _ => fieldsFit f
  | .mulhu _ f _ => fieldsFit f
  | .and _ f _ => fieldsFit f
  | .or _ f _ => fieldsFit f
  | .xor _ f _ => fieldsFit f
  | .shl _ f _ => fieldsFit f
  | .shr _ f _ => fieldsFit f
  | .sra _ f _ => fieldsFit f
  | .min _ f _ => fieldsFit f
  | .max _ f _ => fieldsFit f
  | .minu _ f _ => fieldsFit f
  | .maxu _ f _ => fieldsFit f
  | .cmp _ f _ => fieldsFit f
  | .addi _ f _ => fieldsFit f
  | .li _ f _ => fieldsFit f
  | .lih _ f _ => fieldsFit f
  | .andi _ f _ => fieldsFit f
  | .ori _ f _ => fieldsFit f
  | .xori _ f _ => fieldsFit f
  | .shli _ f _ => fieldsFit f
  | .shri _ f _ => fieldsFit f
  | .srai _ f _ => fieldsFit f
  | .cmpi _ f _ => fieldsFit f
  | .plog _ f _ => fieldsFit f
  | .pmov _ f _ => fieldsFit f
  | .prd _ f _ => fieldsFit f
  | .br _ f _ => fieldsFit f
  | .bany _ f _ => fieldsFit f
  | .ball _ f _ => fieldsFit f
  | .jal _ f _ => fieldsFit f
  | .jr _ f _ => fieldsFit f
  | .ld64 _ f _ => fieldsFit f
  | .ld32 _ f _ => fieldsFit f
  | .ld32u _ f _ => fieldsFit f
  | .ld16 _ f _ => fieldsFit f
  | .ld16u _ f _ => fieldsFit f
  | .ld8 _ f _ => fieldsFit f
  | .ld8u _ f _ => fieldsFit f
  | .st64 _ f _ => fieldsFit f
  | .st32 _ f _ => fieldsFit f
  | .st16 _ f _ => fieldsFit f
  | .st8 _ f _ => fieldsFit f
  | .vld _ f _ => fieldsFit f
  | .vst _ f _ => fieldsFit f
  | .vldp _ f _ => fieldsFit f
  | .vstp _ f _ => fieldsFit f
  | .vldx _ f _ => fieldsFit f
  | .vadd _ f _ => fieldsFit f
  | .vsub _ f _ => fieldsFit f
  | .vadds _ f _ => fieldsFit f
  | .vsubs _ f _ => fieldsFit f
  | .vmul _ f _ => fieldsFit f
  | .vmuls _ f _ => fieldsFit f
  | .vand _ f _ => fieldsFit f
  | .vor _ f _ => fieldsFit f
  | .vxor _ f _ => fieldsFit f
  | .vshl _ f _ => fieldsFit f
  | .vshr _ f _ => fieldsFit f
  | .vsra _ f _ => fieldsFit f
  | .vmin _ f _ => fieldsFit f
  | .vmax _ f _ => fieldsFit f
  | .vcmp _ f _ => fieldsFit f
  | .vsel _ f _ => fieldsFit f
  | .vfadd _ f _ => fieldsFit f
  | .vfsub _ f _ => fieldsFit f
  | .vfmul _ f _ => fieldsFit f
  | .vfma _ f _ => fieldsFit f
  | .vfmax _ f _ => fieldsFit f
  | .vfmin _ f _ => fieldsFit f
  | .vfcmp _ f _ => fieldsFit f
  | .vfabs _ f _ => fieldsFit f
  | .vexp2 _ f _ => fieldsFit f
  | .vlog2 _ f _ => fieldsFit f
  | .vrcp _ f _ => fieldsFit f
  | .vrsq _ f _ => fieldsFit f
  | .vfred _ f _ => fieldsFit f
  | .vbcst _ f _ => fieldsFit f
  | .vext _ f _ => fieldsFit f
  | .vins _ f _ => fieldsFit f
  | .vperm _ f _ => fieldsFit f
  | .viota _ f _ => fieldsFit f
  | .vired _ f _ => fieldsFit f
  | .vcvt _ f _ => fieldsFit f
  | .vrng _ f _ => fieldsFit f
  | .vqnt _ f _ => fieldsFit f
  | .xclr _ f _ => fieldsFit f
  | .xadd _ f _ => fieldsFit f
  | .xrd _ f _ => fieldsFit f
  | .xsum _ f _ => fieldsFit f
  | .xst _ f _ => fieldsFit f
  | .xld _ f _ => fieldsFit f
  | .xacc _ f _ => fieldsFit f
  | .mxw _ f _ => fieldsFit f
  | .mxwf8 _ f _ => fieldsFit f
  | .mxs _ f _ => fieldsFit f
  | .mxr _ f _ => fieldsFit f
  | .mxc _ f _ => fieldsFit f
  | .accrd _ f _ => fieldsFit f
  | .accsat _ f _ => fieldsFit f
  | .accwr _ f _ => fieldsFit f
  | .shq _ f _ => fieldsFit f
  | .shw _ f _ => fieldsFit f
  | .sht _ f _ => fieldsFit f
  | .chsend _ f _ => fieldsFit f
  | .chrecv _ f _ => fieldsFit f
  | .chrel _ f _ => fieldsFit f
  | .chpoll _ f _ => fieldsFit f
  | .energy _ f _ => fieldsFit f
  | .load _ _ => true
  | .loadComplete _ => true
  | .tileIaData _ _ => true
  | .iaPageWrite _ m p _ => decide (m < 16) && decide (p < 8)
  | .iaPageRead _ m p => decide (m < 16) && decide (p < 8)
  | .iaPageDone _ => true
  | .faultRingRelease _ _ => true
  | .portTrain _ _ => true
  | .portOff _ _ => true
  | .portUp _ dev pp => decide (dev < 4096) && decide (pp < 8)
  | .portTrainFail _ => true
  | .portRetrain _ => true
  | .portDown _ => true
  | .peerBolt _ _ _ _ => true
  | .replayTimeout _ => true
  | .timeCheckSend => true
  | .timeCheck _ => true
  | .scoreSend => true
  | .score _ => true
  | .grant _ => true
  | .coordinator => true
  | .event _ => true
  | .memWr _ => true
  | .memRd _ _ => true
  | .wrAck _ => true
  | .rdData _ _ => true
  | .perstN => true
  | .linkUp _ speed width => decide (speed < 16) && decide (width < 32)
  | .linkDown => true
  | .hdmDecoderCommit _ => true
  | .hostMemRead _ _ => true
  | .hostMemWrite _ mask _ _ _ => decide (mask < 18446744073709551616)
  | .biasFlip _ => true
  | .biasFlipDone _ _ => true
  | .hostSnoop _ _ => true
  | .atsInvalidation _ _ => true
  | .mailboxGo => true
  | .mctpControlMessage _ => true
  | .getInfo _ => true
  | .getLedger _ => true
  | .getCert _ => true
  | .getKemKey _ => true
  | .getChallenge _ => true
  | .attest _ => true
  | .warmReset _ _ => true
  | .recoveryWrite _ _ => true
  | .keyEstablish _ _ => true
  | .ownerTransfer _ _ _ => true
  | .setCap _ => true
  | .fwUpdate _ _ _ _ _ => true
  | .farmPower _ => true
  | .debugUnlock _ _ => true
  | .zeroize _ => true
  | .zeroizeDdr4Done _ => true
  | .fuseAdvance _ _ => true
  | .setPolicy _ _ => true
  | .ledgerClear _ => true
  | .pmcControlUpdate _ => true
  | .pmcMeasurement _ => true
  | .pmcOpStep _ => true
  | .pmbusPoll _ => true
  | .tempSample _ => true
  | .thermalTrip _ => true
  | .vrHot => true
  | .snapInEdge _ => true
  | .atGo => true
  | .snapshotNow => true
  | .snapshotLatch => true
  | .snapshotRelease => true
  | .wtSlackClr _ => true
  | .eyeScanGo _ _ => true
  | .eyeScanAbort _ _ => true
  | .eyeScanDone _ _ => true
  | .tapReset => true
  | .extest => true
  | .extestPulse => true
  | .extestTrain => true
  | .clamp => true
  | .highz => true
  | .idcode => true
  | .samplePreload => true
  | .bypass => true
  | .registerWrite _ _ => true
  | .rcRead _ => true
  | .reg64LowRead _ => true
  | .reg64HighWrite _ _ => true
  | .railBackInDcBand _ => true
  | .perstNDeassertion => true
  | .vrHotNHigh => true
  | .snapOutEnd => true
  | .portSlotTransmit _ _ => true
  | .clockRecoveryLock _ => true
  | .reg64HighRead _ => true
  | .reg64LowWrite _ _ => true
  | .snDataRead => true

/-- A well-formed command: its unit exists and its operands fit. -/
def wellFormed (i : Instr) : Bool := unitExists i && operandsFit i

end Sys2Proof
end

