-- ==== Sys2Proof/Decode.lean ====
section
/-! DEFINITION. Words of spec/opcode_table.json. No row of that table gives its command any bits, so no word spells a
command. -/

namespace Sys2Proof

/-- The command that a word of the opcode table spells: none, whatever the word. -/
def decodeTableWord (_nbits _w : Nat) : Option Instr := none

end Sys2Proof
end

