-- ==== Sys2Proof/Config.lean ====
section
/-! DEFINITION. What the spec leaves open: constants with no body, so that nothing can be proved of their values. Each
is named in a log entry under notes/assumptions. -/

namespace Sys2Proof.Config

/-- The k-th free byte of a machine: random bytes and values that the spec does not state, numbered by
`State.freeCtr` (log entry 3). -/
opaque freeByte : Nat → Byte

/-- The k-th free fine part of a time tag (spec/02 R38: the fine counter runs on within a REED cycle; log entry 17). -/
opaque freeFine : Nat → Nat

/-- Bytes of an entry of channel `c` of program `p` that is no slot ring: spec/07 R205 gives depth and address only, and an
entry lies in a tile store (log entry 20). -/
opaque entrySize (p c : Nat) : Fin (2 ^ 19 + 1)
/-- The same as a number. -/
def entryBytes (p c : Nat) : Nat := (entrySize p c).val

/-- The tile-store address of the scale slot ring of slot-ring channel `c` of program `p` (log entry 20). -/
opaque scaleRing (p c : Nat) : Nat

/-- The leakage factor in hundredths of a Loom die none of whose sensors holds a valid reading (spec/16 R447 gives T_d
only for a die with one; log entry 27). -/
opaque leakFactor (die : Nat) : Nat

/-! The signature and key encapsulation algorithms of spec/17 R475 are those of FIPS 203 and FIPS 204, which the spec names
and does not restate (log entry 32). -/

/-- The ML-DSA-44 public key of a seed. -/
opaque mldsaPublic (seed : List Byte) : List Byte
/-- The ML-DSA-44 signature under the key of a seed, with a context string. -/
opaque mldsaSign (seed ctx msg : List Byte) : List Byte
/-- An ML-DSA-44 signature verifies under a public key. -/
opaque mldsaVerify (key ctx msg sig : List Byte) : Bool
/-- The ML-KEM-768 encapsulation key of a seed. -/
opaque mlkemPublic (seed : List Byte) : List Byte
/-- The shared secret that a ML-KEM-768 ciphertext gives under the key of a seed. -/
opaque mlkemDecaps (seed ct : List Byte) : List Byte

/-- The answer to an MCTP control message (DSP0236, which spec/17 R503 names and does not restate; log entry 32). -/
opaque mctpAnswer (msg : List Byte) : List Byte

/-! The header of a firmware image (spec/17 R477): the spec says what it holds and not where (log entry 33). -/

/-- The security version number. -/
opaque fwSvn (img : List Byte) : Nat
/-- The length of the whole image. -/
opaque fwLength (img : List Byte) : Nat
/-- The SHA3-256 of Loom section `d`. -/
opaque fwLoom (img : List Byte) (d : Nat) : List Byte

/-- Word `w` of unit `u` of the snapshot bank of subsystem `k`, as a function of the words that the bank holds (spec/18 R506
lists the content of a bank and not its layout; log entry 34). -/
opaque bankWord (k u w : Nat) (content : List Nat) : Nat

end Sys2Proof.Config
end

