-- ==== Sys2Proof/Machine/Bits.lean ====
section
/-! DEFINITION. Bit fields, sign extension and little-endian byte order (spec/00_scope.md R8). -/

namespace Sys2Proof.Machine

/-- Bits `hi` down to `lo` of a number (R8: bit 0 is the least significant). -/
def fld (w hi lo : Nat) : Nat := w / 2 ^ lo % 2 ^ (hi + 1 - lo)

/-- Bits `hi` down to `lo` of a register. -/
def wfld (w : Word) (hi lo : Nat) : Nat := fld w.toNat hi lo

/-- Bit `n` of a number. -/
def bitN (w n : Nat) : Bool := w / 2 ^ n % 2 == 1

/-- Bit `n` of a register. -/
def wbit (w : Word) (n : Nat) : Bool := bitN w.toNat n

/-- `w` with bits `hi` down to `lo` replaced by the low bits of `v`. -/
def setFldN (w hi lo v : Nat) : Nat :=
  w % 2 ^ lo + (v % 2 ^ (hi + 1 - lo)) * 2 ^ lo + w / 2 ^ (hi + 1) * 2 ^ (hi + 1)

/-- A register with bits `hi` down to `lo` replaced by the low bits of `v`. -/
def setFld (w : Word) (hi lo v : Nat) : Word := BitVec.ofNat 32 (setFldN w.toNat hi lo v)

/-- A register with bit `n` set to `b`. -/
def setBit (w : Word) (n : Nat) (b : Bool) : Word := setFld w n n (if b then 1 else 0)

/-- 1 for true, 0 for false. -/
def b2n (b : Bool) : Nat := if b then 1 else 0

/-- The two's complement value of the low `n` bits of `v` (R8). -/
def sextI (n v : Nat) : Int :=
  if v % 2 ^ n < 2 ^ (n - 1) then (v % 2 ^ n : Nat) else (v % 2 ^ n : Nat) - (2 ^ n : Nat)

/-- The `n` bits that hold an integer in two's complement. -/
def encI (n : Nat) (x : Int) : Nat := (x % (2 ^ n : Nat)).toNat

/-- An integer held within limits. -/
def clampI (lo hi x : Int) : Int := if x < lo then lo else if hi < x then hi else x

/-- A count that saturates at 2^n - 1. -/
def satN (n v : Nat) : Nat := min v (2 ^ n - 1)

/-- The `n` bytes of a number, low byte first (R8). -/
def leBytes : Nat → Nat → List Byte
  | 0, _ => []
  | n + 1, v => BitVec.ofNat 8 v :: leBytes n (v / 256)

/-- The number that bytes form, low byte first (R8). -/
def ofLe : List Byte → Nat
  | [] => 0
  | b :: bs => b.toNat + 256 * ofLe bs

/-- The number that bytes form, high byte first. -/
def ofBe (bs : List Byte) : Nat := ofLe bs.reverse

/-- The `n` bits of a number, bit 0 first. -/
def bitsLsb : Nat → Nat → List Bool
  | 0, _ => []
  | n + 1, v => (v % 2 == 1) :: bitsLsb n (v / 2)

/-- The number that bits form, bit 0 first. -/
def ofBitsLsb : List Bool → Nat
  | [] => 0
  | b :: bs => b2n b + 2 * ofBitsLsb bs

/-- The number of 1 bits among the low `n` bits of `v`. -/
def popcount : Nat → Nat → Nat
  | 0, _ => 0
  | n + 1, v => v % 2 + popcount n (v / 2)

/-- `n` copies of a byte. -/
def zeros (n : Nat) : List Byte := List.replicate n 0#8

/-- A list cut or filled with zero bytes to `n` bytes. -/
def padTo (n : Nat) (bs : List Byte) : List Byte := (bs ++ zeros (n - bs.length)).take n

/-- Bytes `off` to `off + n - 1` of a list; bytes past its end read 0. -/
def slice (bs : List Byte) (off n : Nat) : List Byte := padTo n (bs.drop off)

/-- The little-endian number in `n` bytes from `off`. -/
def leAt (bs : List Byte) (off n : Nat) : Nat := ofLe (slice bs off n)

/-- Division rounding up. -/
def ceilDiv (a b : Nat) : Nat := (a + b - 1) / b

/-- Entry `n` of a list set to `v`; the list unchanged when it is shorter. -/
def setAt {α : Type} (l : List α) (n : Nat) (v : α) : List α := l.set n v

/-- The list cut in pieces of `n`, by fuel. -/
def chunksAux {α : Type} : Nat → Nat → List α → List (List α)
  | 0, _, _ => []
  | fuel + 1, n, l => if l.isEmpty then [] else l.take n :: chunksAux fuel n (l.drop n)

/-- The list cut in pieces of `n`. -/
def chunks {α : Type} (n : Nat) (l : List α) : List (List α) := chunksAux l.length n l

end Sys2Proof.Machine
end

