-- ==== Sys2Proof/Machine/RegMap.lean ====
section
/-! DEFINITION. The registers of BAR0 (spec/00_scope.md R11, R12, R14, R15; spec/01_architecture.md R28, R32): the
address of every documented register, its fields with their access types, and its reset value. The rows are written
from the register tables of the chapters; the chapter and rules of each row stand beside it. -/

namespace Sys2Proof.Machine

/-- The access types of R11. -/
inductive Access where
  | rw | ro | wo | w1c | w1s | rc | rwl
deriving DecidableEq, Repr

/-- One field of a register: bits `hi` down to `lo`, access type, reset value of the field. -/
structure RegField where
  hi : Nat
  lo : Nat
  acc : Access
  reset : Nat
deriving DecidableEq, Repr

/-- One documented register or array of registers. `dims` lists (count, stride) of each index; `w64` says that the
register takes two offsets (R14); the high half then has the access type of the low half and reset value 0. -/
structure RegRow where
  base : Nat
  dims : List (Nat × Nat)
  w64 : Bool
  fields : List RegField
deriving DecidableEq, Repr

/-! ### Addresses: absolute offsets in BAR0 (R28) -/

/-- TB_CTRL (spec/02_timebase_and_clocks.md R39-R41). -/
abbrev rTbCtrl : Nat := 0x100000
/-- TB_STATUS (spec/02_timebase_and_clocks.md R36,R40). -/
abbrev rTbStatus : Nat := 0x100004
/-- TB_TICK_CFG (spec/02_timebase_and_clocks.md R35). -/
abbrev rTbTickCfg : Nat := 0x100008
/-- TB_FRAME_CFG (spec/02_timebase_and_clocks.md R43). -/
abbrev rTbFrameCfg : Nat := 0x10000C
/-- TB_SELVAGE (spec/02_timebase_and_clocks.md R45). -/
abbrev rTbSelvage : Nat := 0x100010
/-- TB_DROOP_CFG (spec/02_timebase_and_clocks.md R46). -/
abbrev rTbDroopCfg : Nat := 0x100014
/-- TB_HOLDOVER (spec/02_timebase_and_clocks.md R53). -/
abbrev rTbHoldover : Nat := 0x100018
/-- TB_TIME (spec/02_timebase_and_clocks.md R38). -/
abbrev rTbTime : Nat := 0x100020
/-- TB_FAULT_TAG (spec/02_timebase_and_clocks.md R61). -/
abbrev rTbFaultTag : Nat := 0x100028
/-- TB_OVERRUN_CNT (spec/02_timebase_and_clocks.md R48). -/
abbrev rTbOverrunCnt : Nat := 0x100030
/-- TB_STRETCH_MAX (spec/02_timebase_and_clocks.md R48). -/
abbrev rTbStretchMax : Nat := 0x100034
/-- TB_PRERUN_CNT (spec/02_timebase_and_clocks.md R57). -/
abbrev rTbPrerunCnt : Nat := 0x100038
/-- TB_FAULT (spec/02_timebase_and_clocks.md R62). -/
abbrev rTbFault : Nat := 0x100040
/-- TB_WEFT_OP (spec/02_timebase_and_clocks.md R49,R51). -/
abbrev rTbWeftOp : Nat := 0x100044
/-- TB_WEFT_STRETCH_PS (spec/02_timebase_and_clocks.md R50). -/
abbrev rTbWeftStretchPs : Nat := 0x100048
/-- TB_SKEW_TRIG_IN (spec/02_timebase_and_clocks.md R55). -/
abbrev rTbSkewTrigIn (i : Nat) : Nat := 0x100100 + 0x4 * i
/-- TB_SKEW_SNAP_IN (spec/02_timebase_and_clocks.md R55). -/
abbrev rTbSkewSnapIn : Nat := 0x100140
/-- BM_GROUP_CFG (spec/03_beam_ingress_and_line_code.md R63). -/
abbrev rBmGroupCfg (i : Nat) : Nat := 0x200000 + 0x4 * i
/-- BM_FAULT (spec/03_beam_ingress_and_line_code.md R84). -/
abbrev rBmFault : Nat := 0x200040
/-- BM_FAULT_TAG (spec/03_beam_ingress_and_line_code.md R84). -/
abbrev rBmFaultTag : Nat := 0x200048
/-- BM_LANE_CFG (spec/03_beam_ingress_and_line_code.md R64,R65). -/
abbrev rBmLaneCfg (i : Nat) : Nat := 0x201000 + 0x40 * i
/-- BM_LANE_STATUS (spec/03_beam_ingress_and_line_code.md R79,R87). -/
abbrev rBmLaneStatus (i : Nat) : Nat := 0x201004 + 0x40 * i
/-- BM_LANE_DMEAS (spec/03_beam_ingress_and_line_code.md R78). -/
abbrev rBmLaneDmeas (i : Nat) : Nat := 0x201008 + 0x40 * i
/-- BM_LANE_CORR (spec/03_beam_ingress_and_line_code.md R87). -/
abbrev rBmLaneCorr (i : Nat) : Nat := 0x20100C + 0x40 * i
/-- BM_LANE_UNCORR (spec/03_beam_ingress_and_line_code.md R71). -/
abbrev rBmLaneUncorr (i : Nat) : Nat := 0x201010 + 0x40 * i
/-- BM_LANE_VIOL (spec/03_beam_ingress_and_line_code.md R84). -/
abbrev rBmLaneViol (i : Nat) : Nat := 0x201014 + 0x40 * i
/-- BM_STREAM_CFG (spec/03_beam_ingress_and_line_code.md R65,R83,R88). -/
abbrev rBmStreamCfg (i : Nat) : Nat := 0x203000 + 0x40 * i
/-- BM_STREAM_RDPT (spec/03_beam_ingress_and_line_code.md R79). -/
abbrev rBmStreamRdpt (i : Nat) : Nat := 0x203004 + 0x40 * i
/-- BM_STREAM_DELIV (spec/03_beam_ingress_and_line_code.md R80). -/
abbrev rBmStreamDeliv (i : Nat) : Nat := 0x203008 + 0x40 * i
/-- BM_STREAM_DAMAGED (spec/03_beam_ingress_and_line_code.md R83). -/
abbrev rBmStreamDamaged (i : Nat) : Nat := 0x20300C + 0x40 * i
/-- BM_STREAM_STATDROP (spec/03_beam_ingress_and_line_code.md R91). -/
abbrev rBmStreamStatdrop (i : Nat) : Nat := 0x203010 + 0x40 * i
/-- BM_SKEW (spec/03_beam_ingress_and_line_code.md R55). -/
abbrev rBmSkew (i j : Nat) : Nat := 0x204000 + 0x100 * i + 0x4 * j
/-- WP_CFG (spec/06_warp_plane.md R152,R153). -/
abbrev rWpCfg : Nat := 0x300000
/-- WP_LAT (spec/06_warp_plane.md R154). -/
abbrev rWpLat : Nat := 0x300004
/-- WP_STATUS (spec/06_warp_plane.md R152). -/
abbrev rWpStatus : Nat := 0x300008
/-- WP_FAULT (spec/06_warp_plane.md R183). -/
abbrev rWpFault : Nat := 0x300040
/-- WP_FAULT_TAG (spec/06_warp_plane.md R180). -/
abbrev rWpFaultTag : Nat := 0x300048
/-- WP_MARKED_CNT (spec/06_warp_plane.md R181). -/
abbrev rWpMarkedCnt : Nat := 0x300050
/-- WP_FIRST_REC (spec/06_warp_plane.md R180). -/
abbrev rWpFirstRec (i : Nat) : Nat := 0x300100 + 0x4 * i
/-- WF_CTRL (spec/09_weft_execution_and_sequences.md R258). -/
abbrev rWfCtrl : Nat := 0x400000
/-- WF_STATUS (spec/09_weft_execution_and_sequences.md R251). -/
abbrev rWfStatus : Nat := 0x400004
/-- WF_AGE_LIMIT (spec/09_weft_execution_and_sequences.md R259). -/
abbrev rWfAgeLimit : Nat := 0x400008
/-- WF_GRANTED (spec/09_weft_execution_and_sequences.md R258). -/
abbrev rWfGranted : Nat := 0x40000C
/-- WF_BUDGET (spec/09_weft_execution_and_sequences.md R457). -/
abbrev rWfBudget : Nat := 0x400010
/-- WF_FAULT (spec/09_weft_execution_and_sequences.md R280). -/
abbrev rWfFault : Nat := 0x400040
/-- WF_FAULT_TAG (spec/09_weft_execution_and_sequences.md R280). -/
abbrev rWfFaultTag : Nat := 0x400048
/-- WF_ECLASS (spec/09_weft_execution_and_sequences.md R257). Note: writes ignored while a job runs. -/
abbrev rWfEclass (i : Nat) : Nat := 0x400080 + 0x4 * i
/-- WF_Q_CFG (spec/09_weft_execution_and_sequences.md R255,R265,R272). -/
abbrev rWfQCfg (i : Nat) : Nat := 0x401000 + 0x80 * i
/-- WF_Q_CTRL (spec/09_weft_execution_and_sequences.md R265,R266). -/
abbrev rWfQCtrl (i : Nat) : Nat := 0x401004 + 0x80 * i
/-- WF_Q_STATUS (spec/09_weft_execution_and_sequences.md R264,R265). -/
abbrev rWfQStatus (i : Nat) : Nat := 0x401008 + 0x80 * i
/-- WF_Q_DONE (spec/09_weft_execution_and_sequences.md R264). -/
abbrev rWfQDone (i : Nat) : Nat := 0x40100C + 0x80 * i
/-- WF_SQ_BASE (spec/09_weft_execution_and_sequences.md R252). -/
abbrev rWfSqBase (i : Nat) : Nat := 0x401010 + 0x80 * i
/-- WF_SQ_PROD (spec/09_weft_execution_and_sequences.md R252). -/
abbrev rWfSqProd (i : Nat) : Nat := 0x401018 + 0x80 * i
/-- WF_SQ_CONS (spec/09_weft_execution_and_sequences.md R252). -/
abbrev rWfSqCons (i : Nat) : Nat := 0x40101C + 0x80 * i
/-- WF_CQ_BASE (spec/09_weft_execution_and_sequences.md R264). -/
abbrev rWfCqBase (i : Nat) : Nat := 0x401020 + 0x80 * i
/-- WF_CQ_PROD (spec/09_weft_execution_and_sequences.md R264). -/
abbrev rWfCqProd (i : Nat) : Nat := 0x401028 + 0x80 * i
/-- WF_CQ_CONS (spec/09_weft_execution_and_sequences.md R264). -/
abbrev rWfCqCons (i : Nat) : Nat := 0x40102C + 0x80 * i
/-- WF_POS (spec/09_weft_execution_and_sequences.md R274). -/
abbrev rWfPos (i : Nat) : Nat := 0x401030 + 0x80 * i
/-- WF_Q_AUTODROP (spec/09_weft_execution_and_sequences.md R256). -/
abbrev rWfQAutodrop (i : Nat) : Nat := 0x401034 + 0x80 * i
/-- WF_AUTO_JOBID (spec/09_weft_execution_and_sequences.md R255). -/
abbrev rWfAutoJobid (i : Nat) : Nat := 0x401038 + 0x80 * i
/-- WF_AUTO_TPL (spec/09_weft_execution_and_sequences.md R255). -/
abbrev rWfAutoTpl (i j : Nat) : Nat := 0x401040 + 0x80 * i + 0x4 * j
/-- RD_STATUS (spec/07_reed_network.md R186,R210). -/
abbrev rRdStatus : Nat := 0x500004
/-- RD_FAULT (spec/07_reed_network.md R209). -/
abbrev rRdFault : Nat := 0x500040
/-- RD_FAULT_TAG (spec/07_reed_network.md R209). -/
abbrev rRdFaultTag : Nat := 0x500048
/-- RD_ECC_CNT (spec/07_reed_network.md R208). -/
abbrev rRdEccCnt : Nat := 0x500050
/-- RD_DROP_CNT (spec/07_reed_network.md R191). -/
abbrev rRdDropCnt : Nat := 0x500054
/-- RD_C1_MAXLAT (spec/07_reed_network.md R203). -/
abbrev rRdC1Maxlat : Nat := 0x500058
/-- RD_IA_SEL (spec/07_reed_network.md R188). -/
abbrev rRdIaSel : Nat := 0x500100
/-- RD_IA_DATA (spec/07_reed_network.md R188). Note: window on the selected table entry. -/
abbrev rRdIaData : Nat := 0x500108
/-- RD_CNT_SEL (spec/07_reed_network.md R200). -/
abbrev rRdCntSel : Nat := 0x500110
/-- RD_CNT (spec/07_reed_network.md R200). -/
abbrev rRdCnt : Nat := 0x500114
/-- TR_FAULT (spec/11_treadle_trigger.md R329). -/
abbrev rTrFault : Nat := 0x600040
/-- TR_FAULT_TAG (spec/11_treadle_trigger.md R329). -/
abbrev rTrFaultTag : Nat := 0x600048
/-- TR_IRQ_STATUS (spec/11_treadle_trigger.md R314). -/
abbrev rTrIrqStatus : Nat := 0x600050
/-- TR_IRQ_EN (spec/11_treadle_trigger.md R437). -/
abbrev rTrIrqEn : Nat := 0x600054
/-- TR_HMIN (spec/11_treadle_trigger.md R309). -/
abbrev rTrHmin : Nat := 0x600058
/-- TR_TRIGIN_CFG (spec/11_treadle_trigger.md R307). -/
abbrev rTrTriginCfg (i : Nat) : Nat := 0x600100 + 0x10 * i
/-- TR_TRIGIN_CNT (spec/11_treadle_trigger.md R307). -/
abbrev rTrTriginCnt (i : Nat) : Nat := 0x600104 + 0x10 * i
/-- TR_TRIGIN_DROP (spec/11_treadle_trigger.md R307,R310). -/
abbrev rTrTriginDrop (i : Nat) : Nat := 0x600108 + 0x10 * i
/-- TR_TRIGOUT_CFG (spec/11_treadle_trigger.md R323). -/
abbrev rTrTrigoutCfg (i : Nat) : Nat := 0x600200 + 0x4 * i
/-- TR_IA_SEL (spec/11_treadle_trigger.md R312-R314). -/
abbrev rTrIaSel : Nat := 0x600300
/-- TR_IA_DATA (spec/11_treadle_trigger.md R313). Note: window on the selected table word. -/
abbrev rTrIaData : Nat := 0x600308
/-- TR_STREAM_CFG (spec/11_treadle_trigger.md R324,R326). -/
abbrev rTrStreamCfg (i : Nat) : Nat := 0x601000 + 0x100 * i
/-- TR_AUTO (spec/11_treadle_trigger.md R320). -/
abbrev rTrAuto (i : Nat) : Nat := 0x601004 + 0x100 * i
/-- TR_FORCE (spec/11_treadle_trigger.md R321). -/
abbrev rTrForce (i : Nat) : Nat := 0x601008 + 0x100 * i
/-- TR_EVAL (spec/11_treadle_trigger.md R300). -/
abbrev rTrEval (i : Nat) : Nat := 0x60100C + 0x100 * i
/-- TR_DLAT (spec/11_treadle_trigger.md R300). -/
abbrev rTrDlat (i : Nat) : Nat := 0x601010 + 0x100 * i
/-- TR_REC_BASE (spec/11_treadle_trigger.md R326). -/
abbrev rTrRecBase (i : Nat) : Nat := 0x601018 + 0x100 * i
/-- TR_REC_PROD (spec/11_treadle_trigger.md R326). -/
abbrev rTrRecProd (i : Nat) : Nat := 0x601020 + 0x100 * i
/-- TR_REC_CONS (spec/11_treadle_trigger.md R326). -/
abbrev rTrRecCons (i : Nat) : Nat := 0x601024 + 0x100 * i
/-- TR_SCORE_FMT (spec/11_treadle_trigger.md R304). -/
abbrev rTrScoreFmt (i : Nat) : Nat := 0x601028 + 0x100 * i
/-- TR_GATE (spec/11_treadle_trigger.md R319). -/
abbrev rTrGate (i : Nat) : Nat := 0x60102C + 0x100 * i
/-- TR_ACCEPT_CNT (spec/11_treadle_trigger.md R322). -/
abbrev rTrAcceptCnt (i : Nat) : Nat := 0x601030 + 0x100 * i
/-- TR_FORCED_CNT (spec/11_treadle_trigger.md R322). -/
abbrev rTrForcedCnt (i : Nat) : Nat := 0x601034 + 0x100 * i
/-- TR_LOST_CNT (spec/11_treadle_trigger.md R327). -/
abbrev rTrLostCnt (i : Nat) : Nat := 0x601038 + 0x100 * i
/-- TR_RECDROP_CNT (spec/11_treadle_trigger.md R328). -/
abbrev rTrRecdropCnt (i : Nat) : Nat := 0x60103C + 0x100 * i
/-- TR_MSTATE (spec/11_treadle_trigger.md R311). -/
abbrev rTrMstate (i j : Nat) : Nat := 0x601040 + 0x100 * i + 0x4 * j
/-- TR_CMP (spec/11_treadle_trigger.md R305). -/
abbrev rTrCmp (i j : Nat) : Nat := 0x601080 + 0x100 * i + 0x4 * j
/-- TR_THR (spec/11_treadle_trigger.md R305). -/
abbrev rTrThr (i j : Nat) : Nat := 0x6010C0 + 0x100 * i + 0x4 * j
/-- TR_WIN_SRC (spec/11_treadle_trigger.md R306). -/
abbrev rTrWinSrc (i j : Nat) : Nat := 0x603000 + 0x100 * i + 0x10 * j
/-- TR_WIN_OPEN (spec/11_treadle_trigger.md R306). -/
abbrev rTrWinOpen (i j : Nat) : Nat := 0x603004 + 0x100 * i + 0x10 * j
/-- TR_WIN_CLOSE (spec/11_treadle_trigger.md R306). -/
abbrev rTrWinClose (i j : Nat) : Nat := 0x603008 + 0x100 * i + 0x10 * j
/-- BB_MEM_STATUS (spec/12_bobbin_memory_and_capture.md R334). -/
abbrev rBbMemStatus : Nat := 0x700000
/-- BB_DPA_SIZE (spec/12_bobbin_memory_and_capture.md R335). -/
abbrev rBbDpaSize : Nat := 0x700008
/-- BB_SCRUB_CFG (spec/12_bobbin_memory_and_capture.md R338). -/
abbrev rBbScrubCfg : Nat := 0x700010
/-- BB_RUNID (spec/12_bobbin_memory_and_capture.md R350). -/
abbrev rBbRunid : Nat := 0x700014
/-- BB_REFUSED_CNT (spec/12_bobbin_memory_and_capture.md R343). -/
abbrev rBbRefusedCnt : Nat := 0x700018
/-- BB_FAULT (spec/12_bobbin_memory_and_capture.md R358). -/
abbrev rBbFault : Nat := 0x700040
/-- BB_FAULT_DETAIL (spec/12_bobbin_memory_and_capture.md R353). -/
abbrev rBbFaultDetail : Nat := 0x700044
/-- BB_FAULT_TAG (spec/12_bobbin_memory_and_capture.md R358). -/
abbrev rBbFaultTag : Nat := 0x700048
/-- BB_CH_STATUS (spec/12_bobbin_memory_and_capture.md R333,R337). -/
abbrev rBbChStatus (i : Nat) : Nat := 0x700100 + 0x20 * i
/-- BB_CH_CE (spec/12_bobbin_memory_and_capture.md R337). -/
abbrev rBbChCe (i : Nat) : Nat := 0x700104 + 0x20 * i
/-- BB_CH_UE (spec/12_bobbin_memory_and_capture.md R337). -/
abbrev rBbChUe (i : Nat) : Nat := 0x700108 + 0x20 * i
/-- BB_CH_TEMP (spec/12_bobbin_memory_and_capture.md R339). -/
abbrev rBbChTemp (i : Nat) : Nat := 0x70010C + 0x20 * i
/-- BB_CH_ERRADDR (spec/12_bobbin_memory_and_capture.md R337). -/
abbrev rBbChErraddr (i : Nat) : Nat := 0x700110 + 0x20 * i
/-- BB_RG_BASE (spec/12_bobbin_memory_and_capture.md R340). -/
abbrev rBbRgBase (i : Nat) : Nat := 0x701000 + 0x20 * i
/-- BB_RG_SIZE (spec/12_bobbin_memory_and_capture.md R340). -/
abbrev rBbRgSize (i : Nat) : Nat := 0x701008 + 0x20 * i
/-- BB_RG_CTRL (spec/12_bobbin_memory_and_capture.md R340,R341). -/
abbrev rBbRgCtrl (i : Nat) : Nat := 0x701010 + 0x20 * i
/-- BB_ST_CFG (spec/12_bobbin_memory_and_capture.md R347,R357). -/
abbrev rBbStCfg (i : Nat) : Nat := 0x702000 + 0x80 * i
/-- BB_ST_RSV (spec/12_bobbin_memory_and_capture.md R352). -/
abbrev rBbStRsv (i : Nat) : Nat := 0x702004 + 0x80 * i
/-- BB_ST_KEY (spec/12_bobbin_memory_and_capture.md R349). -/
abbrev rBbStKey (i : Nat) : Nat := 0x702008 + 0x80 * i
/-- BB_ST_CTRL (spec/12_bobbin_memory_and_capture.md R356). -/
abbrev rBbStCtrl (i : Nat) : Nat := 0x70200C + 0x80 * i
/-- BB_ST_STATUS (spec/12_bobbin_memory_and_capture.md R355). -/
abbrev rBbStStatus (i : Nat) : Nat := 0x702010 + 0x80 * i
/-- BB_ST_DRAIN (spec/12_bobbin_memory_and_capture.md R352). -/
abbrev rBbStDrain (i : Nat) : Nat := 0x702014 + 0x80 * i
/-- BB_BOB_WPTR (spec/12_bobbin_memory_and_capture.md R351). -/
abbrev rBbBobWptr (i : Nat) : Nat := 0x702018 + 0x80 * i
/-- BB_BOB_RPTR (spec/12_bobbin_memory_and_capture.md R351). -/
abbrev rBbBobRptr (i : Nat) : Nat := 0x702020 + 0x80 * i
/-- BB_ST_CAPTURED (spec/12_bobbin_memory_and_capture.md R349). -/
abbrev rBbStCaptured (i : Nat) : Nat := 0x702028 + 0x80 * i
/-- BB_ST_LOSTCAP (spec/12_bobbin_memory_and_capture.md R355). -/
abbrev rBbStLostcap (i : Nat) : Nat := 0x70202C + 0x80 * i
/-- BB_ST_OVF (spec/12_bobbin_memory_and_capture.md R355). -/
abbrev rBbStOvf (i : Nat) : Nat := 0x702030 + 0x80 * i
/-- BB_ST_FILLMAX (spec/12_bobbin_memory_and_capture.md R352). -/
abbrev rBbStFillmax (i : Nat) : Nat := 0x702034 + 0x80 * i
/-- BB_MAP_SEL (spec/12_bobbin_memory_and_capture.md R347). -/
abbrev rBbMapSel : Nat := 0x703000
/-- BB_MAP_DATA (spec/12_bobbin_memory_and_capture.md R347). Note: window on the selected channel map entry. -/
abbrev rBbMapData : Nat := 0x703008
/-- KP_ID (spec/17_keep_security_and_boot.md R505). -/
abbrev rKpId : Nat := 0x0
/-- KP_UID (spec/17_keep_security_and_boot.md R475). -/
abbrev rKpUid : Nat := 0x8
/-- KP_BOOT_STATUS (spec/17_keep_security_and_boot.md R479). -/
abbrev rKpBootStatus : Nat := 0x10
/-- KP_BOOT_INFO (spec/17_keep_security_and_boot.md R482). -/
abbrev rKpBootInfo : Nat := 0x14
/-- KP_DEBUG (spec/17_keep_security_and_boot.md R500). -/
abbrev rKpDebug : Nat := 0x18
/-- KP_AUTH_FAIL (spec/17_keep_security_and_boot.md R494). -/
abbrev rKpAuthFail : Nat := 0x1C
/-- KP_CMD_CTR (spec/17_keep_security_and_boot.md R491). -/
abbrev rKpCmdCtr : Nat := 0x20
/-- KP_EVENT (spec/17_keep_security_and_boot.md R505). -/
abbrev rKpEvent : Nat := 0x30
/-- KP_EVENT_EN (spec/17_keep_security_and_boot.md R505). -/
abbrev rKpEventEn : Nat := 0x34
/-- KP_FAULT (spec/17_keep_security_and_boot.md R504). -/
abbrev rKpFault : Nat := 0x40
/-- KP_FAULT_TAG (spec/17_keep_security_and_boot.md R504). -/
abbrev rKpFaultTag : Nat := 0x48
/-- KP_STEP (spec/17_keep_security_and_boot.md R482). -/
abbrev rKpStep (i : Nat) : Nat := 0x100 + 0x8 * i
/-- LD_STATUS (spec/10_compiler_contract.md R294,R297). -/
abbrev rLdStatus : Nat := 0x8000
/-- LD_INFO (spec/10_compiler_contract.md R299). -/
abbrev rLdInfo : Nat := 0x8004
/-- LD_ERRLOC (spec/10_compiler_contract.md R297). -/
abbrev rLdErrloc : Nat := 0x8008
/-- LD_ERRDETAIL (spec/10_compiler_contract.md R297). -/
abbrev rLdErrdetail : Nat := 0x800C
/-- LD_FRAME (spec/10_compiler_contract.md R293). -/
abbrev rLdFrame : Nat := 0x8010
/-- LD_WARP_PW (spec/10_compiler_contract.md R291). -/
abbrev rLdWarpPw : Nat := 0x8014
/-- LD_PROG_DIGEST (spec/10_compiler_contract.md R294). -/
abbrev rLdProgDigest (i : Nat) : Nat := 0x8020 + 0x4 * i
/-- LD_WEIGHT_DIGEST (spec/10_compiler_contract.md R294). -/
abbrev rLdWeightDigest (i : Nat) : Nat := 0x8040 + 0x4 * i
/-- PV_STATUS (spec/13_determinism_and_interactions.md R373). -/
abbrev rPvStatus : Nat := 0x8100
/-- PV_RING_BASE (spec/13_determinism_and_interactions.md R373). -/
abbrev rPvRingBase (i : Nat) : Nat := 0x8200 + 0x20 * i
/-- PV_RING_CFG (spec/13_determinism_and_interactions.md R373). -/
abbrev rPvRingCfg (i : Nat) : Nat := 0x8208 + 0x20 * i
/-- PV_PROD (spec/13_determinism_and_interactions.md R373). -/
abbrev rPvProd (i : Nat) : Nat := 0x820C + 0x20 * i
/-- PV_CONS (spec/13_determinism_and_interactions.md R373). -/
abbrev rPvCons (i : Nat) : Nat := 0x8210 + 0x20 * i
/-- PV_DELIV (spec/13_determinism_and_interactions.md R369). -/
abbrev rPvDeliv (i : Nat) : Nat := 0x8214 + 0x20 * i
/-- PV_LINK (spec/13_determinism_and_interactions.md R370). -/
abbrev rPvLink (i j : Nat) : Nat := 0x8400 + 0x20 * i + 0x4 * j
/-- SN_CTRL (spec/18_observability_and_test.md R508,R510). -/
abbrev rSnCtrl : Nat := 0x9000
/-- SN_CFG (spec/18_observability_and_test.md R508). -/
abbrev rSnCfg : Nat := 0x9004
/-- SN_STATUS (spec/18_observability_and_test.md R509). -/
abbrev rSnStatus : Nat := 0x9008
/-- SN_AT (spec/18_observability_and_test.md R508). -/
abbrev rSnAt : Nat := 0x9010
/-- SN_TAG (spec/18_observability_and_test.md R510). -/
abbrev rSnTag : Nat := 0x9018
/-- SN_MISSED (spec/18_observability_and_test.md R509). -/
abbrev rSnMissed : Nat := 0x9020
/-- SN_SEL (spec/18_observability_and_test.md R511). -/
abbrev rSnSel : Nat := 0x9030
/-- SN_DATA (spec/18_observability_and_test.md R511). -/
abbrev rSnData : Nat := 0x9034
/-- SN_TS_ADDR (spec/18_observability_and_test.md R506). -/
abbrev rSnTsAddr : Nat := 0x9038
/-- OB_FAULT (spec/18_observability_and_test.md R524). -/
abbrev rObFault : Nat := 0x9100
/-- OB_FAULT_TAG (spec/18_observability_and_test.md R524). -/
abbrev rObFaultTag : Nat := 0x9108
/-- OB_LOG_HEAD (spec/18_observability_and_test.md R518). Note: EMPTY reads 1 while the log is empty (log entry 63). -/
abbrev rObLogHead : Nat := 0x9200
/-- OB_LOG_SEL (spec/18_observability_and_test.md R518). -/
abbrev rObLogSel : Nat := 0x9204
/-- OB_LOG_DATA (spec/18_observability_and_test.md R518). Note: computed from the log. -/
abbrev rObLogData (i : Nat) : Nat := 0x9210 + 0x4 * i
/-- OB_LOG_OVW (spec/18_observability_and_test.md R519). -/
abbrev rObLogOvw : Nat := 0x9220
/-- OB_QSTALL (spec/18_observability_and_test.md R514). -/
abbrev rObQstall (i j : Nat) : Nat := 0x9400 + 0x20 * i + 0x4 * j
/-- EY_CTRL (spec/18_observability_and_test.md R515,R516). -/
abbrev rEyCtrl (i : Nat) : Nat := 0xA000 + 0x10 * i
/-- EY_STATUS (spec/18_observability_and_test.md R516). -/
abbrev rEyStatus (i : Nat) : Nat := 0xA004 + 0x10 * i
/-- EY_BITS (spec/18_observability_and_test.md R515). -/
abbrev rEyBits (i : Nat) : Nat := 0xA008 + 0x10 * i
/-- EY_ERRS (spec/18_observability_and_test.md R515). -/
abbrev rEyErrs (i : Nat) : Nat := 0xA00C + 0x10 * i
/-- EY_BASE (spec/18_observability_and_test.md R517). -/
abbrev rEyBase (i : Nat) : Nat := 0xB000 + 0x4 * i
/-- KW_DEVID (spec/14_kwengo_peer_links.md R385). Note: writes ignored unless every port is OFF. -/
abbrev rKwDevid : Nat := 0x800000
/-- KW_TREE_CFG (spec/14_kwengo_peer_links.md R401). -/
abbrev rKwTreeCfg : Nat := 0x800004
/-- KW_FARM_CFG (spec/14_kwengo_peer_links.md R402,R399). -/
abbrev rKwFarmCfg : Nat := 0x800008
/-- KW_FARM_FLOOR (spec/14_kwengo_peer_links.md R402). -/
abbrev rKwFarmFloor : Nat := 0x80000C
/-- KW_FARM_CEIL (spec/14_kwengo_peer_links.md R402). -/
abbrev rKwFarmCeil : Nat := 0x800010
/-- KW_FARM_EPOCH (spec/14_kwengo_peer_links.md R403). -/
abbrev rKwFarmEpoch : Nat := 0x800014
/-- KW_SCORE (spec/14_kwengo_peer_links.md R402). -/
abbrev rKwScore : Nat := 0x800018
/-- KW_TC_LIMIT (spec/14_kwengo_peer_links.md R400). -/
abbrev rKwTcLimit : Nat := 0x80001C
/-- KW_FAULT (spec/14_kwengo_peer_links.md R406). -/
abbrev rKwFault : Nat := 0x800040
/-- KW_FAULT_DETAIL (spec/14_kwengo_peer_links.md R406). -/
abbrev rKwFaultDetail : Nat := 0x800044
/-- KW_FAULT_TAG (spec/14_kwengo_peer_links.md R406). -/
abbrev rKwFaultTag : Nat := 0x800048
/-- KW_PORT_CFG (spec/14_kwengo_peer_links.md R380,R385,R387). -/
abbrev rKwPortCfg (i : Nat) : Nat := 0x801000 + 0x80 * i
/-- KW_PORT_STATUS (spec/14_kwengo_peer_links.md R385,R400). -/
abbrev rKwPortStatus (i : Nat) : Nat := 0x801004 + 0x80 * i
/-- KW_PORT_PARTNER (spec/14_kwengo_peer_links.md R385). -/
abbrev rKwPortPartner (i : Nat) : Nat := 0x801008 + 0x80 * i
/-- KW_PORT_REJ (spec/14_kwengo_peer_links.md R386). -/
abbrev rKwPortRej (i : Nat) : Nat := 0x80100C + 0x80 * i
/-- KW_PORT_REPLAY (spec/14_kwengo_peer_links.md R387). -/
abbrev rKwPortReplay (i : Nat) : Nat := 0x801010 + 0x80 * i
/-- KW_PORT_SKEW (spec/14_kwengo_peer_links.md R399). -/
abbrev rKwPortSkew (i : Nat) : Nat := 0x801014 + 0x80 * i
/-- KW_TC_OFS2 (spec/14_kwengo_peer_links.md R400). -/
abbrev rKwTcOfs2 (i : Nat) : Nat := 0x801018 + 0x80 * i
/-- KW_TC_DLY2 (spec/14_kwengo_peer_links.md R400). -/
abbrev rKwTcDly2 (i : Nat) : Nat := 0x80101C + 0x80 * i
/-- KW_EV_BASE (spec/14_kwengo_peer_links.md R398). -/
abbrev rKwEvBase (i : Nat) : Nat := 0x801020 + 0x80 * i
/-- KW_EV_CFG (spec/14_kwengo_peer_links.md R398). -/
abbrev rKwEvCfg (i : Nat) : Nat := 0x801028 + 0x80 * i
/-- KW_EV_PROD (spec/14_kwengo_peer_links.md R398). -/
abbrev rKwEvProd (i : Nat) : Nat := 0x80102C + 0x80 * i
/-- KW_EV_CONS (spec/14_kwengo_peer_links.md R398). -/
abbrev rKwEvCons (i : Nat) : Nat := 0x801030 + 0x80 * i
/-- KW_EV_DROP (spec/14_kwengo_peer_links.md R398). -/
abbrev rKwEvDrop (i : Nat) : Nat := 0x801034 + 0x80 * i
/-- KW_FWD_DROP (spec/14_kwengo_peer_links.md R397). -/
abbrev rKwFwdDrop (i : Nat) : Nat := 0x801038 + 0x80 * i
/-- KW_FWD (spec/14_kwengo_peer_links.md R397). -/
abbrev rKwFwd (i : Nat) : Nat := 0x803000 + 0x4 * i
/-- CX_LINK_STATUS (spec/15_cxl_host_interface.md R411). -/
abbrev rCxLinkStatus : Nat := 0x910000
/-- CX_MEM_STATUS (spec/15_cxl_host_interface.md R420,R421). -/
abbrev rCxMemStatus : Nat := 0x910004
/-- CX_FAULT (spec/15_cxl_host_interface.md R441). -/
abbrev rCxFault : Nat := 0x910040
/-- CX_FAULT_TAG (spec/15_cxl_host_interface.md R441). -/
abbrev rCxFaultTag : Nat := 0x910048
/-- CX_EARLY_CNT (spec/15_cxl_host_interface.md R422). -/
abbrev rCxEarlyCnt : Nat := 0x910050
/-- CX_POISON_CNT (spec/15_cxl_host_interface.md R431). -/
abbrev rCxPoisonCnt : Nat := 0x910054
/-- CX_FLIP_CNT (spec/15_cxl_host_interface.md R426). -/
abbrev rCxFlipCnt : Nat := 0x910058
/-- CX_HDM_QOS (spec/15_cxl_host_interface.md R419). -/
abbrev rCxHdmQos : Nat := 0x910060
/-- CX_BIAS_BASE (spec/15_cxl_host_interface.md R427). -/
abbrev rCxBiasBase : Nat := 0x910080
/-- CX_BIAS_COUNT (spec/15_cxl_host_interface.md R427). -/
abbrev rCxBiasCount : Nat := 0x910088
/-- CX_BIAS_CTRL (spec/15_cxl_host_interface.md R427). -/
abbrev rCxBiasCtrl : Nat := 0x91008C
/-- CX_BIAS_STATUS (spec/15_cxl_host_interface.md R427). -/
abbrev rCxBiasStatus : Nat := 0x910090
/-- MSIX_TABLE (spec/15_cxl_host_interface.md R413). -/
abbrev rMsixTable (i : Nat) : Nat := 0x980000 + 0x4 * i
/-- MSIX_PBA (spec/15_cxl_host_interface.md R413). -/
abbrev rMsixPba (i : Nat) : Nat := 0x988000 + 0x4 * i
/-- PM_STATUS (spec/16_power_and_thermal.md R453,R460,R464). -/
abbrev rPmStatus : Nat := 0xA00000
/-- PM_AVS_CFG (spec/16_power_and_thermal.md R444). -/
abbrev rPmAvsCfg : Nat := 0xA00004
/-- PM_AVS_RESULT (spec/16_power_and_thermal.md R444). -/
abbrev rPmAvsResult : Nat := 0xA00008
/-- PM_CAP (spec/16_power_and_thermal.md R451). -/
abbrev rPmCap : Nat := 0xA00010
/-- PM_CAP_CFG (spec/16_power_and_thermal.md R451). -/
abbrev rPmCapCfg : Nat := 0xA00014
/-- PM_FLOOR (spec/16_power_and_thermal.md R452). -/
abbrev rPmFloor : Nat := 0xA00018
/-- PM_CAP_EFF (spec/16_power_and_thermal.md R453). -/
abbrev rPmCapEff : Nat := 0xA0001C
/-- PM_BASE (spec/16_power_and_thermal.md R452). -/
abbrev rPmBase : Nat := 0xA00020
/-- PM_OP_LIMIT (spec/16_power_and_thermal.md R445). -/
abbrev rPmOpLimit : Nat := 0xA00024
/-- PM_BUBBLE (spec/16_power_and_thermal.md R456). -/
abbrev rPmBubble : Nat := 0xA00028
/-- PM_OP (spec/16_power_and_thermal.md R458). -/
abbrev rPmOp : Nat := 0xA0002C
/-- PM_ENERGY (spec/16_power_and_thermal.md R470). -/
abbrev rPmEnergy : Nat := 0xA00030
/-- PM_P_EST (spec/16_power_and_thermal.md R449). -/
abbrev rPmPEst : Nat := 0xA00038
/-- PM_P_MEAS (spec/16_power_and_thermal.md R448). -/
abbrev rPmPMeas : Nat := 0xA0003C
/-- PM_FAULT (spec/16_power_and_thermal.md R473). -/
abbrev rPmFault : Nat := 0xA00040
/-- PM_FAULT_TAG (spec/16_power_and_thermal.md R473). -/
abbrev rPmFaultTag : Nat := 0xA00048
/-- PM_CAL_GAIN (spec/16_power_and_thermal.md R449). -/
abbrev rPmCalGain : Nat := 0xA00050
/-- PM_CAL_OFS (spec/16_power_and_thermal.md R449). -/
abbrev rPmCalOfs : Nat := 0xA00054
/-- PM_THERM_CFG (spec/16_power_and_thermal.md R467). -/
abbrev rPmThermCfg : Nat := 0xA00060
/-- PM_THERM_STATUS (spec/16_power_and_thermal.md R467). -/
abbrev rPmThermStatus : Nat := 0xA00064
/-- PM_MARROW_CFG (spec/16_power_and_thermal.md R463). -/
abbrev rPmMarrowCfg : Nat := 0xA00068
/-- PM_MARROW_STATUS (spec/16_power_and_thermal.md R463). -/
abbrev rPmMarrowStatus : Nat := 0xA0006C
/-- PM_MARROW_MCHK (spec/16_power_and_thermal.md R462). -/
abbrev rPmMarrowMchk : Nat := 0xA00070
/-- PM_ETAB (spec/16_power_and_thermal.md R446). Note: reset is the fuse-trimmed table of R446. -/
abbrev rPmEtab (i : Nat) : Nat := 0xA00080 + 0x4 * i
/-- PM_TEMP (spec/16_power_and_thermal.md R466). -/
abbrev rPmTemp (i : Nat) : Nat := 0xA00100 + 0x4 * i
/-- PM_VR_ADDR (spec/16_power_and_thermal.md R448). Note: the spec gives no reset value. -/
abbrev rPmVrAddr (i : Nat) : Nat := 0xA00300 + 0x4 * i
/-- TILE_ID (spec/01_architecture.md R32). Note: computed from grade, plane and run state. -/
abbrev rTileId (t : Nat) : Nat := 0xC00000 + 0x4000 * t
/-- TILE_ARITH (spec/04_arithmetic_and_formats.md R121,R122). -/
abbrev rTileArith (t : Nat) : Nat := 0xC00010 + 0x4000 * t
/-- TILE_MCHK_LOC (spec/04_arithmetic_and_formats.md R111). -/
abbrev rTileMchkLoc (t : Nat) : Nat := 0xC00014 + 0x4000 * t
/-- TILE_MCHK_CNT (spec/04_arithmetic_and_formats.md R111). -/
abbrev rTileMchkCnt (t : Nat) : Nat := 0xC00018 + 0x4000 * t
/-- TILE_SAT_CNT (spec/04_arithmetic_and_formats.md R105). -/
abbrev rTileSatCnt (t : Nat) : Nat := 0xC0001C + 0x4000 * t
/-- TILE_SCALE_TMO (spec/05_quantisation_and_scales.md R136). -/
abbrev rTileScaleTmo (t : Nat) : Nat := 0xC00020 + 0x4000 * t
/-- TILE_SLIP_CNT (spec/05_quantisation_and_scales.md R134). -/
abbrev rTileSlipCnt (t : Nat) : Nat := 0xC00024 + 0x4000 * t
/-- TILE_MISS_CNT (spec/05_quantisation_and_scales.md R143). -/
abbrev rTileMissCnt (t : Nat) : Nat := 0xC00028 + 0x4000 * t
/-- TILE_UFLOW_CNT (spec/05_quantisation_and_scales.md R140). -/
abbrev rTileUflowCnt (t : Nat) : Nat := 0xC0002C + 0x4000 * t
/-- TILE_REPLAY_CNT (spec/05_quantisation_and_scales.md R144). -/
abbrev rTileReplayCnt (t : Nat) : Nat := 0xC00030 + 0x4000 * t
/-- WT_DESC_BASE (spec/06_warp_plane.md R164). Note: warp; DT_JOB at this offset in a weft tile. -/
abbrev rWtDescBase (t : Nat) : Nat := 0xC00104 + 0x4000 * t
/-- WT_FLT_PTR (spec/06_warp_plane.md R180). -/
abbrev rWtFltPtr (t : Nat) : Nat := 0xC00110 + 0x4000 * t
/-- WT_FLT_REL (spec/06_warp_plane.md R180). -/
abbrev rWtFltRel (t : Nat) : Nat := 0xC00114 + 0x4000 * t
/-- WT_FLT_DROP (spec/06_warp_plane.md R180). -/
abbrev rWtFltDrop (t : Nat) : Nat := 0xC00118 + 0x4000 * t
/-- WT_EVT_CNT (spec/06_warp_plane.md R180). -/
abbrev rWtEvtCnt (t : Nat) : Nat := 0xC00120 + 0x4000 * t
/-- WT_ECC_CNT (spec/06_warp_plane.md R182). -/
abbrev rWtEccCnt (t : Nat) : Nat := 0xC00124 + 0x4000 * t
/-- WT_PRED (spec/06_warp_plane.md R157). Note: q0 always reads 1. -/
abbrev rWtPred (t : Nat) : Nat := 0xC00128 + 0x4000 * t
/-- WT_SKEIN_CFG (spec/06_warp_plane.md R174). -/
abbrev rWtSkeinCfg (t i : Nat) : Nat := 0xC00140 + 0x4000 * t + 0x4 * i
/-- WT_SKEIN_STAT (spec/06_warp_plane.md R174). -/
abbrev rWtSkeinStat (t i : Nat) : Nat := 0xC00160 + 0x4000 * t + 0x4 * i
/-- WT_ROUTE (spec/06_warp_plane.md R168). -/
abbrev rWtRoute (t i j : Nat) : Nat := 0xC00200 + 0x4000 * t + 0x40 * i + 0x4 * j
/-- DT_STATE (spec/09_weft_execution_and_sequences.md R265). -/
abbrev rDtState (t : Nat) : Nat := 0xC00100 + 0x4000 * t
/-- DT_JOB (spec/09_weft_execution_and_sequences.md R265). -/
abbrev rDtJob (t : Nat) : Nat := 0xC00104 + 0x4000 * t
/-- DT_PC (spec/09_weft_execution_and_sequences.md R249). -/
abbrev rDtPc (t : Nat) : Nat := 0xC00108 + 0x4000 * t
/-- WT_SLACK (spec/18_observability_and_test.md R512). Note: warp tile. -/
abbrev rWtSlack (t i j : Nat) : Nat := 0xC01000 + 0x4000 * t + 0x40 * i + 0x4 * j
/-- WT_SLACK_CLR (spec/18_observability_and_test.md R512). Note: warp tile. -/
abbrev rWtSlackClr (t : Nat) : Nat := 0xC01100 + 0x4000 * t
/-- DT_STALL (spec/18_observability_and_test.md R513). Note: weft tile. -/
abbrev rDtStall (t i : Nat) : Nat := 0xC01000 + 0x4000 * t + 0x4 * i
/-- DT_ISSUED (spec/18_observability_and_test.md R513). Note: weft tile. -/
abbrev rDtIssued (t : Nat) : Nat := 0xC01040 + 0x4000 * t
/-- FAULT_RING (spec/06_warp_plane.md R180,R248). Note: 128 records of 32 bytes. -/
abbrev rFaultRing (t i : Nat) : Nat := 0xC02000 + 0x4000 * t + 0x4 * i
/-- TILE_IA_SEL (spec/10_compiler_contract.md R298). -/
abbrev rTileIaSel (t : Nat) : Nat := 0xC03000 + 0x4000 * t
/-- TILE_IA_ADDR (spec/10_compiler_contract.md R298). -/
abbrev rTileIaAddr (t : Nat) : Nat := 0xC03004 + 0x4000 * t
/-- TILE_IA_DATA (spec/10_compiler_contract.md R298). Note: window on tile store or pick store. -/
abbrev rTileIaData (t : Nat) : Nat := 0xC03008 + 0x4000 * t
/-- TILE_IA_CMD (spec/10_compiler_contract.md R298). -/
abbrev rTileIaCmd (t : Nat) : Nat := 0xC0300C + 0x4000 * t
/-- TILE_IA_STATUS (spec/10_compiler_contract.md R298). -/
abbrev rTileIaStatus (t : Nat) : Nat := 0xC03010 + 0x4000 * t
/-- TILE_IA_PAGEBUF (spec/10_compiler_contract.md R298). -/
abbrev rTileIaPagebuf (t i : Nat) : Nat := 0xC03400 + 0x4000 * t + 0x4 * i

/-! ### The rows -/

/-- The rows of block TB. -/
def regRowsTb : List RegRow :=
  [ ⟨rTbCtrl, [], false, [⟨2, 2, .w1s, 0⟩, ⟨1, 1, .w1s, 0⟩, ⟨0, 0, .rw, 0⟩]⟩
  , ⟨rTbStatus, [], false, [⟨5, 5, .ro, 0⟩, ⟨4, 4, .ro, 0⟩, ⟨2, 0, .ro, 0⟩]⟩
  , ⟨rTbTickCfg, [], false, [⟨31, 16, .rwl, 0⟩, ⟨8, 0, .rwl, 0⟩]⟩
  , ⟨rTbFrameCfg, [], false, [⟨27, 16, .rwl, 0⟩, ⟨12, 0, .rwl, 1⟩]⟩
  , ⟨rTbSelvage, [], false, [⟨20, 0, .rwl, 0⟩]⟩
  , ⟨rTbDroopCfg, [], false, [⟨5, 0, .rw, 6⟩]⟩
  , ⟨rTbHoldover, [], false, [⟨11, 0, .rw, 64⟩]⟩
  , ⟨rTbTime, [], true, [⟨31, 0, .ro, 0⟩]⟩
  , ⟨rTbFaultTag, [], true, [⟨31, 0, .ro, 0⟩]⟩
  , ⟨rTbOverrunCnt, [], false, [⟨31, 0, .rc, 0⟩]⟩
  , ⟨rTbStretchMax, [], false, [⟨31, 0, .rc, 0⟩]⟩
  , ⟨rTbPrerunCnt, [], false, [⟨31, 0, .rc, 0⟩]⟩
  , ⟨rTbFault, [], false, [⟨15, 15, .w1c, 0⟩, ⟨13, 6, .w1c, 0⟩, ⟨5, 4, .w1c, 0⟩, ⟨3, 1, .w1c, 0⟩]⟩
  , ⟨rTbWeftOp, [], false, [⟨8, 8, .ro, 0⟩, ⟨6, 4, .ro, 7⟩, ⟨2, 0, .ro, 7⟩]⟩
  , ⟨rTbWeftStretchPs, [], true, [⟨31, 0, .ro, 0⟩]⟩
  , ⟨rTbSkewTrigIn 0, [(16, 0x4)], false, [⟨15, 0, .rwl, 0⟩]⟩
  , ⟨rTbSkewSnapIn, [], false, [⟨15, 0, .rwl, 0⟩]⟩ ]
/-- The rows of block BM. -/
def regRowsBm : List RegRow :=
  [ ⟨rBmGroupCfg 0, [(6, 0x4)], false, [⟨2, 0, .rwl, 4⟩]⟩
  , ⟨rBmFault, [], false, [⟨13, 1, .w1c, 0⟩]⟩
  , ⟨rBmFaultTag, [], true, [⟨31, 0, .ro, 0⟩]⟩
  , ⟨rBmLaneCfg 0, [(96, 0x40)], false, [⟨31, 31, .rwl, 0⟩, ⟨27, 24, .rwl, 0⟩, ⟨20, 16, .rwl, 0⟩, ⟨10, 8, .rwl, 0⟩, ⟨0, 0, .rwl, 0⟩]⟩
  , ⟨rBmLaneStatus 0, [(96, 0x40)], false, [⟨5, 5, .ro, 0⟩, ⟨4, 4, .ro, 0⟩, ⟨2, 0, .ro, 0⟩]⟩
  , ⟨rBmLaneDmeas 0, [(96, 0x40)], false, [⟨31, 31, .ro, 0⟩, ⟨15, 0, .ro, 0⟩]⟩
  , ⟨rBmLaneCorr 0, [(96, 0x40)], false, [⟨31, 0, .rc, 0⟩]⟩
  , ⟨rBmLaneUncorr 0, [(96, 0x40)], false, [⟨31, 0, .rc, 0⟩]⟩
  , ⟨rBmLaneViol 0, [(96, 0x40)], false, [⟨31, 0, .rc, 0⟩]⟩
  , ⟨rBmStreamCfg 0, [(16, 0x40)], false, [⟨31, 31, .rwl, 0⟩, ⟨30, 30, .rwl, 0⟩, ⟨29, 29, .rwl, 0⟩, ⟨23, 16, .rwl, 0⟩, ⟨7, 0, .rwl, 1⟩]⟩
  , ⟨rBmStreamRdpt 0, [(16, 0x40)], false, [⟨16, 0, .rwl, 0⟩]⟩
  , ⟨rBmStreamDeliv 0, [(16, 0x40)], false, [⟨15, 0, .ro, 0⟩]⟩
  , ⟨rBmStreamDamaged 0, [(16, 0x40)], false, [⟨31, 0, .rc, 0⟩]⟩
  , ⟨rBmStreamStatdrop 0, [(16, 0x40)], false, [⟨31, 0, .rc, 0⟩]⟩
  , ⟨rBmSkew 0 0, [(16, 0x100), (64, 0x4)], false, [⟨15, 0, .rwl, 0⟩]⟩ ]
/-- The rows of block WP. -/
def regRowsWp : List RegRow :=
  [ ⟨rWpCfg, [], false, [⟨28, 16, .rwl, 0⟩, ⟨6, 0, .rwl, 1⟩]⟩
  , ⟨rWpLat, [], false, [⟨31, 24, .rwl, 0⟩, ⟨7, 0, .rwl, 1⟩]⟩
  , ⟨rWpStatus, [], false, [⟨16, 16, .ro, 0⟩, ⟨8, 0, .ro, 0⟩]⟩
  , ⟨rWpFault, [], false, [⟨27, 24, .w1c, 0⟩, ⟨20, 16, .w1c, 0⟩, ⟨9, 1, .w1c, 0⟩]⟩
  , ⟨rWpFaultTag, [], true, [⟨31, 0, .ro, 0⟩]⟩
  , ⟨rWpMarkedCnt, [], false, [⟨31, 0, .rc, 0⟩]⟩
  , ⟨rWpFirstRec 0, [(8, 0x4)], false, [⟨31, 0, .ro, 0⟩]⟩ ]
/-- The rows of block WF. -/
def regRowsWf : List RegRow :=
  [ ⟨rWfCtrl, [], false, [⟨0, 0, .rw, 0⟩]⟩
  , ⟨rWfStatus, [], false, [⟨24, 16, .ro, 0⟩, ⟨8, 0, .ro, 0⟩]⟩
  , ⟨rWfAgeLimit, [], false, [⟨15, 0, .rw, 100⟩]⟩
  , ⟨rWfGranted, [], false, [⟨23, 0, .ro, 0⟩]⟩
  , ⟨rWfBudget, [], false, [⟨31, 31, .ro, 0⟩, ⟨23, 0, .ro, 0⟩]⟩
  , ⟨rWfFault, [], false, [⟨9, 0, .w1c, 0⟩]⟩
  , ⟨rWfFaultTag, [], true, [⟨31, 0, .ro, 0⟩]⟩
  , ⟨rWfEclass 0, [(16, 0x4)], false, [⟨15, 0, .rw, 0⟩]⟩
  , ⟨rWfQCfg 0, [(16, 0x80)], false, [⟨31, 29, .rw, 0⟩, ⟨27, 24, .rw, 1⟩, ⟨20, 16, .rw, 4⟩, ⟨12, 8, .rw, 4⟩]⟩
  , ⟨rWfQCtrl 0, [(16, 0x80)], false, [⟨1, 1, .w1s, 0⟩, ⟨0, 0, .w1s, 0⟩]⟩
  , ⟨rWfQStatus 0, [(16, 0x80)], false, [⟨31, 29, .ro, 0⟩, ⟨22, 16, .ro, 0⟩, ⟨15, 0, .ro, 0⟩]⟩
  , ⟨rWfQDone 0, [(16, 0x80)], false, [⟨31, 0, .rc, 0⟩]⟩
  , ⟨rWfSqBase 0, [(16, 0x80)], true, [⟨31, 0, .rw, 0⟩]⟩
  , ⟨rWfSqProd 0, [(16, 0x80)], false, [⟨15, 0, .rw, 0⟩]⟩
  , ⟨rWfSqCons 0, [(16, 0x80)], false, [⟨15, 0, .ro, 0⟩]⟩
  , ⟨rWfCqBase 0, [(16, 0x80)], true, [⟨31, 0, .rw, 0⟩]⟩
  , ⟨rWfCqProd 0, [(16, 0x80)], false, [⟨15, 0, .ro, 0⟩]⟩
  , ⟨rWfCqCons 0, [(16, 0x80)], false, [⟨15, 0, .rw, 0⟩]⟩
  , ⟨rWfPos 0, [(16, 0x80)], false, [⟨20, 0, .rw, 0⟩]⟩
  , ⟨rWfQAutodrop 0, [(16, 0x80)], false, [⟨31, 0, .rc, 0⟩]⟩
  , ⟨rWfAutoJobid 0, [(16, 0x80)], false, [⟨31, 0, .ro, 2147483648⟩]⟩
  , ⟨rWfAutoTpl 0 0, [(16, 0x80), (16, 0x4)], false, [⟨31, 0, .rw, 0⟩]⟩ ]
/-- The rows of block RD. -/
def regRowsRd : List RegRow :=
  [ ⟨rRdStatus, [], false, [⟨16, 16, .ro, 0⟩, ⟨7, 4, .ro, 0⟩, ⟨3, 0, .ro, 0⟩]⟩
  , ⟨rRdFault, [], false, [⟨7, 3, .w1c, 0⟩, ⟨1, 1, .w1c, 0⟩]⟩
  , ⟨rRdFaultTag, [], true, [⟨31, 0, .ro, 0⟩]⟩
  , ⟨rRdEccCnt, [], false, [⟨31, 0, .rc, 0⟩]⟩
  , ⟨rRdDropCnt, [], false, [⟨31, 0, .rc, 0⟩]⟩
  , ⟨rRdC1Maxlat, [], false, [⟨15, 0, .rc, 0⟩]⟩
  , ⟨rRdIaSel, [], false, [⟨31, 13, .rw, 0⟩, ⟨9, 0, .rw, 0⟩]⟩
  , ⟨rRdIaData, [], true, [⟨31, 0, .rw, 0⟩]⟩
  , ⟨rRdCntSel, [], false, [⟨12, 0, .rw, 0⟩]⟩
  , ⟨rRdCnt, [], false, [⟨31, 0, .rc, 0⟩]⟩ ]
/-- The rows of block TR. -/
def regRowsTr : List RegRow :=
  [ ⟨rTrFault, [], false, [⟨8, 1, .w1c, 0⟩]⟩
  , ⟨rTrFaultTag, [], true, [⟨31, 0, .ro, 0⟩]⟩
  , ⟨rTrIrqStatus, [], false, [⟨15, 0, .w1c, 0⟩]⟩
  , ⟨rTrIrqEn, [], false, [⟨15, 0, .rw, 0⟩]⟩
  , ⟨rTrHmin, [], false, [⟨9, 0, .ro, 0⟩]⟩
  , ⟨rTrTriginCfg 0, [(16, 0x10)], false, [⟨1, 0, .rwl, 0⟩]⟩
  , ⟨rTrTriginCnt 0, [(16, 0x10)], false, [⟨31, 0, .rc, 0⟩]⟩
  , ⟨rTrTriginDrop 0, [(16, 0x10)], false, [⟨31, 0, .rc, 0⟩]⟩
  , ⟨rTrTrigoutCfg 0, [(16, 0x4)], false, [⟨31, 31, .rwl, 0⟩, ⟨23, 16, .rwl, 1⟩, ⟨11, 0, .rwl, 0⟩]⟩
  , ⟨rTrIaSel, [], false, [⟨31, 16, .rw, 0⟩, ⟨3, 0, .rw, 0⟩]⟩
  , ⟨rTrIaData, [], true, [⟨31, 0, .rw, 0⟩]⟩
  , ⟨rTrStreamCfg 0, [(16, 0x100)], false, [⟨31, 31, .rwl, 0⟩, ⟨28, 24, .rwl, 10⟩, ⟨19, 16, .rwl, 0⟩]⟩
  , ⟨rTrAuto 0, [(16, 0x100)], false, [⟨23, 0, .rwl, 0⟩]⟩
  , ⟨rTrForce 0, [(16, 0x100)], false, [⟨0, 0, .w1s, 0⟩]⟩
  , ⟨rTrEval 0, [(16, 0x100)], false, [⟨31, 0, .ro, 0⟩]⟩
  , ⟨rTrDlat 0, [(16, 0x100)], false, [⟨15, 0, .ro, 0⟩]⟩
  , ⟨rTrRecBase 0, [(16, 0x100)], true, [⟨31, 0, .rwl, 0⟩]⟩
  , ⟨rTrRecProd 0, [(16, 0x100)], false, [⟨31, 0, .ro, 0⟩]⟩
  , ⟨rTrRecCons 0, [(16, 0x100)], false, [⟨31, 0, .rw, 0⟩]⟩
  , ⟨rTrScoreFmt 0, [(16, 0x100)], false, [⟨15, 0, .rwl, 0⟩]⟩
  , ⟨rTrGate 0, [(16, 0x100)], false, [⟨0, 0, .ro, 0⟩]⟩
  , ⟨rTrAcceptCnt 0, [(16, 0x100)], false, [⟨31, 0, .rc, 0⟩]⟩
  , ⟨rTrForcedCnt 0, [(16, 0x100)], false, [⟨31, 0, .rc, 0⟩]⟩
  , ⟨rTrLostCnt 0, [(16, 0x100)], false, [⟨31, 0, .rc, 0⟩]⟩
  , ⟨rTrRecdropCnt 0, [(16, 0x100)], false, [⟨31, 0, .rc, 0⟩]⟩
  , ⟨rTrMstate 0 0, [(16, 0x100), (2, 0x4)], false, [⟨28, 24, .ro, 0⟩, ⟨20, 16, .ro, 0⟩, ⟨12, 8, .ro, 0⟩, ⟨4, 0, .ro, 0⟩]⟩
  , ⟨rTrCmp 0 0, [(16, 0x100), (16, 0x4)], false, [⟨5, 0, .rwl, 0⟩]⟩
  , ⟨rTrThr 0 0, [(16, 0x100), (16, 0x4)], false, [⟨31, 0, .rwl, 0⟩]⟩
  , ⟨rTrWinSrc 0 0, [(16, 0x100), (16, 0x10)], false, [⟨31, 30, .rwl, 0⟩, ⟨13, 0, .rwl, 0⟩]⟩
  , ⟨rTrWinOpen 0 0, [(16, 0x100), (16, 0x10)], false, [⟨31, 0, .rwl, 0⟩]⟩
  , ⟨rTrWinClose 0 0, [(16, 0x100), (16, 0x10)], false, [⟨31, 0, .rwl, 0⟩]⟩ ]
/-- The rows of block BB. -/
def regRowsBb : List RegRow :=
  [ ⟨rBbMemStatus, [], false, [⟨31, 30, .ro, 0⟩, ⟨15, 0, .ro, 0⟩]⟩
  , ⟨rBbDpaSize, [], true, [⟨31, 0, .ro, 0⟩]⟩
  , ⟨rBbScrubCfg, [], false, [⟨7, 0, .rw, 24⟩]⟩
  , ⟨rBbRunid, [], false, [⟨31, 0, .rwl, 0⟩]⟩
  , ⟨rBbRefusedCnt, [], false, [⟨31, 0, .rc, 0⟩]⟩
  , ⟨rBbFault, [], false, [⟨11, 1, .w1c, 0⟩]⟩
  , ⟨rBbFaultDetail, [], false, [⟨19, 16, .ro, 0⟩, ⟨3, 0, .ro, 0⟩]⟩
  , ⟨rBbFaultTag, [], true, [⟨31, 0, .ro, 0⟩]⟩
  , ⟨rBbChStatus 0, [(16, 0x20)], false, [⟨31, 27, .ro, 0⟩, ⟨12, 8, .ro, 0⟩, ⟨5, 0, .ro, 0⟩]⟩
  , ⟨rBbChCe 0, [(16, 0x20)], false, [⟨31, 0, .rc, 0⟩]⟩
  , ⟨rBbChUe 0, [(16, 0x20)], false, [⟨31, 0, .rc, 0⟩]⟩
  , ⟨rBbChTemp 0, [(16, 0x20)], false, [⟨7, 0, .ro, 0⟩]⟩
  , ⟨rBbChErraddr 0, [(16, 0x20)], true, [⟨31, 0, .ro, 0⟩]⟩
  , ⟨rBbRgBase 0, [(32, 0x20)], true, [⟨31, 12, .rwl, 0⟩]⟩
  , ⟨rBbRgSize 0, [(32, 0x20)], true, [⟨31, 12, .rwl, 0⟩]⟩
  , ⟨rBbRgCtrl 0, [(32, 0x20)], false, [⟨31, 28, .rwl, 0⟩, ⟨19, 16, .rwl, 0⟩]⟩
  , ⟨rBbStCfg 0, [(16, 0x80)], false, [⟨31, 30, .rwl, 0⟩, ⟨28, 24, .rwl, 0⟩, ⟨22, 0, .rwl, 0⟩]⟩
  , ⟨rBbStRsv 0, [(16, 0x80)], false, [⟨31, 20, .rwl, 0⟩, ⟨15, 0, .rwl, 0⟩]⟩
  , ⟨rBbStKey 0, [(16, 0x80)], false, [⟨23, 0, .rwl, 0⟩]⟩
  , ⟨rBbStCtrl 0, [(16, 0x80)], false, [⟨0, 0, .w1s, 0⟩]⟩
  , ⟨rBbStStatus 0, [(16, 0x80)], false, [⟨31, 28, .ro, 0⟩, ⟨23, 0, .ro, 0⟩]⟩
  , ⟨rBbStDrain 0, [(16, 0x80)], false, [⟨31, 0, .ro, 0⟩]⟩
  , ⟨rBbBobWptr 0, [(16, 0x80)], true, [⟨31, 0, .ro, 0⟩]⟩
  , ⟨rBbBobRptr 0, [(16, 0x80)], true, [⟨31, 0, .rw, 0⟩]⟩
  , ⟨rBbStCaptured 0, [(16, 0x80)], false, [⟨31, 0, .rc, 0⟩]⟩
  , ⟨rBbStLostcap 0, [(16, 0x80)], false, [⟨31, 0, .rc, 0⟩]⟩
  , ⟨rBbStOvf 0, [(16, 0x80)], false, [⟨31, 0, .rc, 0⟩]⟩
  , ⟨rBbStFillmax 0, [(16, 0x80)], false, [⟨31, 0, .rc, 0⟩]⟩
  , ⟨rBbMapSel, [], false, [⟨13, 0, .rw, 0⟩]⟩
  , ⟨rBbMapData, [], true, [⟨31, 0, .rw, 0⟩]⟩ ]
/-- The rows of block KP. -/
def regRowsKp : List RegRow :=
  [ ⟨rKpId, [], false, [⟨31, 16, .ro, 3616⟩, ⟨8, 8, .ro, 0⟩, ⟨7, 4, .ro, 0⟩, ⟨3, 0, .ro, 0⟩]⟩
  , ⟨rKpUid, [], true, [⟨31, 0, .ro, 0⟩]⟩
  , ⟨rKpBootStatus, [], false, [⟨31, 24, .ro, 0⟩, ⟨11, 1, .ro, 0⟩]⟩
  , ⟨rKpBootInfo, [], false, [⟨31, 16, .ro, 0⟩, ⟨7, 0, .ro, 0⟩]⟩
  , ⟨rKpDebug, [], false, [⟨1, 0, .ro, 0⟩]⟩
  , ⟨rKpAuthFail, [], false, [⟨31, 0, .rc, 0⟩]⟩
  , ⟨rKpCmdCtr, [], true, [⟨31, 0, .ro, 0⟩]⟩
  , ⟨rKpEvent, [], false, [⟨4, 0, .w1c, 0⟩]⟩
  , ⟨rKpEventEn, [], false, [⟨4, 0, .rw, 0⟩]⟩
  , ⟨rKpFault, [], false, [⟨27, 1, .w1c, 0⟩]⟩
  , ⟨rKpFaultTag, [], true, [⟨31, 0, .ro, 0⟩]⟩
  , ⟨rKpStep 0, [(16, 0x8)], true, [⟨31, 0, .ro, 0⟩]⟩
  , ⟨rLdStatus, [], false, [⟨31, 26, .ro, 0⟩, ⟨15, 0, .ro, 0⟩]⟩
  , ⟨rLdInfo, [], false, [⟨25, 24, .ro, 0⟩, ⟨8, 0, .ro, 0⟩]⟩
  , ⟨rLdErrloc, [], false, [⟨31, 0, .ro, 0⟩]⟩
  , ⟨rLdErrdetail, [], false, [⟨31, 0, .ro, 0⟩]⟩
  , ⟨rLdFrame, [], false, [⟨31, 0, .ro, 0⟩]⟩
  , ⟨rLdWarpPw, [], false, [⟨31, 0, .ro, 0⟩]⟩
  , ⟨rLdProgDigest 0, [(8, 0x4)], false, [⟨31, 0, .ro, 0⟩]⟩
  , ⟨rLdWeightDigest 0, [(8, 0x4)], false, [⟨31, 0, .ro, 0⟩]⟩
  , ⟨rPvStatus, [], false, [⟨15, 0, .w1c, 0⟩]⟩
  , ⟨rPvRingBase 0, [(16, 0x20)], true, [⟨31, 7, .rwl, 0⟩]⟩
  , ⟨rPvRingCfg 0, [(16, 0x20)], false, [⟨31, 31, .rwl, 0⟩, ⟨4, 0, .rwl, 10⟩]⟩
  , ⟨rPvProd 0, [(16, 0x20)], false, [⟨31, 0, .ro, 0⟩]⟩
  , ⟨rPvCons 0, [(16, 0x20)], false, [⟨31, 0, .rw, 0⟩]⟩
  , ⟨rPvDeliv 0, [(16, 0x20)], false, [⟨31, 0, .ro, 0⟩]⟩
  , ⟨rPvLink 0 0, [(16, 0x20), (8, 0x4)], false, [⟨31, 0, .ro, 0⟩]⟩
  , ⟨rSnCtrl, [], false, [⟨2, 0, .w1s, 0⟩]⟩
  , ⟨rSnCfg, [], false, [⟨7, 0, .rw, 2⟩]⟩
  , ⟨rSnStatus, [], false, [⟨31, 29, .ro, 0⟩, ⟨2, 0, .ro, 0⟩]⟩
  , ⟨rSnAt, [], true, [⟨31, 0, .rw, 0⟩]⟩
  , ⟨rSnTag, [], true, [⟨31, 0, .ro, 0⟩]⟩
  , ⟨rSnMissed, [], false, [⟨31, 0, .rc, 0⟩]⟩
  , ⟨rSnSel, [], false, [⟨31, 0, .rw, 0⟩]⟩
  , ⟨rSnData, [], false, [⟨31, 0, .ro, 0⟩]⟩
  , ⟨rSnTsAddr, [], false, [⟨18, 12, .rw, 0⟩]⟩
  , ⟨rObFault, [], false, [⟨3, 1, .w1c, 0⟩]⟩
  , ⟨rObFaultTag, [], true, [⟨31, 0, .ro, 0⟩]⟩
  , ⟨rObLogHead, [], false, [⟨31, 31, .ro, 1⟩, ⟨11, 0, .ro, 0⟩]⟩
  , ⟨rObLogSel, [], false, [⟨11, 0, .rw, 0⟩]⟩
  , ⟨rObLogData 0, [(4, 0x4)], false, [⟨31, 0, .ro, 0⟩]⟩
  , ⟨rObLogOvw, [], false, [⟨31, 0, .rc, 0⟩]⟩
  , ⟨rObQstall 0 0, [(16, 0x20), (6, 0x4)], false, [⟨31, 0, .rc, 0⟩]⟩
  , ⟨rEyCtrl 0, [(144, 0x10)], false, [⟨31, 31, .w1s, 0⟩, ⟨30, 30, .w1s, 0⟩, ⟨29, 24, .rw, 20⟩, ⟨22, 16, .rw, 0⟩, ⟨5, 0, .rw, 0⟩]⟩
  , ⟨rEyStatus 0, [(144, 0x10)], false, [⟨31, 27, .ro, 0⟩]⟩
  , ⟨rEyBits 0, [(144, 0x10)], false, [⟨31, 0, .ro, 0⟩]⟩
  , ⟨rEyErrs 0, [(144, 0x10)], false, [⟨31, 0, .ro, 0⟩]⟩
  , ⟨rEyBase 0, [(144, 0x4)], false, [⟨31, 31, .ro, 0⟩, ⟨22, 16, .ro, 0⟩, ⟨5, 0, .ro, 0⟩]⟩ ]
/-- The rows of block KW. -/
def regRowsKw : List RegRow :=
  [ ⟨rKwDevid, [], false, [⟨11, 0, .rw, 0⟩]⟩
  , ⟨rKwTreeCfg, [], false, [⟨15, 8, .rw, 0⟩, ⟨3, 0, .rw, 15⟩]⟩
  , ⟨rKwFarmCfg, [], false, [⟨31, 30, .ro, 0⟩, ⟨23, 16, .rw, 1⟩, ⟨12, 8, .rw, 10⟩]⟩
  , ⟨rKwFarmFloor, [], false, [⟨19, 0, .rw, 120000⟩]⟩
  , ⟨rKwFarmCeil, [], false, [⟨19, 0, .rw, 450000⟩]⟩
  , ⟨rKwFarmEpoch, [], false, [⟨31, 0, .ro, 0⟩]⟩
  , ⟨rKwScore, [], false, [⟨15, 0, .ro, 0⟩]⟩
  , ⟨rKwTcLimit, [], false, [⟨15, 0, .rw, 4⟩]⟩
  , ⟨rKwFault, [], false, [⟨13, 1, .w1c, 0⟩]⟩
  , ⟨rKwFaultDetail, [], false, [⟨2, 0, .ro, 0⟩]⟩
  , ⟨rKwFaultTag, [], true, [⟨31, 0, .ro, 0⟩]⟩
  , ⟨rKwPortCfg 0, [(8, 0x80)], false, [⟨31, 31, .rw, 0⟩, ⟨30, 30, .rw, 1⟩, ⟨29, 24, .rw, 8⟩, ⟨19, 16, .rw, 0⟩, ⟨11, 0, .rw, 0⟩]⟩
  , ⟨rKwPortStatus 0, [(8, 0x80)], false, [⟨31, 27, .ro, 0⟩, ⟨19, 16, .ro, 0⟩, ⟨8, 0, .ro, 0⟩]⟩
  , ⟨rKwPortPartner 0, [(8, 0x80)], false, [⟨31, 31, .ro, 0⟩, ⟨18, 16, .ro, 0⟩, ⟨11, 0, .ro, 0⟩]⟩
  , ⟨rKwPortRej 0, [(8, 0x80)], false, [⟨31, 0, .rc, 0⟩]⟩
  , ⟨rKwPortReplay 0, [(8, 0x80)], false, [⟨31, 0, .rc, 0⟩]⟩
  , ⟨rKwPortSkew 0, [(8, 0x80)], false, [⟨15, 0, .rw, 0⟩]⟩
  , ⟨rKwTcOfs2 0, [(8, 0x80)], false, [⟨31, 0, .ro, 0⟩]⟩
  , ⟨rKwTcDly2 0, [(8, 0x80)], false, [⟨31, 0, .ro, 0⟩]⟩
  , ⟨rKwEvBase 0, [(8, 0x80)], true, [⟨31, 12, .rw, 0⟩]⟩
  , ⟨rKwEvCfg 0, [(8, 0x80)], false, [⟨31, 31, .rw, 0⟩, ⟨4, 0, .rw, 10⟩]⟩
  , ⟨rKwEvProd 0, [(8, 0x80)], false, [⟨31, 0, .ro, 0⟩]⟩
  , ⟨rKwEvCons 0, [(8, 0x80)], false, [⟨31, 0, .rw, 0⟩]⟩
  , ⟨rKwEvDrop 0, [(8, 0x80)], false, [⟨31, 0, .rc, 0⟩]⟩
  , ⟨rKwFwdDrop 0, [(8, 0x80)], false, [⟨31, 0, .rc, 0⟩]⟩
  , ⟨rKwFwd 0, [(16, 0x4)], false, [⟨31, 29, .rw, 0⟩, ⟨7, 0, .rw, 0⟩]⟩ ]
/-- The rows of block CX. -/
def regRowsCx : List RegRow :=
  [ ⟨rCxLinkStatus, [], false, [⟨31, 30, .ro, 0⟩, ⟨11, 8, .ro, 0⟩, ⟨4, 0, .ro, 0⟩]⟩
  , ⟨rCxMemStatus, [], false, [⟨31, 27, .ro, 0⟩, ⟨1, 0, .ro, 0⟩]⟩
  , ⟨rCxFault, [], false, [⟨11, 1, .w1c, 0⟩]⟩
  , ⟨rCxFaultTag, [], true, [⟨31, 0, .ro, 0⟩]⟩
  , ⟨rCxEarlyCnt, [], false, [⟨31, 0, .rc, 0⟩]⟩
  , ⟨rCxPoisonCnt, [], false, [⟨31, 0, .rc, 0⟩]⟩
  , ⟨rCxFlipCnt, [], false, [⟨31, 0, .rc, 0⟩]⟩
  , ⟨rCxHdmQos, [], false, [⟨27, 24, .rwl, 4⟩, ⟨15, 0, .rwl, 0⟩]⟩
  , ⟨rCxBiasBase, [], true, [⟨31, 12, .rw, 0⟩]⟩
  , ⟨rCxBiasCount, [], false, [⟨20, 0, .rw, 0⟩]⟩
  , ⟨rCxBiasCtrl, [], false, [⟨31, 31, .w1s, 0⟩, ⟨0, 0, .rw, 0⟩]⟩
  , ⟨rCxBiasStatus, [], false, [⟨31, 30, .ro, 0⟩, ⟨20, 0, .ro, 0⟩]⟩
  , ⟨rMsixTable 0, [(8192, 0x4)], false, [⟨31, 0, .rw, 0⟩]⟩
  , ⟨rMsixPba 0, [(64, 0x4)], false, [⟨31, 0, .ro, 0⟩]⟩ ]
/-- The rows of block PM. -/
def regRowsPm : List RegRow :=
  [ ⟨rPmStatus, [], false, [⟨31, 26, .ro, 0⟩, ⟨2, 0, .ro, 0⟩]⟩
  , ⟨rPmAvsCfg, [], false, [⟨15, 8, .rw, 25⟩, ⟨2, 0, .rw, 0⟩]⟩
  , ⟨rPmAvsResult, [], false, [⟨9, 0, .ro, 0⟩]⟩
  , ⟨rPmCap, [], false, [⟨19, 0, .ro, 350000⟩]⟩
  , ⟨rPmCapCfg, [], false, [⟨3, 0, .rwl, 4⟩]⟩
  , ⟨rPmFloor, [], false, [⟨19, 0, .ro, 0⟩]⟩
  , ⟨rPmCapEff, [], false, [⟨19, 0, .ro, 0⟩]⟩
  , ⟨rPmBase, [], false, [⟨19, 0, .ro, 0⟩]⟩
  , ⟨rPmOpLimit, [], false, [⟨2, 0, .rw, 0⟩]⟩
  , ⟨rPmBubble, [], false, [⟨30, 24, .ro, 0⟩, ⟨22, 16, .ro, 0⟩, ⟨14, 8, .ro, 0⟩, ⟨6, 0, .ro, 0⟩]⟩
  , ⟨rPmOp, [], false, [⟨2, 0, .ro, 0⟩]⟩
  , ⟨rPmEnergy, [], true, [⟨31, 0, .ro, 0⟩]⟩
  , ⟨rPmPEst, [], false, [⟨19, 0, .ro, 0⟩]⟩
  , ⟨rPmPMeas, [], false, [⟨19, 0, .ro, 0⟩]⟩
  , ⟨rPmFault, [], false, [⟨14, 1, .w1c, 0⟩]⟩
  , ⟨rPmFaultTag, [], true, [⟨31, 0, .ro, 0⟩]⟩
  , ⟨rPmCalGain, [], false, [⟨17, 0, .ro, 65536⟩]⟩
  , ⟨rPmCalOfs, [], false, [⟨31, 0, .ro, 0⟩]⟩
  , ⟨rPmThermCfg, [], false, [⟨15, 8, .rw, 103⟩, ⟨7, 0, .rw, 100⟩]⟩
  , ⟨rPmThermStatus, [], false, [⟨26, 24, .ro, 0⟩, ⟨22, 16, .ro, 0⟩, ⟨11, 0, .ro, 0⟩]⟩
  , ⟨rPmMarrowCfg, [], false, [⟨31, 31, .rw, 0⟩, ⟨25, 16, .rw, 0⟩, ⟨7, 0, .rw, 16⟩]⟩
  , ⟨rPmMarrowStatus, [], false, [⟨29, 16, .ro, 0⟩, ⟨15, 0, .ro, 0⟩]⟩
  , ⟨rPmMarrowMchk, [], false, [⟨31, 0, .rc, 0⟩]⟩
  , ⟨rPmEtab 0, [(16, 0x4)], false, [⟨31, 0, .rwl, 0⟩]⟩
  , ⟨rPmTemp 0, [(72, 0x4)], false, [⟨31, 30, .ro, 0⟩, ⟨11, 0, .ro, 0⟩]⟩
  , ⟨rPmVrAddr 0, [(8, 0x4)], false, [⟨6, 0, .rw, 0⟩]⟩ ]
/-- The rows of block TILE. -/
def regRowsTile : List RegRow :=
  [ ⟨rTileId 0, [(256, 0x4000)], false, [⟨31, 31, .ro, 1⟩, ⟨20, 20, .ro, 0⟩, ⟨17, 16, .ro, 0⟩, ⟨15, 0, .ro, 0⟩]⟩
  , ⟨rTileArith 0, [(256, 0x4000)], false, [⟨12, 8, .w1c, 0⟩, ⟨4, 0, .w1c, 0⟩]⟩
  , ⟨rTileMchkLoc 0, [(256, 0x4000)], false, [⟨31, 31, .ro, 0⟩, ⟨10, 6, .ro, 0⟩, ⟨3, 0, .ro, 0⟩]⟩
  , ⟨rTileMchkCnt 0, [(256, 0x4000)], false, [⟨31, 0, .rc, 0⟩]⟩
  , ⟨rTileSatCnt 0, [(256, 0x4000)], false, [⟨31, 0, .rc, 0⟩]⟩
  , ⟨rTileScaleTmo 0, [(256, 0x4000)], false, [⟨23, 0, .rw, 4096⟩]⟩
  , ⟨rTileSlipCnt 0, [(256, 0x4000)], false, [⟨31, 0, .rc, 0⟩]⟩
  , ⟨rTileMissCnt 0, [(256, 0x4000)], false, [⟨31, 0, .rc, 0⟩]⟩
  , ⟨rTileUflowCnt 0, [(256, 0x4000)], false, [⟨31, 0, .rc, 0⟩]⟩
  , ⟨rTileReplayCnt 0, [(256, 0x4000)], false, [⟨31, 0, .rc, 0⟩]⟩
  , ⟨rWtDescBase 0, [(256, 0x4000)], false, [⟨30, 16, .rwl, 0⟩, ⟨14, 0, .rwl, 0⟩]⟩
  , ⟨rWtFltPtr 0, [(256, 0x4000)], false, [⟨31, 31, .ro, 0⟩, ⟨23, 16, .ro, 0⟩, ⟨6, 0, .ro, 0⟩]⟩
  , ⟨rWtFltRel 0, [(256, 0x4000)], false, [⟨7, 0, .wo, 0⟩]⟩
  , ⟨rWtFltDrop 0, [(256, 0x4000)], false, [⟨31, 0, .rc, 0⟩]⟩
  , ⟨rWtEvtCnt 0, [(256, 0x4000)], false, [⟨31, 0, .rc, 0⟩]⟩
  , ⟨rWtEccCnt 0, [(256, 0x4000)], false, [⟨31, 0, .rc, 0⟩]⟩
  , ⟨rWtPred 0, [(256, 0x4000)], false, [⟨7, 0, .ro, 1⟩]⟩
  , ⟨rWtSkeinCfg 0 0, [(256, 0x4000), (8, 0x4)], false, [⟨31, 29, .rwl, 0⟩, ⟨25, 16, .rwl, 0⟩, ⟨14, 0, .rwl, 0⟩]⟩
  , ⟨rWtSkeinStat 0 0, [(256, 0x4000), (8, 0x4)], false, [⟨26, 16, .ro, 0⟩, ⟨10, 0, .ro, 0⟩]⟩
  , ⟨rWtRoute 0 0 0, [(256, 0x4000), (4, 0x40), (16, 0x4)], false, [⟨31, 31, .rwl, 0⟩, ⟨30, 29, .rwl, 2⟩, ⟨28, 16, .rwl, 0⟩, ⟨14, 0, .rwl, 0⟩]⟩
  , ⟨rWtSlack 0 0 0, [(256, 0x4000), (4, 0x40), (15, 0x4)], false, [⟨23, 0, .ro, 65535⟩]⟩
  , ⟨rWtSlackClr 0, [(256, 0x4000)], false, [⟨0, 0, .wo, 0⟩]⟩
  , ⟨rTileIaSel 0, [(256, 0x4000)], false, [⟨1, 0, .rw, 0⟩]⟩
  , ⟨rTileIaAddr 0, [(256, 0x4000)], false, [⟨18, 0, .rw, 0⟩]⟩
  , ⟨rTileIaData 0, [(256, 0x4000)], false, [⟨31, 0, .rw, 0⟩]⟩
  , ⟨rTileIaCmd 0, [(256, 0x4000)], false, [⟨15, 8, .wo, 0⟩, ⟨1, 0, .wo, 0⟩]⟩
  , ⟨rTileIaStatus 0, [(256, 0x4000)], false, [⟨1, 0, .ro, 0⟩]⟩
  , ⟨rTileIaPagebuf 0 0, [(256, 0x4000), (768, 0x4)], false, [⟨31, 0, .rw, 0⟩]⟩ ]

/-- The block rows with the BAR0 range each block takes (R28), so that a lookup reads one block's rows. -/
def regBlocks : List (Nat × Nat × List RegRow) :=
  [ (0x100000, 0x200000, regRowsTb)
  , (0x200000, 0x300000, regRowsBm)
  , (0x300000, 0x400000, regRowsWp)
  , (0x400000, 0x500000, regRowsWf)
  , (0x500000, 0x600000, regRowsRd)
  , (0x600000, 0x700000, regRowsTr)
  , (0x700000, 0x800000, regRowsBb)
  , (0x0, 0x100000, regRowsKp)
  , (0x800000, 0x900000, regRowsKw)
  , (0x900000, 0xA00000, regRowsCx)
  , (0xA00000, 0xB00000, regRowsPm)
  , (0xC00000, 0x1000000, regRowsTile) ]

/-- The remaining offset after taking out the indices `dims`; none when an index is out of its count. -/
def stripDims : List (Nat × Nat) → Nat → Option Nat
  | [], off => some off
  | (count, stride) :: rest, off =>
    if off / stride < count then stripDims rest (off % stride) else none

/-- Whether address `a` is in row `r`: 0 for a 32-bit register or a low half, 1 for a high half. -/
def regRowHit (r : RegRow) (a : Nat) : Option Nat :=
  if a < r.base then none
  else match stripDims r.dims (a - r.base) with
    | some 0 => some 0
    | some 4 => if r.w64 then some 1 else none
    | _ => none

/-- The first row of a list that documents address `a`. -/
def regFind : List RegRow → Nat → Option (RegRow × Nat)
  | [], _ => none
  | r :: rs, a => match regRowHit r a with
    | some h => some (r, h)
    | none => regFind rs a

/-- The row of the block that holds address `a`. -/
def regFindIn : List (Nat × Nat × List RegRow) → Nat → Option (RegRow × Nat)
  | [], _ => none
  | (lo, hi, rows) :: bs, a => if lo ≤ a && a < hi then regFind rows a else regFindIn bs a

/-- The row that documents BAR0 address `a`, and which half of the register `a` is. -/
def regLookup (a : Nat) : Option (RegRow × Nat) := regFindIn regBlocks a

/-- The fields at one half of a register. The high half of a 64-bit register carries the access type of its low half
on all 32 bits, with reset value 0. -/
def halfFields (r : RegRow) (half : Nat) : List RegField :=
  if half = 0 then r.fields
  else match r.fields with
    | [] => []
    | f :: _ => [⟨31, 0, f.acc, 0⟩]

/-- The word that a list of fields forms at reset (R15). -/
def fieldsReset : List RegField → Nat
  | [] => 0
  | f :: fs => f.reset * 2 ^ f.lo + fieldsReset fs

/-- The mask of the bits of the fields that satisfy `p`. -/
def fieldsMask (p : Access → Bool) : List RegField → Nat
  | [] => 0
  | f :: fs => (if p f.acc then (2 ^ (f.hi + 1 - f.lo) - 1) * 2 ^ f.lo else 0) + fieldsMask p fs

/-- R257: WF_ECLASS c resets to 100 × (c + 1). -/
def eclassReset (a : Nat) : Option Nat :=
  if rWfEclass 0 ≤ a ∧ a < rWfEclass 16 ∧ (a - rWfEclass 0) % 4 = 0 then
    some (100 * ((a - rWfEclass 0) / 4 + 1)) else none

/-- R446: the nominal energy table; fuses trim it (State.fuse). -/
def etabReset (a : Nat) : Option Nat :=
  if rPmEtab 0 ≤ a ∧ a < rPmEtab 16 ∧ (a - rPmEtab 0) % 4 = 0 then
    some ([117965, 25000, 1900, 1500, 3000, 4000, 1800, 6400, 12000, 2048000, 2600, 2500, 9000, 0, 0, 0].getD ((a - rPmEtab 0) / 4) 0) else none

/-- PCIe's layout of an MSI-X entry resets the mask bit of its vector control word to 1 (PRESUMED, log entry 29). -/
def msixReset (a : Nat) : Option Nat :=
  if rMsixTable 0 ≤ a ∧ a < rMsixTable 8192 ∧ a % 16 = 12 then some 1 else none

/-- The value of the BAR0 register at `a` after cold reset (R15); 0 where nothing is documented (R12). -/
def regReset (a : Nat) : BitVec 32 :=
  match eclassReset a, etabReset a, msixReset a with
  | some v, _, _ => BitVec.ofNat 32 v
  | _, some v, _ => BitVec.ofNat 32 v
  | _, _, some v => BitVec.ofNat 32 v
  | none, none, none =>
    match regLookup a with
    | some (r, half) => BitVec.ofNat 32 (fieldsReset (halfFields r half))
    | none => 0

end Sys2Proof.Machine
end

