-- ==== Sys2Proof/Machine/Sparse.lean ====
section
/-! DEFINITION. Sparse stores: lists of (key, value) pairs with rising keys in which no entry equals what its key reads
as when unlisted. The default `d` is a function of the key and belongs to the operation, not to the state, so that the
state is plain data and equal contents are equal lists. Every register file and every memory of the model is one. -/

namespace Sys2Proof.Machine

/-- A sparse store of values by key. With `α := Byte` it is a list of `Host.Cell`. -/
abbrev Sparse (α : Type) := List (Nat × α)

/-- The value at key `k`; the default of the key when it is not listed. -/
def sget {α : Type} (d : Nat → α) : Sparse α → Nat → α
  | [], k => d k
  | (j, v) :: m, k => if k = j then v else sget d m k

/-- The entry (k, v) in front of `m`, or nothing where `v` is what `k` reads as when unlisted. -/
def scons {α : Type} [DecidableEq α] (d : Nat → α) (k : Nat) (v : α) (m : Sparse α) : Sparse α :=
  if v = d k then m else (k, v) :: m

/-- The store with `v` at key `k`. -/
def sset {α : Type} [DecidableEq α] (d : Nat → α) (k : Nat) (v : α) : Sparse α → Sparse α
  | [] => scons d k v []
  | (j, w) :: m =>
    if k < j then scons d k v ((j, w) :: m)
    else if k = j then scons d k v m
    else (j, w) :: sset d k v m

/-- The store with the values `vs` at keys `k`, `k + 1`, and so on. -/
def ssetMany {α : Type} [DecidableEq α] (d : Nat → α) : Nat → List α → Sparse α → Sparse α
  | _, [], m => m
  | k, v :: vs, m => ssetMany d (k + 1) vs (sset d k v m)

/-- The `n` values at keys `k`, `k + 1`, and so on. -/
def sgetMany {α : Type} (d : Nat → α) (m : Sparse α) : Nat → Nat → List α
  | _, 0 => []
  | k, n + 1 => sget d m k :: sgetMany d m (k + 1) n

/-- The store without the entries whose keys lie in [lo, lo + n): each of those keys reads its default again. -/
def sclear {α : Type} (lo n : Nat) (m : Sparse α) : Sparse α :=
  m.filter (fun e => !(lo ≤ e.1 && e.1 < lo + n))

/-- The store with `f` applied to every listed value. -/
def smap {α : Type} [DecidableEq α] (d : Nat → α) (f : α → α) (m : Sparse α) : Sparse α :=
  m.foldr (fun e acc => scons d e.1 (f e.2) acc) []

/-- Every listed key is above `k`. -/
def sabove {α : Type} (k : Nat) : Sparse α → Bool
  | [] => true
  | (j, _) :: _ => k < j

/-- The canonical form: keys strictly rising, no entry equal to its default. -/
def swf {α : Type} [DecidableEq α] (d : Nat → α) : Sparse α → Bool
  | [] => true
  | (j, v) :: m => decide (v ≠ d j) && sabove j m && swf d m

end Sys2Proof.Machine
end

