-- ==== Sys2Proof/Machine/State.lean ====
section
/-! DEFINITION. The state of the EX-20 as plain data: every register (sparse, by BAR0 address), and every memory,
queue, buffer, counter and mode that the chapters give the device, in one group per subsystem. Stores are `Sparse`:
what an unlisted key reads as is the default that the operations of Machine/Ops.lean name. -/

namespace Sys2Proof.Machine

/-- The reasons the model itself stops a run. -/
inductive Fault where
  /-- Raised by every command whose operand names a unit the EX-20 does not have (tile 256, lane 96, stream 16 ...),
  that is, by every command that is not well-formed. The device has no such command: the stop is safe. -/
  | noSuchUnit
deriving DecidableEq, Repr

/-- The reasons a command is turned away without a meaning. -/
inductive Refusal where
  /-- Raised by an arm of `exec` that has no meaning yet. Safe: nothing can be proved through it. -/
  | notModelled (mnemonic : String)
deriving DecidableEq, Repr

/-! ### Fuses, pins and Timebase -/

/-- What the fuses and metal of the device hold (spec/00 R4; spec/16 R446, R447, R452; spec/17 R475-R477). -/
structure Fuse where
  grade192 : Bool := false
  stepA0 : Bool := false
  metal : Nat := 0
  uid : Nat := 0
  uds : List Byte := []
  vendorKeyHash : List Byte := []
  antiRollback : Nat := 0
  leakMw : List Nat := [0, 0, 0, 0]
  pSpnMw : Nat := 0
  pBaseMw : Nat := 0
  etab : List Nat := [117965, 25000, 1900, 1500, 3000, 4000, 1800, 6400, 12000, 2048000, 2600, 2500, 9000, 0, 0, 0]
  romOk : Bool := true
deriving DecidableEq, Repr

/-- The levels of the pins that the commands name (spec/19 R530). True is high. -/
structure Pins where
  powered : Bool := true
  sysRstN : Bool := false
  perstN : Bool := false
  vrHotN : Bool := true
  snapOut : Bool := false
  thermtripN : Bool := true
  pwrOffReqN : Bool := true
  pwrAlertN : Bool := true
  smbAlertN : Bool := true
  undervolt : Bool := false
deriving DecidableEq, Repr

/-- Timebase (spec/02): what its registers do not hold. `tick` is the tick count of the run; `cyc` the REED cycle of the
frame period that runs (R187), before the first frame period that since tick 0; `eighth` the eighths of a warp period since
the internal tick edge at which the running REED cycle began; `late1`, `late2` say that the next warp pulse, or the one
after it, will be stretched, and `slow` that the running one is (R46); `weftPulse` is the number of the weft pulse stretched
last (R50); `lapse` says that the run ends at the next frame-period boundary (R53); `shown` is the last fine part shown, with
its tick and REED cycle, and `fineCtr` numbers the free fine parts (R38); `holds` lists the holdovers of the run as (first
tick, last tick or none while it lasts). -/
structure TbSt where
  tick : Nat := 0
  cyc : Nat := 0
  eighth : Nat := 0
  late1 : Bool := false
  late2 : Bool := false
  slow : Bool := false
  weftPulse : Option Nat := none
  lapse : Bool := false
  shown : Nat × Nat × Nat := (0, 0, 0)
  fineCtr : Nat := 0
  q : Nat := 0
  holdTicks : Nat := 0
  holds : List (Nat × Option Nat) := []
  stopAt : Option Nat := none
  sysclkLost : Bool := false
  once : List (Nat × Nat) := []
deriving DecidableEq, Repr

/-! ### Beam -/

/-- One bolt that a stream lane has received and Beam has not yet delivered (spec/03 R78-R86): the start of its frame
period, its slot, its payload after descrambling, the cause that struck the whole payload, the cause that struck
payload bytes 0-7 (R73), and the symbols corrected. -/
structure RxBolt where
  frame : Nat
  slot : Nat
  payload : List Byte
  hurt : Option Nat
  hurt8 : Option Nat
  corr : Nat
deriving DecidableEq, Repr

/-- A stream lane (spec/03 R72, R73, R77, R87): descrambler and transmit scrambler states of 58 bits, the last good
header as (frame, slot, position in UI), headers missed in a row, headers found in a row, the cause that left the
descrambler unreliable, bolts not yet delivered, the line bits of the last transmit slot, and whether LANE_DOWN has been
raised since the last frame due on the lane. -/
structure LaneSt where
  descr : Nat := 2 ^ 58 - 1
  scr : Nat := 2 ^ 58 - 1
  lastHdr : Option (Nat × Nat × Nat) := none
  missed : Nat := 0
  found : Nat := 0
  dirty : Option Nat := none
  bolts : List RxBolt := []
  txBits : List Bool := []
  downSaid : Bool := false
deriving DecidableEq, Repr

/-- A back-channel status record that waits for a transmit slot (R90, R91). -/
structure StatusRec where
  frame : Nat
  lane : Nat
  cause : Nat
  corr : Nat
  viol : Nat
deriving DecidableEq, Repr

/-- A back-channel decision record that waits for a transmit slot (R90, R324). -/
structure DecisionRec where
  frame : Nat
  flags : Nat
  word : Nat
deriving DecidableEq, Repr

/-- A stream of Beam: for each byte of the frame data the last undamaged value in the run (R83), the record
queues of the back channel, the outcome of the run-start check (R81), the frames delivered in the run, and the fine
times of the stream's channels in the frames of the run, newest first (R308). -/
structure StreamSt where
  holdLast : List (Option Byte) := []
  statusQ : List StatusRec := []
  decisionQ : List DecisionRec := []
  cfgFailed : Bool := false
  delivered : Nat := 0
  chTimes : List (Nat × List Nat) := []
deriving DecidableEq, Repr

/-- Beam (spec/03): lanes, streams, the lane groups that boot step S7 left unusable (spec/17 R484). -/
structure BmSt where
  lanes : Sparse LaneSt := []
  streams : Sparse StreamSt := []
  dead : List Nat := []
deriving DecidableEq, Repr

/-! ### Treadle -/

/-- A state machine of Treadle (spec/11 R311, R316): state, counters, timers with the tick after whose edge each begins to count (R317),
user flags. -/
structure Machine where
  st : Nat := 0
  cnt : List Nat := [0, 0, 0, 0]
  tval : List Nat := [0, 0]
  trun : List Bool := [false, false]
  texp : List Bool := [false, false]
  tfrom : List Nat := [0, 0]
  flags : Nat := 0
deriving DecidableEq, Repr

/-- A frame that Beam has delivered and Treadle has not decided (R325, R327). -/
structure UFrame where
  stream : Nat
  tick : Nat
  index : Nat
  data : List Byte
  damaged : Bool
  fe : Nat
deriving DecidableEq, Repr

/-- A score with the frame ID of the slot that wrote it (R304). -/
structure Score where
  bits : Nat := 0
  frame : Option Nat := none
deriving DecidableEq, Repr

/-- A TRIG_IN input (R307, R310): recorded edges as raw time tags, oldest first; the tag of the last recorded edge;
the calibrated times of the first and last edge dropped since the history was last below 64; whether it has been below
64 since the last drop. -/
structure TrigIn where
  edges : List Nat := []
  last : Option Nat := none
  dropSpan : Option (Int × Int) := none
  below : Bool := true
deriving DecidableEq, Repr

/-- A TRIG_OUT line (R323): active or not, and the unstretched warp periods of the pulse that remain. -/
structure TrigOut where
  active : Bool := false
  remaining : Nat := 0
deriving DecidableEq, Repr

/-- Treadle (spec/11): tables, machines, frames not yet decided, scores, edge histories, output lines,
records issued per stream, records of an earlier run still in Reed per stream (R326, R327), the tick of the last accepted
frame per stream. -/
structure TrSt where
  tables : Sparse DWord := []
  machines : Sparse Machine := []
  undecided : List UFrame := []
  scores : Sparse Score := []
  trigIn : Sparse TrigIn := []
  trigOut : Sparse TrigOut := []
  issued : Sparse Nat := []
  stale : Sparse Nat := []
  lastAcc : Sparse Nat := []
deriving DecidableEq, Repr

/-! ### Bobbin -/

/-- A pending entry of a capture elastic buffer (spec/12 R344): stream, frame tick, the REED cycle in which it was
delivered, and the frame data with DAMAGED known from the record. -/
structure Pending where
  stream : Nat
  frame : Nat
  cyc : Nat
  data : List Byte
deriving DecidableEq, Repr

/-- Capture bytes that are committed and not yet visible (R351): the byte count of the ring at which they end, their
offset in the ring, and the bytes. -/
structure Unwritten where
  endCount : Nat
  offset : Nat
  bytes : List Byte
deriving DecidableEq, Repr

/-- The capture state of a stream (R349-R357). `wp` counts the bytes placed in the ring, visible or not. -/
structure CapSt where
  cLast : Nat := 0
  lastKey : Option Nat := none
  prevTag : Nat := 0
  runWritten : Bool := false
  wp : Nat := 0
  values : Sparse Nat := []
  unwritten : List Unwritten := []
deriving DecidableEq, Repr

/-- A memory channel as it came up (R331-R333): state code of BB_CH_STATUS, capacity in units of 16 GB, organisation,
ranks, conservative method used. -/
structure ChanSt where
  state : Nat := 0
  cap16 : Nat := 0
  org : Nat := 0
  ranks : Nat := 0
  conservative : Bool := false
deriving DecidableEq, Repr

/-- Bobbin (spec/12): DDR4 by device physical address, lines that read as uncorrectable (by line number), whether a channel has shown one (R337),
pending entries, commits refused late, channel maps, capture states, channels, refreshes
issued per rank, patrol scrub positions, C1_COMMIT packets for Treadle, whether the modules stand
trained since cold reset (R334). -/
structure BbSt where
  mem : Sparse Byte := []
  bad : Sparse Bool := []
  ueSeen : Sparse Bool := []
  pend : List Pending := []
  discarded : List (Nat × Nat) := []
  chmap : Sparse DWord := []
  cap : Sparse CapSt := []
  chans : Sparse ChanSt := []
  refreshes : Sparse Nat := []
  scrubPos : Sparse Nat := []
  trained : Bool := false
deriving DecidableEq, Repr

/-! ### Provenance and observability -/

/-- A link record that waits for its write (spec/13 R372, R373): its 128 bytes and the ticks of its first and last
frame. -/
structure LinkRec where
  bytes : List Byte
  first : Nat
  last : Nat
deriving DecidableEq, Repr

/-- The provenance chain of a stream (R369, R370): the bytes of the open block not yet hashed, its first frame, its
frames so far, the last frame delivered, the number of the open block, the last link, link records to write, `stale` of them of an earlier run. -/
structure Chain where
  msg : List Byte := []
  first : Nat := 0
  last : Nat := 0
  count : Nat := 0
  block : Nat := 0
  link : List Byte := []
  links : List LinkRec := []
  stale : Nat := 0
deriving DecidableEq, Repr

/-- An entry of the error log (spec/18 R518). -/
structure LogEntry where
  cause : Nat
  source : Nat
  reps : Nat
  detail : Nat
  tag : Nat
deriving DecidableEq, Repr

/-- Snapshots, error log, TAP and provenance (spec/13, spec/18). `log` is newest first; `logCount` counts the entries
taken since cold reset. `pendTick` is the pending latch tick, `outTick` the tick at
whose end SNAP_OUT falls. `cells` is the boundary register as SAMPLE/PRELOAD last left it (R520). -/
structure ObSt where
  pendTick : Option Nat := none
  outTick : Option Nat := none
  log : List LogEntry := []
  logCount : Nat := 0
  chains : Sparse Chain := []
  tapIr : Nat := 1
  testMode : Bool := false
  pinsSafe : Bool := false
  cells : List Bool := []
deriving DecidableEq, Repr

/-! ### CXL host interface -/

/-- An HDM decoder (spec/15 R416, R417); `error` is Error Not Committed. -/
structure Decoder where
  base : Nat := 0
  size : Nat := 0
  skip : Nat := 0
  ig : Nat := 0
  iw : Nat := 0
  lockOnCommit : Bool := false
  committed : Bool := false
  locked : Bool := false
  error : Bool := false
deriving DecidableEq, Repr

/-- A bias flip in progress (R427): next page, pages left, target. -/
structure Flip where
  page : Nat
  left : Nat
  toDevice : Bool
deriving DecidableEq, Repr

/-- The CXL host interface (spec/15): MSI-X enable and function mask of configuration space, vectors sent (newest
first), decoders, Range 1 size, bias bits by page, lines of the coherency cache, translations, the flip in progress,
MB_CTRL and MB_STATUS, the mailbox buffers, the answer to the last host read as bytes and poison, writes sent to host
memory as (address, bytes, poison), newest first, Internal Error of the RAS capability (R439). -/
structure CxSt where
  msixEn : Bool := false
  msixFMask : Bool := false
  sent : List Nat := []
  dec0 : Decoder := {}
  dec1 : Decoder := {}
  range1 : Nat := 0
  bias : Sparse Bool := []
  cache : List Nat := []
  atc : List Nat := []
  flip : Option Flip := none
  mbCtrl : Word := 0
  mbStatus : Word := 0
  cmdBuf : Sparse Byte := []
  respBuf : Sparse Byte := []
  memAnswer : Option (List Byte × Bool) := none
  hostOut : List (Nat × List Byte × Bool) := []
  internalErr : Bool := false
deriving DecidableEq, Repr

/-! ### The loaded image -/

/-- A stream record of the image (spec/10 R286). -/
structure StreamRec where
  en : Bool := false
  deliv : Nat := 0
  fsize : Nat := 0
  subch : Nat := 0
  nchan : Nat := 0
  chOfs : List Nat := []
deriving DecidableEq, Repr

/-- What the device keeps of the loaded image beyond stores and registers (spec/10 R282, R286, R294): the quantities of
its header, its digests, its planes by tile (1 warp, 2 weft), its stream records, and the scale records of R151 as (tile, working copy, template)
by tile-store address. -/
structure Image where
  tiles : Nat
  lt : Nat
  framePulses : Nat
  selvage : Nat
  p : Nat
  h : Nat
  l : Nat
  delta : Nat
  warpStatic : Nat
  warpEpf : Nat
  progDigest : List Byte
  weightDigest : List Byte
  layoutDigest : List Byte
  planes : List Nat
  streams : List StreamRec
  recs : List (Nat × Nat × Nat) := []
deriving DecidableEq, Repr

/-- The marks of one frame (spec/06 R181): mark word, scale miss count, user mark byte. -/
structure FrameMark where
  mark : Nat := 0
  smiss : Nat := 0
  umark : Nat := 0
deriving DecidableEq, Repr

/-! ### Tiles: what both planes hold -/

/-- A weight page of a macro (spec/04 R96-R98): whether it is valid, its digit mode, the base page of the F8 set it
belongs to, on the base page of such a set whether the set is flagged non-finite (R236), and on page 7 whether it holds the
marrow pattern, which puts its macro at marrow's disposal (spec/16 R461). -/
structure Page where
  valid : Bool := false
  signed : Bool := false
  f8 : Option Nat := none
  nonfinite : Bool := false
  marrow : Bool := false
deriving DecidableEq, Repr

/-- The block accumulator of a bank lane (spec/05 R128): bits of weight 2^-60, the weight outer group (WST, group) and
the activation outer group (OA, group) of the products it holds, and the FP32 outer scales read with them. -/
structure BlockAcc where
  value : Int := 0
  wg : Option (Nat × Nat) := none
  ag : Option (Nat × Nat) := none
  ow : Nat := 0
  oa : Nat := 0
deriving DecidableEq, Repr

/-- The sideband of a block slot or scale slot (spec/05 R131-R133). The tag of a scale slot stands in its entry. -/
structure Side where
  valid : Bool := false
  tag : Nat := 0
deriving DecidableEq, Repr

/-- A Heddle token (spec/06 R169): route, tags, slack, the REED cycle (from the start of the run) in which it becomes
active, the tags already steered, the pick store index of its HTK, the frame that its route names. -/
structure Token where
  route : Nat
  tag : Nat
  cnt : Nat
  slack : Nat
  active : Nat
  done : List Nat
  word : Nat
  frame : Nat
deriving DecidableEq, Repr

/-- Where in the warp plane something arose (spec/06 R179): tile, served or marked frame, pick store index, slot (0 M to
3 C), variant, warp pulse. -/
structure WarpSite where
  t : Nat
  frame : Nat
  word : Nat
  slot : Nat
  phase : Nat
  pulse : Nat
deriving DecidableEq, Repr

/-- What one activation block gives to a bank lane (spec/05 R128, R145): the product in units of 2^-60, its outer group, the
FP32 outer scales of weights and activations, the outer scale of a replay block. -/
structure LaneProduct where
  p : Int
  grp : Nat
  ow : Nat
  oa : Nat
  replay : Option Nat
deriving DecidableEq, Repr

/-- A step that has read its operands (spec/04 R103, R104; spec/05 R128-R130): the bank, ACC, block mode, FOLD, WST and OA of
its descriptor, the tree sums by lane, and in block mode the products by lane in program order. -/
structure StepWork where
  bank : Nat
  acc : Bool
  block : Bool
  fold : Bool
  wst : Nat
  oa : Nat
  sums : List Int := []
  prods : List (List LaneProduct) := []
deriving DecidableEq, Repr

/-- A result of a warp slot or a Heddle that is not in place yet (spec/06 R166): bytes of tile store; a burst that a Heddle
steers to tile store (address, tag, bytes); a slot's sideband; a step into its bank; a bank clear; a predicate; a score; a push
onto a skein. -/
inductive Land where
  | store (a : Nat) (bs : List Byte)
  | burst (a : Nat) (tag : Option Nat) (bs : List Byte)
  | slot (a : Nat) (x : Side)
  | step (w : StepWork)
  | clear (b : Nat)
  | pred (k : Nat) (v : Bool)
  | score (k : Nat) (x : Score)
  | push (k : Nat) (bs : List Byte)
deriving DecidableEq, Repr

/-- A result on its way: the REED cycle from which it can be used, where it was issued, what it is. -/
structure Flight where
  due : Nat
  site : WarpSite
  what : Land
deriving DecidableEq, Repr

/-- A skein (spec/06 R174): ring index of the head, the frame IDs of the entries in order, the largest fill of the
run. The payloads lie in tile store. -/
structure Skein where
  head : Nat := 0
  frames : List Nat := []
  maxFill : Nat := 0
deriving DecidableEq, Repr

/-- An execution of a warp quantisation in progress (spec/05 R132, R139, R141): the frame that it belongs to, next block, outer
scale, largest magnitude so far, whether a block has missed. -/
structure QuantExec where
  frame : Nat
  next : Nat
  outer : Nat
  amax : Nat
  missed : Bool
deriving DecidableEq, Repr

/-- The tiles (spec/04-06, spec/10 R298): pick stores by 64-bit word (8,192 a tile), cells of each page row (256 bits),
checksum cells, digit sums and alignment exponents by column and row group, pages, banks, SAT bits, block accumulators,
the mode of the last step that wrote a bank, slot sidebands by 2-byte address, page buffers, the macro page command in
progress, fault rings with the index of the oldest record, the (tile, cause, frame) already recorded; the activity counters of the
running microsecond by 16 × tile + entry of the energy table, and the issues that bubbles held back, by tile (spec/01 R19, spec/16
R446). -/
structure TileSt where
  pick : Sparse DWord := []
  cells : Sparse Nat := []
  chk : Sparse Nat := []
  dsum : Sparse Int := []
  aexp : Sparse Int := []
  pages : Sparse Page := []
  acc : Sparse Word := []
  sat : Sparse Bool := []
  bacc : Sparse BlockAcc := []
  bmode : Sparse Bool := []
  side : Sparse Side := []
  pageBuf : Sparse Byte := []
  pageCmd : Sparse (Option (Nat × Nat × Nat × Bool)) := []
  flt : Sparse (List (List Byte)) := []
  fltOldest : Sparse Nat := []
  fltSeen : List (Nat × Nat × Nat) := []
  firstHeld : Bool := false
  act : Sparse Nat := []
  held : Sparse Nat := []
deriving DecidableEq, Repr

/-- The warp plane (spec/06): predicates q1-q7, pending tokens by port, skeins, quantisations in progress, results on their way
in the order of issue, what the pick words of the running pulse have issued as (tile, slot), the tiles whose word of the pulse
has been counted as uncorrectable. -/
structure WarpSt where
  preds : Sparse Bool := []
  tokens : Sparse (List Token) := []
  skeins : Sparse Skein := []
  execs : Sparse (Option QuantExec) := []
  flights : List Flight := []
  issued : List (Nat × Nat) := []
  badWords : List Nat := []
deriving DecidableEq, Repr

/-! ### Weft cores, channels, jobs, shuttle -/

/-- A lane of an exact accumulator (spec/04 R120): value in units of 2^-149, class 0 FINITE, 1 +INF, 2 -INF, 3 NAN. -/
structure XLane where
  value : Int := 0
  cls : Nat := 0
deriving DecidableEq, Repr

/-- What the instruction at PC waits for (spec/08 R218): 0 channel credit, 1 entry, 2 shuttle queue entry, 3 ticket, 4
slot ring pair, 5 energy grant, 6 fence; the channel, ticket or address; tag expected, slots observed (R136). -/
structure WaitOn where
  kind : Nat
  addr : Nat
  exp : Nat := 0
  obs : Nat := 0
deriving DecidableEq, Repr

/-- A block-mode VQNT that waits between blocks (spec/08 R230, R231): next block, outer scale, replays made,
whether a block has missed. -/
structure VqProg where
  next : Nat
  outer : Nat
  replays : Nat
  missed : Bool
deriving DecidableEq, Repr

/-- A Uahomer-D core (spec/08 R211, R241; spec/09 DT_STATE): state, PC, the job it holds, control registers, next
ticket, place in the sync sequence (entry, events done of it), channels with a held entry, JEND status, the per-job
copies of ACC_SAT, the FP flags and REPLAY (R263), halted by BRK, the cause of its trap, the class that an ENERGY waits
for (R260), what the instruction at PC waits for, the VQNT in progress, the issue opportunities used, modulo 64 (spec/16 R456). -/
structure Core where
  state : Nat := 0
  pc : Nat := 0
  job : Nat := 0
  prog : Nat := 0
  jobid : Nat := 0
  stream : Nat := 0
  frame : Nat := 0
  eclass : Nat := 0
  eclassMax : Nat := 0
  cycle : Nat := 0
  retired : Nat := 0
  fpctl : Nat := 0
  waittmo : Nat := 0x4000000
  rngk0 : Nat := 0
  rngk1 : Nat := 0
  nextTicket : Nat := 1
  seqPos : Nat := 0
  seqDone : Nat := 0
  held : List Nat := []
  jend : Option Nat := none
  jobFlags : Nat := 0
  halted : Bool := false
  trapCause : Nat := 0
  raiseTo : Option Nat := none
  waiting : Option WaitOn := none
  vq : Option VqProg := none
  opp : Nat := 0
deriving DecidableEq, Repr

/-- A shuttle ticket (spec/09 R268-R273): tile, number, descriptor bytes, whether its request has reached the engine,
the errors of the units whose access is done (unit, cause or 0), units whose response has come, status once complete. -/
structure Ticket where
  tile : Nat
  num : Nat
  job : Nat
  desc : List Byte
  started : Bool := false
  units : List (Nat × Nat) := []
  acked : List Nat := []
  status : Option Nat := none
deriving DecidableEq, Repr

/-- A channel while its program runs (spec/07 R205): credits at the source, entries waiting at the destination, entries
sent and entries received so far, outer scales of replayed blocks sent and not yet folded (spec/05 R144, R145). -/
structure Chan where
  credits : Nat := 0
  waiting : Nat := 0
  sent : Nat := 0
  recvd : Nat := 0
  replays : List Nat := []
deriving DecidableEq, Repr

/-- The weft cores (spec/08): scalars, predicates, vectors, exact accumulators, cores, macro selections as (base page,
format), tickets, channels by 256 × program + channel, cycles by kind at 32 × tile + kind (R513: 0-15 stalls, 16 issued), the turn of each shuttle server as (flow, requests served in
it) (spec/09 R272). -/
structure WeftSt where
  sreg : Sparse DWord := []
  preg : Sparse DWord := []
  vreg : Sparse Word := []
  xa : Sparse XLane := []
  cores : Sparse Core := []
  sel : Sparse (Option (Nat × Nat)) := []
  tickets : List Ticket := []
  chans : Sparse Chan := []
  cycles : Sparse Nat := []
  turns : Sparse (Nat × Nat) := []
deriving DecidableEq, Repr

/-- A job in a stream queue or running (spec/09 R252-R256, R262): number in order of arrival, stream, the 64 bytes of
its descriptor, whether it is an auto job, the status with which it completes without running. -/
structure Job where
  num : Nat
  stream : Nat
  desc : List Byte
  auto : Bool
  done : Option Nat := none
deriving DecidableEq, Repr

/-- A running job or batch (spec/09 R258-R267): its number, program, member jobs by stream, tiles, energy granted by
tile in mW, the status with which it is stopped, the first trap as (cycle of its core, tile) (R265), start time tag. -/
structure RunJob where
  num : Nat
  prog : Nat
  members : List Job
  tiles : List Nat
  grant : List (Nat × Nat)
  stop : Option Nat := none
  trapAt : Option (Nat × Nat) := none
  start : Nat
deriving DecidableEq, Repr

/-- A completion record that waits for its place in the completion ring (spec/09 R264). -/
structure Completion where
  num : Nat
  stream : Nat
  bytes : List Byte
  irq : Bool
deriving DecidableEq, Repr

/-- The job scheduler (spec/09): queues in order, jobs that run, records that wait, number of the next job, the stream
admitted last, the reserved job, streams being aborted with the producer index at the write (R266), completion records written and
not yet released, by stream (R264). -/
structure SchedSt where
  queue : List Job := []
  running : List RunJob := []
  completions : List Completion := []
  nextNum : Nat := 1
  last : Nat := 15
  reserved : Option Nat := none
  aborts : List (Nat × Nat) := []
  cqHeld : Sparse Nat := []
deriving DecidableEq, Repr

/-! ### Reed -/

/-- A place on a packet's way (spec/07 R198): the node, its input, its output, and the REED cycles from that output to the
next input. -/
structure Hop where
  node : Nat
  inp : Nat
  out : Nat
  lat : Nat
deriving DecidableEq, Repr

/-- A packet in Reed (spec/07 R195): the header fields and the payload; whether a flit of it is poisoned (R208); its way, each place
with the REED cycles from which the flits that stand there may leave, the first flit first; the cycle in which its head entered
the hub (R203). -/
structure Packet where
  dst : Nat
  src : Nat
  vc : Nat
  kind : Nat
  rtag : Nat
  addr : Nat
  chan : Nat
  payload : List Byte
  poison : Bool := false
  way : List (Hop × List Nat) := []
  hubAt : Option Nat := none
deriving DecidableEq, Repr

/-- A register read that a node awaits (spec/07 R202): the node, its tag, and status and data once they have come. -/
structure RegRead where
  node : Nat
  rtag : Nat
  answer : Option (Nat × Nat) := none
deriving DecidableEq, Repr

/-- A warp burst in flight (spec/07 R188): the router input it stands at (router, port, subchannel), the REED cycle of
its first flit there, counted from tick 0 of the run, its tag, frame ID and payload. -/
structure Flit where
  router : Nat
  port : Nat
  sub : Nat
  cyc : Nat
  tag : Nat
  frame : Nat
  payload : List Byte
deriving DecidableEq, Repr

/-- Reed (spec/07): slot tables by 8192 × router + index, warp bursts in flight, bursts that have reached a tile port as
(tile, port, burst with the cycle of its arrival), the REED cycle, packets in flight in the order of injection, credits used by buffer
(64 × node + input) × 8 + VC, credits on their return wires as (buffer, cycle from which usable), the input served last by
(64 × node + output) × 8 + VC, injection opportunities by 2 × node + class (C2, C4), register reads awaited, stall counters by
8 × router + VC. -/
structure RdSt where
  slots : Sparse DWord := []
  flits : List Flit := []
  arrived : List (Nat × Nat × Flit) := []
  now : Nat := 0
  packets : List Packet := []
  credits : Sparse Nat := []
  wires : List (Nat × Nat) := []
  served : Sparse Nat := []
  opps : Sparse Nat := []
  reads : List RegRead := []
  stalls : Sparse Nat := []
deriving DecidableEq, Repr

/-! ### The job program table of the image -/

/-- A channel of a job program (spec/10 R286, spec/07 R205). -/
structure ChanDecl where
  prog : Nat
  chan : Nat
  src : Nat
  dst : Nat
  depth : Nat
  init : Nat
  ring : Bool
  addr : Nat
deriving DecidableEq, Repr

/-- An entry of a sync sequence: receive or send, channel, events. -/
structure SyncEv where
  recv : Bool
  chan : Nat
  count : Nat
deriving DecidableEq, Repr

/-- A job program (spec/09 R250). -/
structure Prog where
  num : Nat
  entry : Nat
  batch : Bool
  resident : Bool
  maxClass : Nat
  argBase : Nat
  tiles : List Nat
deriving DecidableEq, Repr

/-- The job programs, channels and sync sequences (program, tile, entries) of the loaded image. -/
structure JobTable where
  progs : List Prog := []
  chans : List ChanDecl := []
  seqs : List (Nat × Nat × List SyncEv) := []
deriving DecidableEq, Repr
/-! ### Kwengo -/

/-- A message received on a port and not yet processed (spec/14 R386, R394): virtual lane, bytes, arrival tag of its
bolt, whether that was a replayed bolt, whether it is the last message of its bolt. -/
structure PeerRx where
  vl : Nat
  bytes : List Byte
  tag : Nat
  rpl : Bool
  last : Bool
deriving DecidableEq, Repr

/-- A DATA bolt in a replay buffer (R387). -/
structure PeerOut where
  seq : Nat
  vl : Nat
  body : List Byte
deriving DecidableEq, Repr

/-- What one lane of a port in training last received (R385): partner DEVID, partner port, TRAIN bolts in a row that carried
them. -/
structure PeerTrain where
  dev : Nat := 0
  pp : Nat := 0
  n : Nat := 0
deriving DecidableEq, Repr

/-- A peer port (spec/14 R380-R392, R399): slots sent, scrambler and descrambler states by lane, next SEQ, SEQ expected,
replay buffer, the SEQ that a replay resends next, replays since ACK advanced, NAK to send, NAK sent in this episode, the
lane of the next slot received (R381), training and missed headers by lane (R385, R388), bolts sent per VL, the partner's FREED, own FREED, messages to send as (VL, bytes), messages received, the line bits of
the last slot, number of TIME_CHECKs sent, departures as (N, tag), the last TIME_CHECK received as (N, arrival). -/
structure PeerPort where
  slot : Nat := 0
  scr : List Nat := [2 ^ 58 - 1, 2 ^ 58 - 1, 2 ^ 58 - 1, 2 ^ 58 - 1]
  descr : List Nat := [2 ^ 58 - 1, 2 ^ 58 - 1, 2 ^ 58 - 1, 2 ^ 58 - 1]
  next : Nat := 0
  expect : Nat := 0
  unacked : List PeerOut := []
  resend : Option Nat := none
  replays : Nat := 0
  nakDue : Bool := false
  nakDone : Bool := false
  rxLane : Nat := 0
  train : Sparse PeerTrain := []
  missed : Sparse Nat := []
  sent : List Nat := [0, 0, 0, 0]
  theirFreed : List Nat := [0, 0, 0, 0]
  freed : List Nat := [0, 0, 0, 0]
  txq : List (Nat × List Byte) := []
  rxq : List PeerRx := []
  txBits : List Bool := []
  tcN : Nat := 0
  tcDeps : List (Nat × Nat) := []
  tcRx : Option (Nat × Nat) := none
deriving DecidableEq, Repr

/-- A shuttle unit that waits for a peer's answer (R395): port, RTAG, tile, ticket, unit, destination, read or write. -/
structure PeerWait where
  port : Nat
  rtag : Nat
  tile : Nat
  num : Nat
  unit : Nat
  dst : Nat
  read : Bool
deriving DecidableEq, Repr

/-- The last SCORE of a device as the coordinator knows it (R402, R404). -/
structure FarmScore where
  epoch : Nat := 0
  cap : Nat := 0
  floor : Nat := 0
  ceil : Nat := 0
  score : Nat := 0
deriving DecidableEq, Repr

/-- An increase that waits for its decrease (R404): device and its lower cap, device and its higher cap. -/
structure FarmPair where
  down : Nat
  downCap : Nat
  up : Nat
  upCap : Nat
deriving DecidableEq, Repr

/-- Kwengo (spec/14): ports, ingress port + 1 by source device (R401), next RTAG, units that wait, SCOREs at the root by
device, EPOCHs given by device, pairs in progress, farm power key. -/
structure KwSt where
  ports : Sparse PeerPort := []
  route : Sparse Nat := []
  rtag : Nat := 0
  waits : List PeerWait := []
  scores : List (Nat × FarmScore) := []
  epochs : Sparse Nat := []
  pairs : List FarmPair := []
  farmKey : List Byte := []
deriving DecidableEq, Repr

/-! ### PMC -/

/-- PMC (spec/16): samples of the corrected estimate in mW, newest first (R455); the interval of R449 as the sum of raw
estimates, their number and the sum of C3 bubbles; interval means of the corrected estimate and the measurements of the
last window and the last 10 ms, newest first; 100 µs intervals of calibration, intervals in a row with a gap above 3 %;
last marrow current in mA; nJ carried by PM_ENERGY; last good power of a rail in mW and failures in a row, by rail;
microseconds in a row at the lowest point (R460); readings out of range in a row, by sensor; THERMTRIP latched and its sensor; the 1 µs
update that brought headroom of 5 % or more. -/
structure PmSt where
  window : List Nat := []
  rawSum : Nat := 0
  rawN : Nat := 0
  c3Sum : Nat := 0
  ests : List Int := []
  meass : List Nat := []
  calN : Nat := 0
  driftN : Nat := 0
  lastMa : Int := 0
  carryNj : Nat := 0
  rails : Sparse Nat := []
  railFails : Sparse Nat := []
  lowUs : Nat := 0
  outCnt : Sparse Nat := []
  tripped : Bool := false
  tripSensor : Nat := 0
  headroom : Bool := false
deriving DecidableEq, Repr


/-! ### Snapshots, Keep -/

/-- What the blocks hold at a latch edge (spec/18 R506, R507): the banks show words of it. -/
structure Snap where
  regs : Sparse Word
  tb : TbSt
  bm : BmSt
  tr : TrSt
  bb : BbSt
  ts : Sparse Byte
  tile : TileSt
  warp : WarpSt
  weft : WeftSt
  sched : SchedSt
  kw : KwSt
  pm : PmSt
  marks : Sparse FrameMark
  image : Option Image
deriving DecidableEq, Repr

/-- STEP[k] of a boot record (spec/17 R482). -/
structure StepRec where
  outcome : Nat := 0
  fails : Nat := 0
  cause : Nat := 0
  detail : Nat := 0
  ms : Nat := 0
deriving DecidableEq, Repr

/-- A boot record (R482). `slot` is 3 while no firmware runs; events are (type, cause, time tag). -/
structure BootRec where
  bootNo : Nat := 0
  cause : Nat := 0
  slot : Nat := 3
  mode : Nat := 0
  done : Bool := false
  degraded : Bool := false
  halted : Bool := false
  debug : Nat := 0
  evcount : Nat := 0
  timeMs : Nat := 0
  steps : List StepRec := []
  ch : List Nat := []
  grp : List Nat := []
  port : List Nat := []
  die : List Nat := []
  events : List (Nat × Nat × Nat) := []
deriving DecidableEq, Repr

/-- The default policy (R488, R490): REQUIRE_SIGNED 1, DEBUG_MAX 0, FARM_ALLOWED 0, BOOT_LOAD 0, address 0x1D, no ports. -/
def defaultPolicy : List Byte := [1, 0, 0, 0, 0x1D, 0, 0, 0, 0, 0, 0, 0, 0, 0, 0, 0]

/-- An owner record whose tag verifies (R489): owner public key (none on a device without an owner), the 16 bytes of the
policy, the sequence number. -/
structure OwnerRec where
  key : List Byte := []
  policy : List Byte := defaultPolicy
  seq : Nat := 0
deriving DecidableEq, Repr

/-- Boot flash (R476): preferred slot, slots marked BAD, SPD serial of each channel's module, certificate, firmware slots
A and B, golden firmware, boot image, owner record copies (none: the copy fails its tag), boot records, newest first. -/
structure Flash where
  preferred : Nat := 0
  bad : List Nat := []
  spd : List Nat := []
  cert : List Byte := []
  slotA : List Byte := []
  slotB : List Byte := []
  golden : List Byte := []
  bootImg : List Byte := []
  ownerA : Option OwnerRec := some {}
  ownerB : Option OwnerRec := some {}
  ledger : List BootRec := []
deriving DecidableEq, Repr

/-- A command that Keep has taken (R432, R493): over MCTP or not, opcode, tag, payload. -/
structure KpCmd where
  mctp : Bool
  opcode : Nat
  tag : Nat
  payload : List Byte
deriving DecidableEq, Repr

/-- What waits for Keep (spec/15 R435): a command, a write of 1 to TB_CTRL.ARM, a GRANT whose DST is this device. -/
inductive KpItem where
  | cmd (c : KpCmd)
  | arm
  | grant (bytes : List Byte)
deriving DecidableEq, Repr

/-- A load in its write pass (spec/10 R294-R296): the command that asked for it with the key and counter of its response
(none when S12 loads the boot image), the image's address and length in DDR4, the file when it comes from flash, the digests
that the check pass found, whether its signature verified, the image loaded before, the bytes that the check pass read. -/
structure LoadJob where
  cmd : Option (KpCmd × List Byte × Nat)
  dpa : Nat
  len : Nat
  file : Option (List Byte)
  digests : List Byte
  signed : Bool
  old : Option Image
  first : List Byte
deriving DecidableEq, Repr

/-- The loader: the load in its write pass. -/
structure LdSt where
  job : Option LoadJob := none
deriving DecidableEq, Repr

/-- Keep (spec/17): flash, the record of the current start in the retained set (none after power-up), ledger events that
the AON logic holds for the next start, the step in progress, whether zeroing runs, SVN and digests of the running firmware and of the Loom sections, the policy and owner key in
effect, whether the device is owner-lost, the nonce that is valid, K_cmd, failures of R494 in a row, what waits for
it in order of arrival (R435, R495), responses sent over MCTP (newest first), the firmware chunks of a recovery, registers at the last accepted ARM (R499), a
ZEROIZE with DDR4 that awaits its end (true when a warm reset with RESET_CAUSE 5 follows), the loader. -/
structure KpSt where
  flash : Flash := {}
  cur : Option BootRec := none
  step : Option Nat := none
  zeroing : Bool := false
  svn : Nat := 0
  mKeep : List Byte := []
  mLoom : List (List Byte) := []
  policy : List Byte := []
  ownerKey : List Byte := []
  ownerLost : Bool := false
  nonce : Option (List Byte) := none
  kCmd : Option (List Byte) := none
  aon : List (Nat × Nat × Nat) := []
  authRow : Nat := 0
  waiting : List KpItem := []
  mctpOut : List (List Byte) := []
  recov : List Byte := []
  armRegs : Option (Sparse Word) := none
  wiping : Bool := false
  ld : LdSt := {}
deriving DecidableEq, Repr


/-! ### The machine -/

/-- The whole EX-20. `pending` is the queue of commands, `freeCtr` numbers the free values (log entry 3), `readData` is
the answer of the last register read; these three are the model's own. `image` is the loaded image, `marks` the marks
of the frames in the warp plane by frame ID (spec/06 R181). -/
structure State where
  pending : List Instr := []
  freeCtr : Nat := 0
  readData : Word := 0
  fuse : Fuse := {}
  pins : Pins := {}
  regs : Sparse Word := []
  latch : Sparse (Option Word) := []
  staging : Sparse Word := []
  rwlLock : Bool := false
  tb : TbSt := {}
  bm : BmSt := {}
  tr : TrSt := {}
  bb : BbSt := {}
  ob : ObSt := {}
  cx : CxSt := {}
  image : Option Image := none
  jobs : JobTable := {}
  marks : Sparse FrameMark := []
  dmap : Sparse DWord := []
  ts : Sparse Byte := []
  tile : TileSt := {}
  warp : WarpSt := {}
  weft : WeftSt := {}
  sched : SchedSt := {}
  rd : RdSt := {}
  kw : KwSt := {}
  pm : PmSt := {}
  snap : Option Snap := none
  kp : KpSt := {}
deriving DecidableEq, Repr

/-- The machine right after cold reset, SYS_RST_N still low (R15, R530): every register at its reset value, every queue
empty, nothing listed in any memory. -/
def State.reset : State := {}

end Sys2Proof.Machine
end

