-- ==== Sys2Proof/Machine/Ops.lean ====
section
/-! DEFINITION. The operations that every family shares: reading and writing registers from inside the device, the
units that exist, the current time tag, raising a cause (spec/00 R16, spec/18 R518, R519), MSI-X (spec/15 R437, R438),
DDR4 bytes and regions (spec/12 R335-R343). -/

namespace Sys2Proof.Machine

/-! ### Defaults of the sparse stores -/

/-- A byte that nothing has written reads 0 (log entry 6 for tile and pick store; R334 for DDR4). -/
abbrev dByte : Nat → Byte := fun _ => 0
/-- A word that nothing has written reads 0. -/
abbrev dWord : Nat → Word := fun _ => 0
/-- A 64-bit word that nothing has written reads 0. -/
abbrev dDWord : Nat → DWord := fun _ => 0
/-- A number that nothing has written reads 0. -/
abbrev dNat : Nat → Nat := fun _ => 0
/-- A flag that nothing has set reads false. -/
abbrev dFalse : Nat → Bool := fun _ => false

/-! ### Registers from inside the device: no access type, no lock (R11 binds writes from outside) -/

/-- The stored value of the register at BAR0 address `a`. -/
def reg (s : State) (a : Nat) : Word := sget regReset s.regs a

/-- The register at BAR0 address `a` holding `v`. -/
def setReg (s : State) (a : Nat) (v : Word) : State := { s with regs := sset regReset a v s.regs }

/-- Field [hi:lo] of the register at `a`. -/
def regF (s : State) (a hi lo : Nat) : Nat := wfld (reg s a) hi lo

/-- Field [hi:lo] of the register at `a` set to `v`. -/
def setF (s : State) (a hi lo v : Nat) : State := setReg s a (setFld (reg s a) hi lo v)

/-- Bit `n` of the register at `a`. -/
def regBit (s : State) (a n : Nat) : Bool := wbit (reg s a) n

/-- Bit `n` of the register at `a` set to `b`. -/
def setRegBit (s : State) (a n : Nat) (b : Bool) : State := setF s a n n (b2n b)

/-- The 64-bit register whose low half is at `a` (R14). -/
def reg64 (s : State) (a : Nat) : Nat := (reg s a).toNat + 2 ^ 32 * (reg s (a + 4)).toNat

/-- The 64-bit register whose low half is at `a` set to `v` in one step (R14). -/
def setReg64 (s : State) (a v : Nat) : State :=
  setReg (setReg s a (BitVec.ofNat 32 v)) (a + 4) (BitVec.ofNat 32 (v / 2 ^ 32))

/-- The register at `a` set to the low 32 bits of `v`. -/
def setRegN (s : State) (a v : Nat) : State := setReg s a (BitVec.ofNat 32 v)

/-- The 32-bit counter at `a` raised by `n`, saturating. -/
def countUp (s : State) (a n : Nat) : State := setRegN s a (satN 32 ((reg s a).toNat + n))

/-- A field [hi:lo] used as a counter, raised by `n`, saturating. -/
def countUpF (s : State) (a hi lo n : Nat) : State := setF s a hi lo (satN (hi + 1 - lo) (regF s a hi lo + n))

/-- The registers in [lo, lo + n) at their reset values. -/
def resetRegs (s : State) (lo n : Nat) : State := { s with regs := sclear lo n s.regs }

/-! ### Which units exist (R4, R5) -/

/-- Tiles of the device. -/
def tileCount (s : State) : Nat := if s.fuse.grade192 then 192 else 256
/-- Stream lanes of the device. -/
def laneCount (s : State) : Nat := if s.fuse.grade192 then 72 else 96
/-- DDR4 channels of the device. -/
def chanCount (s : State) : Nat := if s.fuse.grade192 then 12 else 16
/-- Loom dies of the device. -/
def dieCount (s : State) : Nat := if s.fuse.grade192 then 3 else 4
/-- Thermal sensors that take part (R466): sensor k does not take part when it lies on a die that is fused off. -/
def sensorPresent (s : State) (k : Nat) : Bool := k < 72 && !(s.fuse.grade192 && 48 ≤ k && k < 64)

/-- A command about unit `n` of `count` units of the architecture: the model stops at a number no EX-20 has; on a
device whose grade lacks the unit the command does nothing (log entry 11). -/
def onUnit (count present n : Nat) (s : State) (k : State → State) : Host.Outcome State Fault Refusal :=
  if count ≤ n then .fault .noSuchUnit
  else if present ≤ n then .next s
  else .next (k s)

/-- Keep has released block `k`, and boot step S4 has ended: until then no host access reaches the EX-20 (R30, R479). Bit 11
is the release of Keep's own block at the end of S4. -/
def released (s : State) (k : Nat) : Bool := regBit s rKpBootStatus k && regBit s rKpBootStatus 11

/-- A write to a block that Keep has not released is ignored (R30). -/
def onBlock (k : Nat) (s : State) (f : State → State) : State := if released s k then f s else s

/-! ### Free values -/

/-- `n` free bytes (log entry 3). -/
def freeBytes (s : State) (n : Nat) : List Byte × State :=
  ((List.range n).map (fun i => Config.freeByte (s.freeCtr + i)), { s with freeCtr := s.freeCtr + n })

/-! ### Time and run state -/

/-- TB_STATUS.STATE. -/
def tbState (s : State) : Nat := regF s rTbStatus 2 0
/-- TB_STATUS.STATE set. -/
def setTbState (s : State) (v : Nat) : State := setF s rTbStatus 2 0 v
/-- IDLE. -/
abbrev stIdle : Nat := 0
/-- LOCKING. -/
abbrev stLocking : Nat := 1
/-- LOCKED. -/
abbrev stLocked : Nat := 2
/-- ARMED. -/
abbrev stArmed : Nat := 3
/-- RUNNING. -/
abbrev stRunning : Nat := 4
/-- HOLDOVER. -/
abbrev stHoldover : Nat := 5
/-- FAILED. -/
abbrev stFailed : Nat := 7

/-- A run is active in RUNNING and in HOLDOVER. -/
def runActive (s : State) : Bool := tbState s == stRunning || tbState s == stHoldover

/-- M, the interleave factor (R43); 0 is not a legal value and is treated as 1. -/
def tbM (s : State) : Nat := max 1 (regF s rTbFrameCfg 12 0)
/-- SLOT. -/
def tbSlot (s : State) : Nat := regF s rTbFrameCfg 27 16
/-- N, the warp pulses per tick. -/
def tbN (s : State) : Nat := regF s rTbTickCfg 8 0

/-- The fine unit that lies `e` eighths of a warp period after the tick edge (R9, R44): a tick is 8 N of them and 256 fine
units. -/
def fineAt (s : State) (e : Nat) : Nat := 32 * e / max 1 (tbN s)

/-- The fine part of the current time tag (R9, R38): in the span of the running REED cycle, not before the last one shown
in it, otherwise free (log entry 17). -/
def fineNow (s : State) : Nat :=
  let lo := if s.tb.shown.1 = s.tb.tick ∧ s.tb.shown.2.1 = s.tb.cyc then max s.tb.shown.2.2 (fineAt s s.tb.eighth)
    else fineAt s s.tb.eighth
  let hi := fineAt s (s.tb.eighth + 4 + b2n s.tb.slow)
  min 255 (lo + Config.freeFine s.tb.fineCtr % max 1 (hi - lo))

/-- The current time tag (R9, R38); 0 outside a run (log entry 17). -/
def nowTag (s : State) : Nat := if runActive s then s.tb.tick * 256 + fineNow s else 0

/-- The fine counter runs on after a tag has been taken (R38). -/
def tagTaken (s : State) : State :=
  { s with tb := { s.tb with shown := (s.tb.tick, s.tb.cyc, fineNow s), fineCtr := s.tb.fineCtr + 1 } }
/-- TICK_KHZ. -/
def tickKhz (s : State) : Nat := regF s rTbTickCfg 31 16
/-- S, the selvage. -/
def tbSelvage (s : State) : Nat := regF s rTbSelvage 20 0
/-- Pulses per frame period. -/
def framePulses (s : State) : Nat := tbN s * tbM s

/-! ### MSI-X (R437, R438) -/

/-- The mask bit of vector `v`: bit 0 of the last word of its table entry. -/
def vectorMasked (s : State) (v : Nat) : Bool := s.cx.msixFMask || regBit s (rMsixTable (4 * v + 3)) 0

/-- An event on vector `v`: lost while MSI-X is disabled or PERST_N is low; held in the PBA while masked; else sent. -/
def msix (s : State) (v : Nat) : State :=
  if !s.cx.msixEn || !s.pins.perstN then s
  else if vectorMasked s v then setRegBit s (rMsixPba (v / 32)) (v % 32) true
  else { s with cx := { s.cx with sent := v :: s.cx.sent } }

/-- A held event of vector `v` is sent once the vector is no longer masked (R438). -/
def msixUnmask (s : State) (v : Nat) : State :=
  if regBit s (rMsixPba (v / 32)) (v % 32) && !vectorMasked s v && s.cx.msixEn && s.pins.perstN then
    let s := setRegBit s (rMsixPba (v / 32)) (v % 32) false
    { s with cx := { s.cx with sent := v :: s.cx.sent } }
  else s

/-! ### Causes (R16) and the error log (R518, R519) -/

/-- The FAULT register and bit that a cause sets, by the tables of the chapters; none for a cause with no bit. -/
def faultBit (cause : Nat) : Option (Nat × Nat) :=
  let sub := cause / 256
  let k := cause % 256
  if sub = 0x01 then (if 1 ≤ k ∧ k ≤ 13 then some (rBmFault, k) else none)
  else if sub = 0x02 then
    if 1 ≤ k ∧ k ≤ 9 then some (rWpFault, k)
    else if 0x20 ≤ k ∧ k ≤ 0x24 then some (rWpFault, k - 0x20 + 16)
    else if 0x28 ≤ k ∧ k ≤ 0x2B then some (rWpFault, k - 0x28 + 24) else none
  else if sub = 0x03 then (if 0x40 ≤ k ∧ k ≤ 0x49 then some (rWfFault, k - 0x40) else none)
  else if sub = 0x04 then (if k = 1 ∨ (3 ≤ k ∧ k ≤ 7) then some (rRdFault, k) else none)
  else if sub = 0x05 then (if 1 ≤ k ∧ k ≤ 8 then some (rTrFault, k) else none)
  else if sub = 0x06 then (if 1 ≤ k ∧ k ≤ 11 then some (rBbFault, k) else none)
  else if sub = 0x07 then (if 1 ≤ k ∧ k ≤ 13 then some (rKwFault, k) else none)
  else if sub = 0x08 then (if 1 ≤ k ∧ k ≤ 11 then some (rCxFault, k) else none)
  else if sub = 0x09 then
    (if (1 ≤ k ∧ k ≤ 3) ∨ (6 ≤ k ∧ k ≤ 13) ∨ k = 15 then some (rTbFault, k) else none)
  else if sub = 0x0A then (if 1 ≤ k ∧ k ≤ 14 then some (rPmFault, k) else none)
  else if sub = 0x0B then
    if 1 ≤ k ∧ k ≤ 27 then some (rKpFault, k)
    else if 0xB1 ≤ k ∧ k ≤ 0xB3 then some (rObFault, k - 0xB0) else none
  else none

/-- The FAULT_TAG register that belongs to a FAULT register. -/
def faultTagOf (a : Nat) : Nat := if a = rTbFault then rTbFaultTag else a + 8

/-- The first-fault detail that Bobbin and Kwengo keep beside the tag (BB_FAULT_DETAIL, KW_FAULT_DETAIL). -/
def faultDetail (s : State) (cause source : Nat) : State :=
  if cause / 256 = 0x06 then
    if cause % 256 ≤ 4 ∨ cause % 256 = 10 then setRegN s rBbFaultDetail (source % 16 * 2 ^ 16)
    else setRegN s rBbFaultDetail (source % 16)
  else if cause / 256 = 0x07 then setRegN s rKwFaultDetail (source % 8)
  else s

/-- One raise enters the error log: merged into the newest entry of the same cause and source, or a new entry that
overwrites the oldest of 4,096 (R518, R519). -/
def logRaise (s : State) (cause source detail : Nat) : State :=
  match s.ob.log with
  | e :: es =>
    if e.cause = cause ∧ e.source = source then
      { s with ob := { s.ob with log := { e with reps := satN 16 (e.reps + 1) } :: es } }
    else
      let s1 := if 4096 ≤ s.ob.log.length then countUp s rObLogOvw 1 else s
      { s1 with ob := { s1.ob with
          log := (⟨cause, source, 1, detail % 2 ^ 16, nowTag s⟩ :: e :: es).take 4096
          logCount := s1.ob.logCount + 1 } }
  | [] =>
    { s with ob := { s.ob with log := [⟨cause, source, 1, detail % 2 ^ 16, nowTag s⟩]
                               logCount := s.ob.logCount + 1 } }

/-- The FAULT bit of a raise: the first bit set stores the time tag (R62 and its like); a bit that becomes 1 raises
the vector of its subsystem (R437). -/
def setFaultBit (s : State) (cause source : Nat) (a b : Nat) : State :=
  let old := reg s a
  let s1 := if old = 0 then faultDetail (setReg64 s (faultTagOf a) (nowTag s)) cause source else s
  let s2 := setRegBit s1 a b true
  if wbit old b then s2 else msix s2 (0x10 + cause / 256)

/-- A cause is raised: FAULT bit, first-fault tag, vector, error log. `source` is 0xFFFF for none. -/
def raise (s : State) (cause source detail : Nat) : State :=
  let s1 := logRaise s cause source detail
  tagTaken (match faultBit cause with
    | some (a, b) => setFaultBit s1 cause source a b
    | none => s1)

/-- No source (R518). -/
abbrev noSource : Nat := 0xFFFF

/-- A cause that is raised once per run for each key: later raises of the run are not raises. -/
def raiseOnce (s : State) (cause key source detail : Nat) : State :=
  if (cause, key) ∈ s.tb.once then s
  else
    let s1 := raise s cause source detail
    { s1 with tb := { s1.tb with once := (cause, key) :: s1.tb.once } }

/-- The Spindle's clocks run and operation has not ended: not after the loss of SYSCLK, a thermal trip or a driven boundary-scan
instruction (spec/02 R54, spec/13 R378, spec/16 R468). -/
def operating (s : State) : Bool := !s.tb.sysclkLost

/-! ### Bubbles (spec/16 R456) -/

/-- Opportunity `j` of a class with fraction `b` is a bubble. -/
def isBubble (b j : Nat) : Bool := decide (j % 64 * b / 64 < (j % 64 + 1) * b / 64)

/-! ### DDR4 by device physical address (R335, R336, R340) -/

/-- BB_DPA_SIZE. -/
def dpaSize (s : State) : Nat := reg64 s rBbDpaSize

/-- Bytes of DDR4 from `a`. -/
def memBytes (s : State) (a n : Nat) : List Byte := sgetMany dByte s.bb.mem a n

/-- Bytes stored in DDR4 from `a`. -/
def memPut (s : State) (a : Nat) (bs : List Byte) : State :=
  { s with bb := { s.bb with mem := ssetMany dByte a bs s.bb.mem } }

/-- Line `l` (64 bytes) reads as uncorrectable, or does no longer (R337, R431). -/
def setBad (s : State) (l : Nat) (b : Bool) : State := { s with bb := { s.bb with bad := sset dFalse l b s.bb.bad } }

/-- Line `l` reads as uncorrectable. -/
def lineBad (s : State) (l : Nat) : Bool := sget dFalse s.bb.bad l

/-- The lines that a write covers whole are no longer uncorrectable; a line it covers in part stays as it was (R337). -/
def clearWhole (s : State) (a n : Nat) : State :=
  (List.range (n / 64 + 1)).foldl (fun s i =>
    let l := ceilDiv a 64 + i
    if l * 64 + 64 ≤ a + n then setBad s l false else s) s

/-- Some line of [a, a + n) reads as uncorrectable. -/
def anyBad (s : State) (a n : Nat) : Bool :=
  (List.range (n / 64 + 2)).any (fun i => lineBad s (a / 64 + i) && (a / 64 + i) * 64 < a + n)

/-- A region entry as its registers hold it (R340). -/
structure Region where
  valid : Bool
  kind : Nat
  stream : Nat
  base : Nat
  size : Nat
deriving DecidableEq, Repr

/-- Region entry `r`. -/
def region (s : State) (r : Nat) : Region :=
  { valid := regBit s (rBbRgCtrl r) 31
    kind := regF s (rBbRgCtrl r) 30 28
    stream := regF s (rBbRgCtrl r) 19 16
    base := reg64 s (rBbRgBase r)
    size := reg64 s (rBbRgSize r) }

/-- [a, a + n) lies wholly in region entry `r`. -/
def inRegion (s : State) (r a n : Nat) : Bool :=
  let g := region s r
  g.valid && g.base ≤ a && a + n ≤ g.base + g.size && a + n ≤ dpaSize s

/-- The lowest valid region entry that holds [a, a + n) whole. -/
def regionOf (s : State) (a n : Nat) : Option Nat := (List.range 32).find? (fun r => inRegion s r a n)

/-- The kind of the region that holds [a, a + n); none outside every region. -/
def kindAt (s : State) (a n : Nat) : Option Nat := (regionOf s a n).map (fun r => (region s r).kind)

/-- Every byte of [a, a + n) lies in a valid region whose kind `p` takes. Regions are whole 4 KiB blocks (R340), so each block that
the bytes touch is asked once. -/
def everyBlock (s : State) (a n : Nat) (p : Nat → Bool) : Bool :=
  (List.range (ceilDiv (a % 4096 + n) 4096)).all (fun i =>
    match kindAt s (4096 * (a / 4096 + i)) 4096 with
    | some k => p k
    | none => false)

/-- A refused access (R343). -/
def refuseAccess (s : State) : State := countUp (raise s 0x0609 noSource 0) rBbRefusedCnt 1

/-- Channels of Loom die `d` that are in service, in channel order. -/
def dieChans (s : State) (d : Nat) : List Nat :=
  ((List.range 4).map (fun i => 4 * d + i)).filter (fun c => regBit s rBbMemStatus c)

/-- The channel capacity C of R332 in bytes: that of the lowest-numbered channel in service. -/
def chanCap (s : State) : Nat :=
  match (List.range 16).find? (fun c => regBit s rBbMemStatus c) with
  | some c => regF s (rBbChStatus c) 5 0 * 16 * 2 ^ 30
  | none => 0

/-- Base of zone `d` (R335). -/
def zoneBase (s : State) (d : Nat) : Nat :=
  ((List.range d).map (fun e => (dieChans s e).length * chanCap s)).sum

/-- End of zone `d` (R335). -/
def zoneEnd (s : State) (d : Nat) : Nat := zoneBase s d + (dieChans s d).length * chanCap s

/-- The channel and address within it that a DPA maps to (R335). -/
def dpaChannel (s : State) (dpa : Nat) : Option (Nat × Nat) :=
  match (List.range 4).find? (fun d => zoneBase s d ≤ dpa && dpa < zoneEnd s d) with
  | none => none
  | some d =>
    let a := dpa - zoneBase s d
    let unit := a / 4096
    let n := (dieChans s d).length
    match (dieChans s d)[unit % n]? with
    | some c => some (c, unit / n * 4096 + a % 4096)
    | none => none

/-! ### Eye scan points (spec/18 R516) -/

/-- The lane of EY register set `i` is lost: a point that runs there ends ABORTED with WHY 1, EY_ERRS kept. -/
def eyeLost (s : State) (i : Nat) : State :=
  if regBit s (rEyStatus i) 31 then setRegBit (setReg s (rEyStatus i) 0x28000000#32) (rEyCtrl i) 31 false else s

/-! ### What waits for Keep (spec/15 R435) -/

/-- Keep is occupied: a LOAD in its write pass, or the rewrite of a ZEROIZE (spec/17 R495, R502). The load of boot step S12 is
no command and occupies it not. -/
def keepBusy (s : State) : Bool :=
  (match s.kp.ld.job with | some j => j.cmd.isSome | none => false) || s.kp.wiping

/-- Something that Keep handles later, after all that arrived before it. -/
def keepLater (s : State) (x : KpItem) : State := { s with kp := { s.kp with waiting := s.kp.waiting ++ [x] } }

end Sys2Proof.Machine
end

