-- ==== Sys2Proof/Machine/SchedOps.lean ====
section
/-! DEFINITION. The job scheduler's queues (spec/09 R252-R256): descriptors, queue entries, auto jobs. -/

namespace Sys2Proof.Machine

/-- WF_Q_STATUS.HALTED of stream `n`. -/
def halted (s : State) (n : Nat) : Bool := regBit s (rWfQStatus n) 31
/-- HALTED set. -/
def setHalted (s : State) (n : Nat) (b : Bool) : State := setRegBit s (rWfQStatus n) 31 b

/-- The queue of stream `n`, head first. -/
def streamQueue (s : State) (n : Nat) : List Job := s.sched.queue.filter (fun j => j.stream == n)

/-- The jobs that take a place of the 64 of stream `n`: an auto job dropped at a full queue (R256) takes none. -/
def jobsQueued (s : State) (n : Nat) : Nat := ((streamQueue s n).filter (fun j => j.done != some 0x0347)).length

/-- QCOUNT of stream `n` made to agree with its queue. -/
def noteQueue (s : State) (n : Nat) : State := setF s (rWfQStatus n) 22 16 (jobsQueued s n)

/-- A job program of the image. -/
def progOf (s : State) (p : Nat) : Option Prog := s.jobs.progs.find? (fun q => q.num == p)

/-- PROG of a descriptor. -/
def descProg (d : List Byte) : Nat := leAt d 4 1 % 64
/-- ECLASS. -/
def descClass (d : List Byte) : Nat := leAt d 5 1 % 16
/-- SERIAL. -/
def descSerial (d : List Byte) : Bool := bitN (leAt d 5 1) 4
/-- IRQ. -/
def descIrq (d : List Byte) : Bool := bitN (leAt d 5 1) 5
/-- ADVANCE. -/
def descAdvance (d : List Byte) : Bool := bitN (leAt d 5 1) 6

/-- The descriptor is not refused (R253). -/
def descOk (s : State) (d : List Byte) : Bool :=
  leAt d 4 1 / 64 == 0 && leAt d 5 1 / 128 == 0 && leAt d 14 2 == 0
    && (match progOf s (descProg d) with | some p => decide (descClass d ≤ p.maxClass) | none => false)

/-- A job enters the queue of its stream; a descriptor that R253 refuses is to complete with 0x0340. -/
def enqueue (s : State) (n : Nat) (d : List Byte) (auto : Bool) (done : Option Nat) : State :=
  let bad := done.isNone && !descOk s d
  let s := if bad then raise s 0x0340 n 0 else s
  let j : Job := { num := s.sched.nextNum, stream := n, desc := d, auto := auto
                   done := if bad then some 0x0340 else done }
  noteQueue { s with sched := { s.sched with queue := s.sched.queue ++ [j], nextNum := s.sched.nextNum + 1 } } n

/-- The bytes of an auto job (R255): FRAMEID, IN and JOBID replaced in the template; IN is `inBytes`. -/
def autoDesc (s : State) (n tick : Nat) (inBytes : List Byte) : List Byte :=
  let tpl := ((List.range 16).map (fun i => leBytes 4 (reg s (rWfAutoTpl n i)).toNat)).flatten
  leBytes 4 (reg s (rWfAutoJobid n)).toNat ++ slice tpl 4 4 ++ leBytes 6 tick ++ slice tpl 14 2
    ++ inBytes ++ slice tpl 24 40

/-- The commit of a frame makes an auto job when WF_Q_CFG.AUTO is 1 (R255); at a full queue it completes with 0x0347 in
its place (R256). `dpa` is the DDR4 address of the frame's result record; of a record dropped under R328 there is none, and IN is
free (DESIGN CHOICE, log entry 94). -/
def autoJob (s : State) (n tick : Nat) (dpa : Option Nat) : State :=
  if !regBit s (rWfQCfg n) 30 then s
  else
    let r := match dpa with
      | some a => (leBytes 8 (2 ^ 60 + a), s)
      | none => freeBytes s 8
    let d := autoDesc s n tick r.1
    let s := r.2
    let id := (reg s (rWfAutoJobid n)).toNat
    let s := setRegN s (rWfAutoJobid n) ((id + 1) % 2 ^ 31 + 2 ^ 31)
    if 64 ≤ jobsQueued s n then
      enqueue (countUp (raise s 0x0347 n 0) (rWfQAutodrop n) 1) n d true (some 0x0347)
    else enqueue s n d true none

end Sys2Proof.Machine
end

