-- ==== Sys2Proof/Machine/Network.lean ====
section
/-! DEFINITION. Packets of Reed (spec/07 R186, R195-R202, R204): nodes, links, routes, the header flit, injection, and the oldest
packet at its destination. -/

namespace Sys2Proof.Machine

/-! ### Nodes (R196) -/

/-- The plane of tile `t` (1 warp, 2 weft, 0 without an image). -/
def planeOf (s : State) (t : Nat) : Nat := match s.image with | some i => i.planes.getD t 0 | none => 0

/-- The Loom die of stream `n`: that of its lanes. -/
def streamDie (s : State) (n : Nat) : Nat :=
  match (List.range 96).find? (fun i => regBit s (rBmLaneCfg i) 31 && regF s (rBmLaneCfg i) 27 24 == n) with
  | some i => i / 24
  | none => 0

/-- The node exists on this device (R196). -/
def nodeOk (s : State) (n : Nat) : Bool :=
  if n < 0x100 then decide (n < tileCount s)
  else if n < 0x140 then decide ((n - 0x100) / 16 < dieCount s) && decide (n % 16 ≤ 13)
  else decide (n ≤ 0x147)

/-- Treadle's node. -/
abbrev treadleNode : Nat := 0x140
/-- The capture elastic buffer of die `d`. -/
def captureNode (d : Nat) : Nat := 0x100 + 16 * d + 12
/-- The shuttle engine of the column of tile `t` (R3). -/
def engineNode (t : Nat) : Nat := 0x100 + 16 * (t / 64) + t % 8

/-- Where an endpoint is joined to Reed: a tile by die, column and row; a client of an outer station by die and number; a client
of the Spindle. -/
inductive Place where
  | tile (d x y : Nat)
  | edge (d k : Nat)
  | spindle (c : Nat)
deriving DecidableEq, Repr

/-- The place of node `n`. -/
def placeOf (n : Nat) : Place :=
  if n < 0x100 then .tile (n / 64) (n % 8) (n / 8 % 8)
  else if n < 0x140 then .edge ((n - 0x100) / 16) (n % 16)
  else .spindle (n % 8)

/-! ### Links (R186)

Reed's own nodes are numbered after the tiles' routers: the hub 256, the inner station of die d 257 + d, its outer station
261 + d, endpoint n 1024 + n. A station's inputs and outputs are its columns 0-7, then at the inner station 8 bridge links from 8
and 8 trunk links from 16, at the outer station 14 clients from 8 and 8 trunk links from 22. -/

/-- The hub. -/
abbrev hubNode : Nat := 256
/-- The inner station of die `d`. -/
def innerNode (d : Nat) : Nat := 257 + d
/-- The outer station of die `d`. -/
def outerNode (d : Nat) : Nat := 261 + d
/-- The queue of endpoint `n`. -/
def endNode (n : Nat) : Nat := 1024 + n

/-- The node, its input and the REED cycles to it behind output `out` of `node`: 1 cycle in a mesh router, the hub or a station, 4 on
a Spindle bridge with its inner station, 2 more on a trunk (R186, R188; log entry 90). -/
def link (node out : Nat) : Nat × Nat × Nat :=
  let d := node / 64
  let x := node % 8
  let y := node / 8 % 8
  if node < 256 then
    match out with
    | 0 => if y = 0 then (innerNode d, x, 1) else (node - 8, 2, 1)
    | 1 => (node + 1, 3, 1)
    | 2 => if y = 7 then (outerNode d, x, 1) else (node + 8, 0, 1)
    | 3 => (node - 1, 1, 1)
    | _ => (endNode node, 0, 1)
  else if node = hubNode then
    if out < 32 then (innerNode (out / 8), 8 + out % 8, 4) else (endNode (0x140 + (out - 32)), 0, 1)
  else if node < outerNode 0 then
    let d := node - innerNode 0
    if out < 8 then (64 * d + out, 0, 1)
    else if out < 16 then (hubNode, 8 * d + (out - 8), 3)
    else (outerNode d, 22 + (out - 16), 2)
  else if node < endNode 0 then
    let d := node - outerNode 0
    if out < 8 then (64 * d + 56 + out, 2, 1)
    else if out < 22 then (endNode (0x100 + 16 * d + (out - 8)), 0, 1)
    else (innerNode d, 16 + (out - 22), 3)
  else match placeOf (node - endNode 0) with
    | .tile d x y => (64 * d + 8 * y + x, 4, 1)
    | .edge d k => (outerNode d, 8 + k, 1)
    | .spindle c => (hubNode, 32 + c, 1)

/-! ### Routes (R198) -/

/-- Outputs along a row from column `x` to column `x'`. -/
def rowOuts (x x' : Nat) : List Nat := if x ≤ x' then List.replicate (x' - x) 1 else List.replicate (x - x') 3

/-- Outputs along a column from row `y` to row `y'`. -/
def colOuts (y y' : Nat) : List Nat := if y ≤ y' then List.replicate (y' - y) 2 else List.replicate (y - y') 0

/-- Outputs from an endpoint's first router or station to the hub. A client's bridge and trunk link is that of its column, k mod 8
(DESIGN CHOICE, log entry 90). -/
def toHub : Place → List Nat
  | .tile _ x y => List.replicate (y + 1) 0 ++ [8 + x]
  | .edge _ k => [22 + k % 8, 8 + k % 8]
  | .spindle _ => []

/-- Outputs from the hub on to an endpoint. -/
def fromHub : Place → List Nat
  | .tile d x y => [8 * d + x, x] ++ List.replicate y 2 ++ [4]
  | .edge d k => [8 * d + k % 8, 16 + k % 8, 8 + k]
  | .spindle c => [32 + c]

/-- The one route from `a` to `b` (R198), as the outputs it takes. -/
def routeOuts (a b : Place) : List Nat :=
  match a, b with
  | .tile d x y, .tile d' x' y' =>
    if d = d' then rowOuts x x' ++ colOuts y y' ++ [4] else toHub a ++ fromHub b
  | .tile d x y, .edge d' k =>
    if d = d' then rowOuts x (k % 8) ++ List.replicate (8 - y) 2 ++ [8 + k] else toHub a ++ fromHub b
  | .edge d _, .tile d' x y =>
    if d = d' then x :: List.replicate (7 - y) 0 ++ [4] else toHub a ++ fromHub b
  | .edge d _, .edge d' k => if d = d' then [8 + k] else toHub a ++ fromHub b
  | _, _ => toHub a ++ fromHub b

/-- The places that follow `(node, inp)` along the outputs, the last with no output. -/
def follow : Nat → Nat → List Nat → List Hop
  | node, inp, [] => [⟨node, inp, 0, 0⟩]
  | node, inp, o :: os =>
    let n := link node o
    ⟨node, inp, o, n.2.2⟩ :: follow n.1 n.2.1 os

/-- The route from node `src` to node `dst`, from the queue of the one to that of the other. -/
def routeOf (src dst : Nat) : List Hop := follow (endNode src) 0 (0 :: routeOuts (placeOf src) (placeOf dst))

/-! ### The header flit (R195) -/

/-- Payload flits. -/
def payloadFlits (p : Packet) : Nat := ceilDiv p.payload.length 16

/-- Flits of a packet: the header and the payload. -/
def packetFlits (p : Packet) : Nat := 1 + payloadFlits p

/-- The header flit of a packet. -/
def headerFlit (p : Packet) : List Byte :=
  leBytes 2 p.dst ++ leBytes 2 p.src ++ leBytes 1 (p.vc % 8 + 8 * (p.kind % 32)) ++ leBytes 1 (payloadFlits p)
    ++ leBytes 2 p.rtag ++ leBytes 4 p.addr ++ leBytes 2 p.chan ++ zeros 2

/-- The packet that flits spell: the header and LEN payload flits. None when they are not 1 + LEN flits or LEN is above 16. -/
def readFlits (b : List Byte) : Option Packet :=
  let len := leAt b 5 1
  if b.length ≠ 16 * (1 + len) ∨ 16 < len then none
  else some { dst := leAt b 0 2 % 2 ^ 10, src := leAt b 2 2 % 2 ^ 10, vc := leAt b 4 1 % 8, kind := leAt b 4 1 / 8
              rtag := leAt b 6 2, addr := leAt b 8 4, chan := leAt b 12 2, payload := b.drop 16 }

/-! ### Kinds (R197) -/

/-- WRITE. -/
abbrev kWrite : Nat := 1
/-- TOKEN. -/
abbrev kToken : Nat := 2
/-- CREDIT. -/
abbrev kCredit : Nat := 3
/-- SHUTTLE_REQ. -/
abbrev kShReq : Nat := 4
/-- SHUTTLE_RESP. -/
abbrev kShResp : Nat := 5
/-- REG_WR. -/
abbrev kRegWr : Nat := 6
/-- REG_RD. -/
abbrev kRegRd : Nat := 7
/-- REG_RESP. -/
abbrev kRegResp : Nat := 8
/-- C1_COMMIT. -/
abbrev kCommit : Nat := 9
/-- C1_RECORD. -/
abbrev kRecord : Nat := 10
/-- TELEMETRY. -/
abbrev kTelemetry : Nat := 11

/-- The VC of a kind; none for a reserved kind. -/
def kindVc (k : Nat) : Option Nat :=
  match k with
  | 1 | 2 | 4 => some 0
  | 3 | 5 => some 1
  | 6 | 7 => some 3
  | 8 => some 4
  | 9 | 10 => some 2
  | 11 => some 5
  | _ => none

/-- The traffic class of a VC (R197): C3 on VC0 and VC1, C1 on VC2, C2 on VC3 and VC4, C4 on VC5. -/
def vcClass (vc : Nat) : Nat :=
  match vc with
  | 0 | 1 => 3
  | 2 => 1
  | 3 | 4 => 2
  | _ => 4

/-! ### Injection (R196) -/

/-- Discarded flits and packets counted (RD_DROP_CNT). -/
def dropped (s : State) (n : Nat) : State := countUp s rRdDropCnt n

/-- A packet between a warp tile and a weft tile (R23). -/
def crossesPlanes (s : State) (p : Packet) : Bool :=
  decide (p.src < 256) && decide (p.dst < 256)
    && ((planeOf s p.src == 2 && planeOf s p.dst == 1) || (planeOf s p.src == 1 && planeOf s p.dst == 2))

/-- A packet that its endpoint may inject. -/
def packetOk (s : State) (p : Packet) : Bool := nodeOk s p.dst && !crossesPlanes s p

/-- The packet at the start of its route: its flits stand in its source's queue. -/
def routed (s : State) (p : Packet) : Packet :=
  match routeOf p.src p.dst with
  | h :: hs => { p with way := (h, List.replicate (packetFlits p) s.rd.now) :: hs.map (fun h => (h, [])) }
  | [] => p

/-- A packet is injected, or discarded with cause 0x0404 (R196). -/
def inject (s : State) (p : Packet) : State :=
  if packetOk s p then { s with rd := { s.rd with packets := s.rd.packets ++ [routed s p] } }
  else dropped (raise s 0x0404 p.src 0) 1

/-- RTAG of a WRITE: the tag of a ring slot in [3:0] and [4] when it fills one, and in [8:5] the bytes of the last flit that are padding
(DESIGN CHOICE, log entry 90). -/
def writeTag (slot : Option Nat) (n : Nat) : Nat :=
  (match slot with | some g => 16 + g % 16 | none => 0) + 32 * (16 * ceilDiv n 16 - n)

/-- WRITE packets for bytes that go to `a` of tile `dst`, at most 256 bytes a packet (R195). -/
def injectWrites (s : State) (src dst a : Nat) (bs : List Byte) (slot : Option Nat) : State :=
  (List.range (ceilDiv bs.length 256)).foldl (fun s i =>
    let b := (bs.drop (256 * i)).take 256
    inject s { dst := dst, src := src, vc := 0, kind := kWrite, rtag := writeTag slot b.length, addr := a + 256 * i, chan := 0,
               payload := b }) s

/-- Packets of kind `k` that wait whole in the queue of node `src`. -/
def queuedAt (s : State) (src k : Nat) : Nat :=
  (s.rd.packets.filter (fun p => p.src == src && p.kind == k
    && (match p.way with | w :: _ => w.2.length == packetFlits p | [] => false))).length

/-! ### Arrival (R204) -/

/-- Every flit of the packet has reached its destination. -/
def delivered (s : State) (p : Packet) : Bool :=
  match p.way.getLast? with
  | some w => w.2.length == packetFlits p && w.2.all (· ≤ s.rd.now)
  | none => false

/-- The oldest packet from `src` to `dst` on `vc`, when it is of kind `k` and has arrived (R204). -/
def arriving (s : State) (src dst vc k : Nat) : Option Packet :=
  match s.rd.packets.find? (fun p => p.src == src && p.dst == dst && p.vc == vc) with
  | some p => if p.kind = k ∧ delivered s p then some p else none
  | none => none

/-- What the flits of a packet meet on their way (R208): 1 a corrected error, 2 an uncorrectable one, which poisons it. -/
def flitsMeet (s : State) (p : Packet) (ecc : Nat) : State × Packet :=
  match ecc with
  | 0 => (s, p)
  | 1 => (countUpF s rRdEccCnt 15 0 1, p)
  | _ => (countUpF (raise s 0x0401 noSource 0) rRdEccCnt 31 16 1, { p with poison := true })

/-- The packet leaves Reed; `ecc` says what its flits met on their way. -/
def takePacket (s : State) (p : Packet) (ecc : Nat) : State × Packet :=
  flitsMeet { s with rd := { s.rd with packets := s.rd.packets.erase p } } p ecc

/-- The payload as the receiver takes it: that of a poisoned packet has no value the spec states, so it is free. -/
def received (s : State) (p : Packet) : List Byte × State :=
  if p.poison then freeBytes s p.payload.length else (p.payload, s)

end Sys2Proof.Machine
end

