-- ==== Sys2Proof/Machine/PeerOps.lean ====
section
/-! DEFINITION. Kwengo as other blocks use it (spec/14): ports, messages to send (R393), forwarded result records
(R397). -/

namespace Sys2Proof.Machine

/-- A port that has not come up. -/
abbrev dPort : Nat → PeerPort := fun _ => {}
/-- Port `p`. -/
def port (s : State) (p : Nat) : PeerPort := sget dPort s.kw.ports p
/-- Port `p` set. -/
def setPort (s : State) (p : Nat) (x : PeerPort) : State :=
  { s with kw := { s.kw with ports := sset dPort p x s.kw.ports } }

/-- KW_PORT_STATUS.STATE: 0 OFF, 1 TRAIN, 2 UP, 3 DOWN. -/
def portState (s : State) (p : Nat) : Nat := regF s (rKwPortStatus p) 31 29

/-- STATE set; a change raises the port's vector (R437). -/
def setPortState (s : State) (p v : Nat) : State :=
  if portState s p = v then s else msix (setF s (rKwPortStatus p) 31 29 v) (0x50 + p)

/-- KW_DEVID. -/
def devId (s : State) : Nat := regF s rKwDevid 11 0

/-- The head of a message (R393) with its bytes 8-15. -/
def msgHead (ty flags len src dst : Nat) (rest : List Byte) : List Byte :=
  leBytes 1 ty ++ leBytes 1 flags ++ leBytes 2 len ++ leBytes 2 src ++ leBytes 2 dst ++ padTo 8 rest

/-- A message queued on a port; a port that is not UP holds no queue (R390). -/
def portSend (s : State) (p vl : Nat) (bs : List Byte) : State :=
  if portState s p = 2 then
    let x := port s p
    setPort s p { x with txq := x.txq ++ [(vl, bs)] }
  else s

/-- The partner's DEVID. -/
def partner (s : State) (p : Nat) : Nat := regF s (rKwPortPartner p) 11 0

/-- The port in state UP whose partner is device `d` (R395). -/
def portTo (s : State) (d : Nat) : Option Nat :=
  (List.range 8).find? (fun p => portState s p == 2 && regBit s (rKwPortPartner p) 31 && partner s p == d)

/-- A result record passes the filters of KW_FWD (R397). -/
def forwards (s : State) (n : Nat) (bytes : List Byte) : Bool :=
  let lost := (bytes.getD 6 0).toNat / 16 == 2
  let accept := bitN (bytes.getD 7 0).toNat 0
  regBit s (rKwFwd n) 31 && (if lost then regBit s (rKwFwd n) 29 else !regBit s (rKwFwd n) 30 || accept)

/-- A result record offered to port `p`: queued as an EVENT, or dropped at 256 queued records (R397). -/
def forwardOn (s : State) (p : Nat) (bytes : List Byte) : State :=
  if portState s p ≠ 2 then s
  else if 256 ≤ ((port s p).txq.filter (fun m => m.1 == 1)).length then
    countUp (raiseOnce s 0x0708 0 p 0) (rKwFwdDrop p) 1
  else portSend s p 1 (msgHead 0x10 0 80 (devId s) (partner s p) [] ++ padTo 64 bytes)

/-- The record of a frame of stream `n` forwarded on the ports of KW_FWD (R397). -/
def forwardRecord (s : State) (n : Nat) (bytes : List Byte) : State :=
  if forwards s n bytes then
    ((List.range 8).filter (fun p => regBit s (rKwFwd n) p)).foldl (fun s p => forwardOn s p bytes) s
  else s

end Sys2Proof.Machine
end

