-- ==== Sys2Proof/Machine/Keccak.lean ====
section
/-! DEFINITION. The Keccak functions that the spec names (spec/13 R369, R370 SHA3-256; spec/17 R475 SHAKE256 and KMAC256), as FIPS 202
and SP 800-185 define them. A state is one number of 1,600 bits: bit 64 (5 y + x) + z is A[x, y, z] of FIPS 202, so the bytes of
the string are its bytes, low byte first. -/

namespace Sys2Proof.Machine

/-- Lane (x, y) of a state, both coordinates modulo 5. -/
def laneAt (a x y : Nat) : Nat := a / 2 ^ (64 * (5 * (y % 5) + x % 5)) % 2 ^ 64

/-- A lane turned by `n` towards z = 63. -/
def turnLane (n v : Nat) : Nat := v * 2 ^ n % 2 ^ 64 + v / 2 ^ (64 - n)

/-- The state whose lane (x, y) is `f x y`. -/
def ofLanes (f : Nat → Nat → Nat) : Nat := ((List.range 25).map (fun i => f (i % 5) (i / 5) * 2 ^ (64 * i))).sum

/-- The parity of column x, by z. -/
def columnParity (a x : Nat) : Nat := (List.range 5).foldl (fun c y => c ^^^ laneAt a x y) 0

/-- Theta: each lane takes up the parities of the column before it and, turned by 1, of the column after it. -/
def theta (a : Nat) : Nat :=
  a ^^^ ofLanes (fun x _ => columnParity a (x + 4) ^^^ turnLane 1 (columnParity a (x + 1)))

/-- The way of rho through the 24 lanes off the origin, from (x, y) at step t: each lane, where pi puts it - which is the next
lane of the way - and its offset (t + 1)(t + 2) / 2. -/
def rhoWay : Nat → Nat → Nat → Nat → List ((Nat × Nat) × (Nat × Nat) × Nat)
  | 0, _, _, _ => []
  | n + 1, t, x, y =>
    let y' := (2 * x + 3 * y) % 5
    ((x, y), (y, y'), (t + 1) * (t + 2) / 2 % 64) :: rhoWay n (t + 1) y y'

/-- Rho and pi: the lane at the origin stays. -/
def rhoPi (a : Nat) : Nat :=
  laneAt a 0 0 + ((rhoWay 24 0 1 0).map (fun w =>
    turnLane w.2.2 (laneAt a w.1.1 w.1.2) * 2 ^ (64 * (5 * w.2.1.2 + w.2.1.1)))).sum

/-- Chi: each bit takes up the next one's complement times the one after it, along x. -/
def chi (a : Nat) : Nat :=
  let ahead := fun k => ofLanes (fun x y => laneAt a (x + k) y)
  a ^^^ ((ahead 1 ^^^ (2 ^ 1600 - 1)) &&& ahead 2)

/-- One step of the register behind rc: x^8 + x^6 + x^5 + x^4 + 1. -/
def rcStep (r : Nat) : Nat := if r < 128 then 2 * r else 2 * r ^^^ 0x171

/-- The constant of a round that starts at register `r`, from bit 2^j - 1 on, and the register after its 7 - j steps, by fuel. -/
def iotaWord : Nat → Nat → Nat → Nat × Nat
  | 0, _, r => (0, r)
  | n + 1, j, r =>
    let w := iotaWord n (j + 1) (rcStep r)
    (r % 2 * 2 ^ (2 ^ j - 1) + w.1, w.2)

/-- Rounds of Keccak-p[1600] from register `r` on. -/
def rounds : Nat → Nat → Nat → Nat
  | 0, _, a => a
  | n + 1, r, a =>
    let w := iotaWord 7 0 r
    rounds n w.2 (chi (rhoPi (theta a)) ^^^ w.1)

/-- Keccak-f[1600]. -/
def keccakF (a : Nat) : Nat := rounds 24 1 a

/-- Message bytes padded to a whole number of blocks of `rate` bytes: the suffix bits of the function, then a last bit. -/
def keccakPad (rate suffix : Nat) (msg : List Byte) : List Byte :=
  let r := rate - msg.length % rate
  if r = 1 then msg ++ [BitVec.ofNat 8 (suffix ||| 0x80)]
  else msg ++ BitVec.ofNat 8 suffix :: (zeros (r - 2) ++ [0x80#8])

/-- Output squeezed in blocks of `rate` bytes, by fuel. -/
def squeeze (rate : Nat) : Nat → Nat → List Byte
  | 0, _ => []
  | n + 1, a => leBytes rate a ++ squeeze rate n (keccakF a)

/-- The sponge over the blocks of a padded message, from the empty state: `out` bytes. -/
def sponge (rate suffix out : Nat) (msg : List Byte) : List Byte :=
  let a := (chunks rate (keccakPad rate suffix msg)).foldl (fun a bs => keccakF (a ^^^ ofLe bs)) 0
  (squeeze rate (out / rate + 1) a).take out

/-- SHA3-256. -/
def sha3_256 (msg : List Byte) : List Byte := sponge 136 0x06 32 msg

/-- SHAKE256. -/
def shake256 (out : Nat) (msg : List Byte) : List Byte := sponge 136 0x1F out msg

/-- The bytes of a number, high byte first, at least one. -/
def beBytesMin (v : Nat) : List Byte :=
  let n := max 1 ((List.range 9).foldl (fun m i => if 256 ^ i ≤ v then i + 1 else m) 0)
  (leBytes n v).reverse

/-- left_encode of SP 800-185. -/
def leftEncode (v : Nat) : List Byte := BitVec.ofNat 8 (beBytesMin v).length :: beBytesMin v

/-- right_encode of SP 800-185. -/
def rightEncode (v : Nat) : List Byte := beBytesMin v ++ [BitVec.ofNat 8 (beBytesMin v).length]

/-- encode_string of SP 800-185. -/
def encodeString (bs : List Byte) : List Byte := leftEncode (8 * bs.length) ++ bs

/-- bytepad of SP 800-185. -/
def bytepad (w : Nat) (bs : List Byte) : List Byte :=
  let x := leftEncode w ++ bs
  x ++ zeros ((w - x.length % w) % w)

/-- KMAC256 with `out` bytes and customisation `cust`. -/
def kmac256 (key msg : List Byte) (out : Nat) (cust : List Byte) : List Byte :=
  let name : List Byte := [0x4B, 0x4D, 0x41, 0x43]
  sponge 136 0x04 out
    (bytepad 136 (encodeString name ++ encodeString cust)
      ++ bytepad 136 (encodeString key) ++ msg ++ rightEncode (8 * out))

end Sys2Proof.Machine
end

