-- ==== Sys2Proof/Machine/Provenance.lean ====
section
/-! DEFINITION. The provenance chain (spec/13 R369-R373), snapshot requests and the latch (spec/18 R507-R510). -/

namespace Sys2Proof.Machine

/-- No chain yet. -/
abbrev dChain : Nat → Chain := fun _ => {}

/-- The chain of stream `n`. -/
def chain (s : State) (n : Nat) : Chain := sget dChain s.ob.chains n

/-- The chain of stream `n` set. -/
def setChain (s : State) (n : Nat) (c : Chain) : State :=
  { s with ob := { s.ob with chains := sset dChain n c s.ob.chains } }

/-- The genesis of stream `n` (R370): LINK before block 0. -/
def genesis (s : State) (n : Nat) : List Byte :=
  sha3_256 ([0x45, 0x58, 0x32, 0x30, 0x50, 0x56] ++ leBytes 4 (reg s rBbRunid).toNat ++ leBytes 1 n ++ [0]
    ++ leBytes 2 (regF s rTbFrameCfg 12 0) ++ leBytes 2 (tbSlot s))

/-- The program digest of the loaded image; empty without one. -/
def progDigest (s : State) : List Byte := match s.image with | some i => i.progDigest | none => []
/-- The weight digest of the loaded image; empty without one. -/
def weightDigest (s : State) : List Byte := match s.image with | some i => i.weightDigest | none => []

/-- The FLAGS byte of a link record (R372): FINAL, EQUALISED (R290), MODIFIED (R298). -/
def linkFlags (s : State) (final : Bool) : Nat :=
  b2n final + 2 * b2n (regBit s rLdStatus 29) + 4 * b2n (regBit s rLdStatus 28)

/-- The open block of stream `n` closes (R370): INPUT, LINK, a link record to write (R372), PV_LINK. A block with no
frame has nothing to close. -/
def closeBlock (s : State) (n : Nat) (final : Bool) : State :=
  let c := chain s n
  if c.count = 0 then s
  else
    let input := sha3_256 c.msg
    let prev := if c.block = 0 then genesis s n else c.link
    let link := sha3_256 (padTo 32 (progDigest s) ++ padTo 32 (weightDigest s) ++ input ++ prev)
    let bytes := leBytes 8 c.block ++ leBytes 6 c.first ++ leBytes 2 c.count ++ leBytes 1 n
      ++ leBytes 1 (linkFlags s final) ++ zeros 2 ++ leBytes 4 c.block ++ zeros 8 ++ input ++ link ++ zeros 32
    let s := setChain s n { c with msg := [], count := 0, block := c.block + 1, link := link,
                                   links := c.links ++ [⟨bytes, c.first, c.last⟩] }
    (List.range 8).foldl (fun s k => setRegN s (rPvLink n k) (leAt link (4 * k) 4)) s

/-- A delivered frame enters the input digest of its block (R369); the 4,096th frame closes the block. -/
def provDeliver (s : State) (n tick : Nat) (damaged : Bool) (data : List Byte) : State :=
  let c := chain s n
  let c := { c with msg := c.msg ++ leBytes 6 tick ++ leBytes 1 (b2n damaged) ++ zeros 1 ++ data
                    first := if c.count = 0 then tick else c.first
                    last := tick
                    count := c.count + 1 }
  let s := setChain s n c
  let s := setRegN s (rPvDeliv n) ((reg s (rPvDeliv n)).toNat + 1)
  if c.count = 4096 then closeBlock s n false else s

/-- The chains at a RUN_SYNC edge that begins a run: each starts at its genesis; PV_PROD and PV_DELIV are cleared.
Link records that still wait are written later (R370, R373). -/
def provRunStart (s : State) : State :=
  (List.range 16).foldl (fun s n =>
    let s := setChain s n { links := (chain s n).links, stale := (chain s n).links.length }
    setRegN (setRegN s (rPvProd n) 0) (rPvDeliv n) 0) s

/-- Every stream's last block closes at the end of a run (R370). -/
def provRunEnd (s : State) : State := (List.range 16).foldl (fun s n => closeBlock s n true) s

/-- PROV of frame number `c` of a stream (R371). -/
def provIndex (c : Nat) : Nat := c / 4096 % 2 ^ 32

/-! ### Snapshot requests -/

/-- SN_CFG.DELAY; values below 2 are treated as 2. -/
def snapDelay (s : State) : Nat := max 2 (regF s rSnCfg 7 0)

/-- A request is missed or replaced: counted, and raised once per run (R509). -/
def snapMissed (s : State) : State := countUp (raiseOnce s 0x0BB1 0 noSource 0) rSnMissed 1

/-- A request for latch tick `tick` from source bit `src` (0 SNAP_IN, 1 Treadle, 2 timed) (R508, R509). -/
def snapRequest (s : State) (tick src : Nat) : State :=
  if !runActive s then s
  else if regBit s rSnStatus 31 then snapMissed s
  else
    match s.ob.pendTick with
    | none =>
      let s := setF (setRegBit s rSnStatus 30 true) rSnStatus 2 0 (2 ^ src)
      { s with ob := { s.ob with pendTick := some tick } }
    | some t =>
      if tick = t then setRegBit s rSnStatus src true
      else if tick < t then
        let s := setF (snapMissed s) rSnStatus 2 0 (2 ^ src)
        { s with ob := { s.ob with pendTick := some tick } }
      else snapMissed s

/-! ### The latch (R507, R510) -/

/-- What every block holds now. -/
def takeSnap (s : State) : Snap :=
  { regs := s.regs, tb := s.tb, bm := s.bm, tr := s.tr, bb := s.bb, ts := s.ts, tile := s.tile, warp := s.warp
    weft := s.weft, sched := s.sched, kw := s.kw, pm := s.pm, marks := s.marks, image := s.image }

/-- Every bank latches: HELD, SN_TAG. -/
def latchBanks (s : State) (tag : Nat) : State :=
  let s := setReg64 { s with snap := some (takeSnap s) } rSnTag tag
  setRegBit (setRegBit s rSnStatus 30 false) rSnStatus 31 true

/-- The latch edge (R507, R510): once the pending latch tick has begun in a run, the banks latch and SNAP_OUT goes high. -/
def snapLatch (s : State) : State :=
  match s.ob.pendTick with
  | none => s
  | some t =>
    if !runActive s || decide (s.tb.tick < t) then s
    else
      let s := latchBanks s (t * 256)
      { s with ob := { s.ob with pendTick := none, outTick := some t }, pins := { s.pins with snapOut := true } }

/-- SNAP_OUT falls one tick period after the latch edge (R510). -/
def snapOutFalls (s : State) : State :=
  match s.ob.outTick with
  | none => s
  | some t =>
    if s.tb.tick ≤ t then s
    else { s with ob := { s.ob with outTick := none }, pins := { s.pins with snapOut := false } }

end Sys2Proof.Machine
end

