-- ==== Sys2Proof/Machine/Treadle.lean ====
section
/-! DEFINITION. Treadle (spec/11): scores, comparators, windows, state machines, the decision, TRIG_OUT, result and
lost-frame records, and the commands EVALUATION, TREADLE_TIMER_EXPIRY, TRIG_OUT_PULSE_END, FORCE and TRIG_IN_EDGE. -/

namespace Sys2Proof.Machine

/-! ### The image's stream records (R286) and the pulses they fix (R300) -/

/-- Stream record `n` of the loaded image; a disabled one without an image. -/
def streamRec (s : State) (n : Nat) : StreamRec :=
  match s.image with
  | some i => i.streams.getD n {}
  | none => {}

/-- Stream `n` takes part in Treadle (R330). -/
def streamOn (s : State) (n : Nat) : Bool := regBit s (rBmStreamCfg n) 31 && (streamRec s n).en

/-- L of the loaded image. -/
def imageL (s : State) : Nat := match s.image with | some i => i.l | none => 1

/-- The evaluation pulse e_s (R300). -/
def evalPulse (s : State) (n : Nat) : Nat := (streamRec s n).deliv + imageL s * framePulses s

/-- The decision latency D_s in frame periods (R300). -/
def decisionLatency (s : State) (n : Nat) : Nat := ceilDiv (evalPulse s n + 2) (framePulses s)

/-- The pulse within its frame period at which stream `n` decides (R301). -/
def decisionPulse (s : State) (n : Nat) : Nat := (evalPulse s n + 2) % framePulses s

/-! ### FP32 comparison of scores and thresholds (R305) -/

/-- A NaN pattern of FP32. -/
def f32IsNaN (b : Nat) : Bool := fld b 30 23 == 255 && fld b 22 0 != 0

/-- The FP32 patterns in the order of their values: -0 and +0 have the same key. -/
def f32Key (b : Nat) : Int := if bitN b 31 then -(fld b 30 0 : Nat) else (fld b 30 0 : Nat)

/-! ### Scores and comparators (R304, R305) -/

/-- The score that nothing has written. -/
abbrev dScore : Nat → Score := fun _ => {}

/-- Score `k` of stream `n` as an evaluation of frame `tick` reads it, and whether it is missing. -/
def readScore (s : State) (n k tick : Nat) : Nat × Bool :=
  let sc := sget dScore s.tr.scores (16 * n + k)
  if sc.frame = some tick then (sc.bits, false) else (0, true)

/-- Comparator `k` of stream `n` for frame `tick`. -/
def comparator (s : State) (n k tick : Nat) : Bool :=
  if !regBit s (rTrCmp n k) 5 then false
  else
    let sn := regF s (rTrCmp n k) 3 0
    let x := (readScore s n sn tick).1
    let t := (reg s (rTrThr n k)).toNat
    let less := regBit s (rTrCmp n k) 4
    if regBit s (rTrScoreFmt n) sn then
      if f32IsNaN x || f32IsNaN t then false
      else if less then f32Key x < f32Key t else f32Key t ≤ f32Key x
    else if less then sextI 32 x < sextI 32 t else sextI 32 t ≤ sextI 32 x

/-- An enabled comparator of stream `n` reads a missing score (SCORE_MISSING). -/
def scoreMissing (s : State) (n tick : Nat) : Bool :=
  (List.range 16).any (fun k =>
    regBit s (rTrCmp n k) 5 && (readScore s n (regF s (rTrCmp n k) 3 0) tick).2)

/-! ### Windows (R55, R56, R306-R310) -/

/-- The TRIG_IN input that nothing has reached. -/
abbrev dTrigIn : Nat → TrigIn := fun _ => {}
/-- TRIG_IN input `i`. -/
def trigIn (s : State) (i : Nat) : TrigIn := sget dTrigIn s.tr.trigIn i
/-- TRIG_IN input `i` set. -/
def setTrigIn (s : State) (i : Nat) (t : TrigIn) : State :=
  { s with tr := { s.tr with trigIn := sset dTrigIn i t s.tr.trigIn } }

/-- The offset of TRIG_IN `i` (R55). -/
def trigSkew (s : State) (i : Nat) : Int := sextI 16 (regF s (rTbSkewTrigIn i) 15 0)
/-- The offset of channel `c` of stream `n` (R55). -/
def chanSkew (s : State) (n c : Nat) : Int := sextI 16 (regF s (rBmSkew n c) 15 0)

/-- The half-open window of R56: open ≤ t < close. An event of negative calibrated time lies in no window (R57). -/
def inWindow (o c t : Int) : Bool := 0 ≤ t && o ≤ t && t < c

/-- OPEN of window `w` of stream `n` for frame `tick` (R306). -/
def winOpen (s : State) (n w tick : Nat) : Int := (tick * 256 : Nat) + sextI 32 (reg s (rTrWinOpen n w)).toNat
/-- CLOSE of window `w` of stream `n` for frame `tick` (R306). -/
def winClose (s : State) (n w tick : Nat) : Int := (tick * 256 : Nat) + sextI 32 (reg s (rTrWinClose n w)).toNat

/-- Calibrated times of the recorded edges of TRIG_IN `i`. -/
def edgeTimes (s : State) (i : Nat) : List Int := (trigIn s i).edges.map (fun (e : Nat) => (e : Int) + trigSkew s i)

/-- The Beam stream that nothing has reached. -/
abbrev dStream : Nat → StreamSt := fun _ => {}
/-- Stream `n` of Beam. -/
def bmStream (s : State) (n : Nat) : StreamSt := sget dStream s.bm.streams n
/-- Stream `n` of Beam set. -/
def setBmStream (s : State) (n : Nat) (x : StreamSt) : State :=
  { s with bm := { s.bm with streams := sset dStream n x s.bm.streams } }

/-- The calibrated time of channel `c` of stream `n` in its frame of tick `tick`, when it has an event (R308). -/
def channelTime (s : State) (n c tick : Nat) : Option Int :=
  match (bmStream s n).chTimes.find? (fun e => e.1 == tick) with
  | none => none
  | some e =>
    match e.2[c]? with
    | none => none
    | some v => if v = 0xFFFF then none else some ((tick * 256 + v : Nat) + chanSkew s n c)

/-- The flag of window `w` of stream `n` for frame `tick`. -/
def windowFlag (s : State) (n w tick : Nat) : Bool :=
  let src := rTrWinSrc n w
  if !regBit s src 31 then false
  else if regBit s src 30 then
    match channelTime s (regF s src 13 10) (regF s src 9 4) tick with
    | some t => inWindow (winOpen s n w tick) (winClose s n w tick) t
    | none => false
  else (edgeTimes s (regF s src 3 0)).any (inWindow (winOpen s n w tick) (winClose s n w tick))

/-- A window of stream `n` overlaps the span of edges dropped on its input (EDGE_LOST, R310). -/
def edgeLost (s : State) (n tick : Nat) : Bool :=
  (List.range 16).any (fun w =>
    let src := rTrWinSrc n w
    regBit s src 31 && !regBit s src 30 &&
      match (trigIn s (regF s src 3 0)).dropSpan with
      | none => false
      | some (a, b) => winOpen s n w tick ≤ b && a < winClose s n w tick
                        && winOpen s n w tick < winClose s n w tick)

/-- The tick of the next frame of stream `n` still to be evaluated. -/
def nextEval (s : State) (n : Nat) : Nat :=
  match s.tr.undecided.find? (fun u => u.stream == n) with
  | some u => u.tick
  | none => tbSlot s + tbM s * (bmStream s n).delivered

/-- Edges that lie below the open of every window on input `i` of every frame still to be evaluated leave the history
(R307). -/
def pruneEdges (s : State) (i : Nat) : State :=
  let opens := ((List.range 16).filter (streamOn s)).flatMap (fun n =>
    ((List.range 16).filter (fun w => regBit s (rTrWinSrc n w) 31 && !regBit s (rTrWinSrc n w) 30
        && regF s (rTrWinSrc n w) 3 0 == i)).map (fun w => winOpen s n w (nextEval s n)))
  let t := trigIn s i
  let es := t.edges.filter (fun (e : Nat) => opens.any (fun o => o ≤ (e : Int) + trigSkew s i))
  setTrigIn s i { t with edges := es, below := t.below || es.length < 64 }

/-! ### Tables and machines (R311-R316) -/

/-- The key of a table word: TR_IA_SEL without its reserved bits. -/
def trKey (table n m st tr w : Nat) : Nat :=
  table * 2 ^ 30 + n * 2 ^ 26 + m * 2 ^ 23 + st * 2 ^ 18 + tr * 2 ^ 16 + w

/-- A word of the Treadle tables. -/
def trWord (s : State) (key : Nat) : Nat := (sget dDWord s.tr.tables key).toNat

/-- Machine configuration word `w` of machine `m` of stream `n`. -/
def machCfg (s : State) (n m w : Nat) : Nat := trWord s (trKey 2 n m 0 0 w)
/-- EN of a machine. -/
def machOn (s : State) (n m : Nat) : Bool := machCfg s n m 0 % 2 == 1
/-- CMPj of a machine. -/
def machCmp (s : State) (n m j : Nat) : Nat := fld (machCfg s n m (1 + j / 2)) (32 * (j % 2) + 31) (32 * (j % 2))
/-- PREj of a machine. -/
def machPre (s : State) (n m j : Nat) : Nat := fld (machCfg s n m (3 + j / 2)) (32 * (j % 2) + 31) (32 * (j % 2))
/-- TPREj of a machine. -/
def machTpre (s : State) (n m j : Nat) : Nat := if j = 0 then fld (machCfg s n m 5) 23 0 else fld (machCfg s n m 5) 55 32
/-- Input selector `k` of a machine. -/
def machSel (s : State) (n m k : Nat) : Nat :=
  fld (trWord s (trKey 1 n m 0 0 (k / 4))) (16 * (k % 4) + 15) (16 * (k % 4))
/-- Word `w` of transition `tr` of state `st`. -/
def transWord (s : State) (n m st tr w : Nat) : Nat := trWord s (trKey 0 n m st tr w)

/-- A machine in its state at the start of a run (R311). -/
abbrev dMachine : Nat → Machine := fun _ => {}
/-- Machine `m` of stream `n`. -/
def machine (s : State) (n m : Nat) : Machine := sget dMachine s.tr.machines (8 * n + m)
/-- Machine `m` of stream `n` set. -/
def setMachine (s : State) (n m : Nat) (x : Machine) : State :=
  { s with tr := { s.tr with machines := sset dMachine (8 * n + m) x s.tr.machines } }

/-- What an evaluation reads of the frame beside the stream's own machines. -/
structure EvalIn where
  n : Nat
  tick : Nat
  mark : Nat
  fe : Nat
  damaged : Bool
  holdover : Bool
  gate : Bool
  due : Bool
deriving DecidableEq, Repr

/-- The input that a selector names (R312). Reserved selectors read 0; an enabled machine with one cannot be armed. -/
def selectorBit (s : State) (e : EvalIn) (sel : Nat) : Bool :=
  match fld sel 15 12 with
  | 0x1 => comparator s (fld sel 7 4) (fld sel 3 0) e.tick
  | 0x2 => windowFlag s e.n (fld sel 3 0) e.tick
  | 0x3 => machCmp s e.n (fld sel 4 2) (fld sel 1 0) ≤ (machine s e.n (fld sel 4 2)).cnt.getD (fld sel 1 0) 0
  | 0x4 => (machine s e.n (fld sel 3 1)).texp.getD (fld sel 0 0) false
  | 0x5 => bitN (machine s e.n (fld sel 4 2)).flags (fld sel 1 0)
  | 0x6 => (machine s e.n (fld sel 7 5)).st == fld sel 4 0
  | 0x7 => bitN e.mark (fld sel 3 0)
  | 0x8 =>
    match fld sel 2 0 with
    | 0 => e.damaged
    | 1 => e.holdover
    | 2 => e.gate
    | 3 => e.due
    | _ => false
  | 0x9 => fld sel 2 0 ≤ 5 && bitN e.fe (fld sel 2 0)
  | 0xA => true
  | _ => false

/-- Term `k` of a transition is true (R313). -/
def termTrue (s : State) (bits : List Bool) (n m st tr k : Nat) : Bool :=
  let must1 := transWord s n m st tr (2 * k)
  let must0 := transWord s n m st tr (2 * k + 1)
  (List.range 64).all (fun i =>
    (!bitN must1 i || bits.getD i false) && (!bitN must0 i || !bits.getD i false))

/-- The action word of the transition that machine `m` takes, if any (R313). -/
def takenAction (s : State) (e : EvalIn) (m : Nat) : Option Nat :=
  if !machOn s e.n m then none
  else
    let st := (machine s e.n m).st
    let bits := (List.range 64).map (fun k => selectorBit s e (machSel s e.n m k))
    ((List.range 4).find? (fun tr =>
      let a := transWord s e.n m st tr 8
      let en := fld a 45 42
      bitN a 41 && (en == 0 || (List.range 4).any (fun k => bitN en k && termTrue s bits e.n m st tr k)))).map
      (fun tr => transWord s e.n m st tr 8)

/-- A machine after its action word (R314-R316); a timer that it starts counts at the tick edges after tick `at_` (R317). -/
def applyAction (s : State) (n m at_ : Nat) (x : Machine) (a : Nat) : Machine :=
  { st := fld a 40 36
    cnt := (List.range 4).map (fun j =>
      match fld a (25 + 2 * j) (24 + 2 * j) with
      | 1 => satN 32 (x.cnt.getD j 0 + 1)
      | 2 => 0
      | 3 => machPre s n m j
      | _ => x.cnt.getD j 0)
    tval := (List.range 2).map (fun j =>
      if fld a (33 + 2 * j) (32 + 2 * j) = 1 then machTpre s n m j else x.tval.getD j 0)
    trun := (List.range 2).map (fun j =>
      match fld a (33 + 2 * j) (32 + 2 * j) with
      | 1 => machTpre s n m j != 0
      | 2 => false
      | _ => x.trun.getD j false)
    texp := (List.range 2).map (fun j =>
      match fld a (33 + 2 * j) (32 + 2 * j) with
      | 1 => machTpre s n m j == 0
      | 2 => false
      | _ => x.texp.getD j false)
    tfrom := (List.range 2).map (fun j => if fld a (33 + 2 * j) (32 + 2 * j) = 1 then at_ else x.tfrom.getD j 0)
    flags := if bitN a 10 then fld a 14 11 else x.flags }

/-- A running timer decremented at a tick edge (R316): at 0 it is expired and halted. -/
def tickTimer (x : Machine) (j : Nat) : Machine :=
  if !x.trun.getD j false then x
  else
    let v := x.tval.getD j 0 - 1
    { x with tval := setAt x.tval j v, trun := setAt x.trun j (v != 0), texp := setAt x.texp j (v == 0) }

/-- A running timer at the edge of tick `t`: one whose start takes effect at or after it does not count it (R317). -/
def tickTimerAt (t : Nat) (x : Machine) (j : Nat) : Machine := if t ≤ x.tfrom.getD j 0 then x else tickTimer x j

/-- Every running timer at an internal tick edge. -/
def tickTimers (s : State) : State :=
  (List.range 128).foldl (fun s k =>
    if (sget dMachine s.tr.machines k) = {} then s
    else setMachine s (k / 8) (k % 8) (tickTimerAt s.tb.tick (tickTimerAt s.tb.tick (sget dMachine s.tr.machines k) 0) 1)) s

/-! ### TRIG_OUT (R323) -/

/-- A line at its inactive level. -/
abbrev dTrigOut : Nat → TrigOut := fun _ => {}
/-- TRIG_OUT line `j`. -/
def trigOut (s : State) (j : Nat) : TrigOut := sget dTrigOut s.tr.trigOut j
/-- TRIG_OUT line `j` set. -/
def setTrigOut (s : State) (j : Nat) (t : TrigOut) : State :=
  { s with tr := { s.tr with trigOut := sset dTrigOut j t s.tr.trigOut } }

/-- A pulse begins on line `j`, or restarts its width. -/
def pulseStart (s : State) (j : Nat) : State :=
  setTrigOut s j ⟨true, max 1 (regF s (rTrTrigoutCfg j) 23 16)⟩

/-- Every line takes its inactive level at once. -/
def trigOutOff (s : State) : State := { s with tr := { s.tr with trigOut := [] } }

/-- The level of TRIG_OUT j: the pulse, or source 6 during a run, inverted by INV. -/
def trigOutLevel (s : State) (j : Nat) : Bool :=
  ((trigOut s j).active || (regF s (rTrTrigoutCfg j) 2 0 == 6 && runActive s)) != regBit s (rTrTrigoutCfg j) 31

/-- The pulses that a decision of stream `n` produces. -/
def decisionPulses (s : State) (n flags : Nat) : State :=
  (List.range 16).foldl (fun s j =>
    let c := rTrTrigoutCfg j
    let own := regF s c 6 3 == n
    let hit := match regF s c 2 0 with
      | 1 => own && bitN flags 0
      | 2 => own && bitN flags 1
      | 3 => own && (bitN flags 2 || bitN flags 3)
      | 4 => own && bitN (machine s n (regF s c 9 7)).flags (regF s c 11 10)
      | 5 => bitN flags 0
      | _ => false
    if hit then pulseStart s j else s) s

/-! ### Records (R325-R328) -/

/-- Holdover covers the frame period of `tick` wholly or partly (R52). -/
def inHoldover (s : State) (tick : Nat) : Bool :=
  s.tb.holds.any (fun h => h.1 < tick + tbM s && match h.2 with | none => true | some e => tick ≤ e)

/-- The address of record `k` of stream `n` (R326). -/
def recAddr (s : State) (n k : Nat) : Nat :=
  reg64 s (rTrRecBase n) + 64 * (k % 2 ^ regF s (rTrStreamCfg n) 28 24)

/-- The bytes of a result record or lost-frame record (R325, R327). -/
def recordBytes (tick n type dflags dword markw smiss umark tmark fe rflags prov ttag : Nat)
    (scores : List Nat) : List Byte :=
  leBytes 6 tick ++ leBytes 1 (n + 16 * type) ++ leBytes 1 dflags ++ leBytes 4 dword ++ leBytes 2 markw
    ++ leBytes 2 smiss ++ leBytes 1 umark ++ leBytes 1 tmark ++ leBytes 1 fe ++ leBytes 1 rflags
    ++ leBytes 4 prov ++ leBytes 8 ttag ++ (scores.map (leBytes 4)).flatten

/-- Records of stream `n` issued in the run. -/
def issued (s : State) (n : Nat) : Nat := sget dNat s.tr.issued n

/-- A C1_COMMIT of stream `n` for the frame of `tick` (R345, R346). The DFLAGS that the capture record needs (R350) travel in
RTAG[15:8] (DESIGN CHOICE, log entry 90). -/
def commitPacket (src dst n tick dflags : Nat) (lost : Bool) : Packet :=
  { dst := dst, src := src, vc := 2, kind := kCommit, rtag := 256 * dflags + 16 * n + 2 * b2n lost + dflags % 2
    addr := tick % 2 ^ 32, chan := tick / 2 ^ 32, payload := [] }

/-- A C1_RECORD with the record `bytes` for DPA `dpa` (R345). -/
def recordPacket (dst dpa : Nat) (bytes : List Byte) : Packet :=
  { dst := dst, src := treadleNode, vc := 2, kind := kRecord, rtag := dpa / 2 ^ 38 % 8, addr := dpa / 64 % 2 ^ 32
    chan := 0, payload := bytes }

/-- A record enters the queue to Reed; at a full queue of 256 it is dropped and a C1_COMMIT takes its place, unless 16 of those
wait (R328, R345). -/
def sendRecord (s : State) (n tick : Nat) (bytes : List Byte) : State :=
  let dst := captureNode (streamDie s n)
  if 256 ≤ queuedAt s treadleNode kRecord then
    let s := countUp (raise s 0x0507 n 0) (rTrRecdropCnt n) 1
    if 16 ≤ queuedAt s treadleNode kCommit then s
    else inject s (commitPacket treadleNode dst n tick (leAt bytes 7 1) false)
  else
    let k := issued s n
    let s := if 2 ^ regF s (rTrStreamCfg n) 28 24 ≤ (k + 2 ^ 32 - (reg s (rTrRecCons n)).toNat) % 2 ^ 32
      then raiseOnce s 0x0503 n n 0 else s
    let s := { s with tr := { s.tr with issued := sset dNat n (k + 1) s.tr.issued } }
    inject s (recordPacket dst (recAddr s n k) bytes)

/-- A lost-frame record (R327): bytes 14-19 and 32-63 are 0 but for LOST, DFLAGS holds only HOLDOVER. -/
def lostFrame (s : State) (n tick index cause : Nat) : State :=
  let ttag := tick * 256 + (evalPulse s n + 2) * 256 / tbN s
  let bytes := recordBytes tick n 2 (128 * b2n (inHoldover s tick)) 0 cause 0 0 0 0 4 (provIndex index) ttag
    (List.replicate 8 0)
  let s := countUp (raiseOnce s 0x0506 0 n 0) (rTrLostCnt n) 1
  sendRecord (forwardRecord s n bytes) n tick bytes

/-- Lost-frame records for every frame delivered and not decided, in frame order (R327). -/
def loseUndecided (s : State) (cause : Nat) : State :=
  let us := s.tr.undecided
  let s := us.foldl (fun s u => lostFrame s u.stream u.tick u.index cause) s
  { s with tr := { s.tr with undecided := [] } }

/-! ### An evaluation (R300-R325) -/

/-- LF, the tick of the stream's last accepted frame; the first frame period of the run before any (R320). -/
def lastAccepted (s : State) (n : Nat) : Nat := sget (fun _ => tbSlot s) s.tr.lastAcc n

/-- No frame has marks. -/
abbrev dMark : Nat → FrameMark := fun _ => {}
/-- The marks of a frame (R181). -/
def frameMark (s : State) (tick : Nat) : FrameMark := sget dMark s.marks tick
/-- Mark bits ORed into the mark word of a frame (R181); a frame's first mark counts in WP_MARKED_CNT. -/
def markFrame (s : State) (tick bits : Nat) : State :=
  let f := frameMark s tick
  let s := if f.mark = 0 ∧ bits ≠ 0 then countUp s rWpMarkedCnt 1 else s
  { s with marks := sset dMark tick { f with mark := f.mark ||| bits } s.marks }

/-- The outputs move late when the stretches before pulse e_s + 2 exceed 3 ns (R303). -/
def outLate (s : State) (n : Nat) : Bool :=
  12 * tbN s * tickKhz s < min s.tb.q (decisionPulse s n) * 1000000

/-- The inputs of the evaluation of an undecided frame. -/
def evalIn (s : State) (u : UFrame) : EvalIn :=
  { n := u.stream, tick := u.tick, mark := (frameMark s u.tick).mark, fe := u.fe, damaged := u.damaged
    holdover := inHoldover s u.tick, gate := regBit s (rTrGate u.stream) 0
    due := let a := regF s (rTrAuto u.stream) 23 0
           a != 0 && lastAccepted s u.stream + a ≤ u.tick }

/-- The decision of an evaluation, combined over the machines (R318, R319). -/
structure Decision where
  dword : Nat
  fire : Bool
  gate : Bool
  irq : Bool
  bcw : Bool
  snap : Bool
  tmark : Nat
  forced : Bool
  soft : Bool
  accept : Bool
deriving DecidableEq, Repr

/-- The actions of the eight machines combined. -/
def decide8 (s : State) (e : EvalIn) (acts : List (Option Nat)) : Decision :=
  let taken := acts.filterMap id
  let any := fun b => taken.any (fun a => bitN a b)
  let gate := if any 6 then false else if any 5 then true else e.gate
  let soft := regBit s (rTrForce e.n) 0
  let base := any 4 || gate || soft
  let forced := e.due && !base
  { dword := (List.range 8).foldl (fun d m => match acts.getD m none with
      | some a => d + fld a 3 0 * 2 ^ (4 * m)
      | none => d) 0
    fire := any 4, gate := gate, irq := any 7
    bcw := any 8 || regBit s (rTrStreamCfg e.n) 31
    snap := any 9
    tmark := taken.foldl (fun t a => t ||| fld a 23 16) 0
    forced := forced, soft := soft, accept := base || forced }

/-- The decision flags, byte 7 of the record (R319). -/
def decisionFlags (e : EvalIn) (d : Decision) : Nat :=
  b2n d.accept + 2 * b2n d.fire + 4 * b2n d.forced + 8 * b2n d.soft + 16 * b2n d.gate + 32 * b2n e.damaged
    + 64 * b2n (e.mark != 0) + 128 * b2n e.holdover

/-- The machines after their actions; the timers that start count from the tick in which pulse e_s + 1 begins (R317). -/
def applyActions (s : State) (n tick : Nat) (acts : List (Option Nat)) : State :=
  (List.range 8).foldl (fun t m => match acts.getD m none with
    | some a => setMachine t n m (applyAction s n m (tick + (evalPulse s n + 1) / tbN s) (machine s n m) a)
    | none => t) s

/-- The counters, gate, LF, interrupt, snapshot and back-channel effects of a decision. -/
def decisionEffects (s : State) (e : EvalIn) (d : Decision) (ttag : Nat) : State :=
  let n := e.n
  let s := setRegBit s (rTrGate n) 0 d.gate
  let s := if d.soft then setRegBit s (rTrForce n) 0 false else s
  let s := if d.accept then
      { countUp s (rTrAcceptCnt n) 1 with tr := { s.tr with
          lastAcc := sset (fun _ => tbSlot s) n e.tick s.tr.lastAcc } }
    else s
  let s := if d.forced || d.soft then countUp s (rTrForcedCnt n) 1 else s
  let s := if d.irq && !regBit s rTrIrqStatus n then
      let s1 := setRegBit s rTrIrqStatus n true
      if regBit s rTrIrqEn n then msix s1 (0x30 + n) else s1
    else s
  let s := if d.snap then snapRequest s (ttag / 256 + snapDelay s) 1 else s
  if d.bcw then
    let x := bmStream s n
    setBmStream s n { x with decisionQ := x.decisionQ ++ [⟨e.tick, decisionFlags e d, d.dword⟩] }
  else s

/-- The evaluation of frame `u` (R300-R325): machines, actions, decision, outputs, record. -/
def evaluate (s : State) (u : UFrame) : State :=
  let n := u.stream
  let e := evalIn s u
  let acts := (List.range 8).map (takenAction s e)
  let d := decide8 s e acts
  let fm := frameMark s u.tick
  let ttag := u.tick * 256 + (evalPulse s n + 2) * 256 / tbN s
  let late := outLate s n
  let rflags := b2n (scoreMissing s n u.tick) + 2 * b2n (edgeLost s n u.tick) + 8 * b2n d.bcw + 16 * b2n d.irq
    + 32 * b2n d.snap + 64 * b2n late
  let scores := (List.range 8).map (fun k => (readScore s n ((regF s (rTrStreamCfg n) 19 16 + k) % 16) u.tick).1)
  let flags := decisionFlags e d
  let bytes := recordBytes u.tick n 1 flags d.dword fm.mark fm.smiss fm.umark d.tmark u.fe rflags
    (provIndex u.index) ttag scores
  let s := if late then raise s 0x0508 n 0 else s
  let s := applyActions s n u.tick acts
  let s := decisionEffects s e d ttag
  let s := decisionPulses s n flags
  let s := { s with tr := { s.tr with undecided := s.tr.undecided.erase u } }
  let s := forwardRecord s n bytes
  let s := sendRecord s n u.tick bytes
  (List.range 16).foldl pruneEdges s

/-- The frame ID of a C1 packet: that of its record, or its own. -/
def c1Frame (p : Packet) : Nat := if p.kind = kRecord then leAt p.payload 0 6 else p.addr + 2 ^ 32 * p.chan

/-- The stream of a C1 packet. -/
def c1Stream (p : Packet) : Nat := if p.kind = kRecord then leAt p.payload 6 1 % 16 else p.rtag / 16 % 16

/-- The records of stream `n` that are in Reed. -/
def recordsOut (s : State) (n : Nat) : List Packet := s.rd.packets.filter (fun p => p.kind == kRecord && c1Stream p == n)

/-- Treadle at a RUN_SYNC edge that begins a run (R311, R320, R330): the records still in Reed are of the run before and count
in none of TR_REC_PROD's run (R326, R327); a score of an earlier run is of none of its frames (R304, R364). -/
def treadleRunStart (s : State) : State :=
  let old := (List.range 16).foldl (fun m n => sset dNat n (recordsOut s n).length m) []
  let s := { s with tr := { s.tr with machines := [], lastAcc := [], trigIn := [], issued := [], stale := old
                                      undecided := [], scores := [] } }
  (List.range 16).foldl (fun s n => setRegN (setRegBit s (rTrGate n) 0 false) (rTrRecProd n) 0) s

/-! ### Commands -/

/-- EVALUATION (R302): the oldest undecided frame of stream `n` is evaluated. Without one nothing happens. -/
def execEvaluation (n : Nat) (s : State) : Host.Outcome State Fault Refusal :=
  onUnit 16 16 n s fun s =>
    match s.tr.undecided.find? (fun u => u.stream == n) with
    | some u => if runActive s then evaluate s u else s
    | none => s

/-- TREADLE_TIMER_EXPIRY (R316, R317): a running timer whose count has come to its last tick reaches 0. -/
def execTreadleTimerExpiry (n m j : Nat) (s : State) : Host.Outcome State Fault Refusal :=
  onUnit 16 16 n s fun s =>
    let x := machine s n (m % 8)
    if x.trun.getD (j % 2) false && x.tval.getD (j % 2) 0 ≤ 1 then
      setMachine s n (m % 8) (tickTimer x (j % 2))
    else s

/-- TRIG_OUT_PULSE_END (R323): the width of the pulse on line `j` elapses and the line returns to its inactive level. -/
def execTrigOutPulseEnd (j : Nat) (s : State) : Host.Outcome State Fault Refusal :=
  onUnit 16 16 j s fun s => setTrigOut s j ⟨false, 0⟩

/-- FORCE (R321): the next evaluation of stream `n` is forced. -/
def execForce (n : Nat) (s : State) : Host.Outcome State Fault Refusal :=
  onUnit 16 16 n s fun s => onBlock 5 s fun s => setRegBit s (rTrForce n) 0 true

/-- An event with a negative calibrated time (R57). -/
def prerunEvent (s : State) : State := countUp (raiseOnce s 0x090F 0 noSource 0) rTbPrerunCnt 1

/-- 2 ns in fine units is reached or not by a distance of `d` fine units: d × tick period ÷ 256 < 2 ns (R307). -/
def under2ns (s : State) (d : Nat) : Bool := d * 1000000 < 512 * tickKhz s

/-- TRIG_IN_EDGE (R307, R310): an edge on input `i`, rising or falling, with raw time tag `tag`. -/
def execTrigInEdge (i : Nat) (rising : Bool) (tag : Nat) (s : State) : Host.Outcome State Fault Refusal :=
  onUnit 16 16 i s fun s =>
    let sel := regF s (rTrTriginCfg i) 1 0
    if !runActive s || !bitN sel (if rising then 0 else 1) then s
    else
      match (trigIn s i).last with
      | some l =>
        if under2ns s (tag - l) then countUp (raiseOnce s 0x0504 0 i 0) (rTrTriginDrop i) 1
        else recordEdge s
      | none => recordEdge s
where
  /-- The edge is recorded, or dropped at a full history. -/
  recordEdge (s : State) : State :=
    let cal := (tag : Int) + trigSkew s i
    let s := pruneEdges s i
    let t := trigIn s i
    if 64 ≤ t.edges.length then
      let span := match t.dropSpan with
        | some (a, _) => if t.below then (cal, cal) else (a, cal)
        | none => (cal, cal)
      let s := setTrigIn s i { t with dropSpan := some span, below := false }
      countUp (raiseOnce s 0x0505 0 i 0) (rTrTriginDrop i) 1
    else
      let s := if cal < 0 then prerunEvent s else s
      let s := setTrigIn s i { t with edges := t.edges ++ [tag], last := some tag }
      countUp s (rTrTriginCnt i) 1

end Sys2Proof.Machine
end

