-- ==== Sys2Proof/Machine/Bobbin.lean ====
section
/-! DEFINITION. Bobbin (spec/12): DDR4 lines and their ECC, regions, pending entries and commits, change-only capture
records, and the commands C1_RECORD, C1_COMMIT, DECISION_MISSING, BOBBIN_WRITE, REARM, REGION_VALID_WRITE, REFRESH,
ZQ_CALIBRATION, DIMM_TEMP_READ, SCRUB and LINK_RECORD. -/

namespace Sys2Proof.Machine

/-! ### Line ECC (R336, R337) -/

/-- Multiplication by x in GF(2^16) with 0x1100B. -/
def gf16X (a : Nat) : Nat := if a < 2 ^ 15 then 2 * a else (2 * a) ^^^ 0x1100B

/-- a × alpha^n in GF(2^16). -/
def gf16Shift (a : Nat) : Nat → Nat
  | 0 => a
  | n + 1 => gf16X (gf16Shift a n)

/-- The symbol errors of one codeword, by device. -/
def cwErrors (errs : List SymErr) (cw : Nat) : List Nat :=
  (List.range 18).map (fun d =>
    (errs.filter (fun e => e.cw == cw && e.dev == d)).foldl (fun a e => a ^^^ (e.bits % 2 ^ 16)) 0)

/-- The two syndromes of an error pattern: the code is linear, so they are those of the received codeword. -/
def cwSyndromes (es : List Nat) : Nat × Nat :=
  (es.foldl (fun a e => a ^^^ e) 0,
   (List.range 18).foldl (fun a d => a ^^^ gf16Shift (es.getD d 0) (17 - d)) 0)

/-- How a codeword reads: no error seen; corrected at a device (leaving `residual` symbol errors); uncorrectable. -/
inductive CwRead where
  | clean (residual : List Nat)
  | corrected (dev : Nat) (residual : List Nat)
  | uncorrectable
deriving DecidableEq, Repr

/-- The decoder of RS(18,16): one symbol error is corrected, by S1 = alpha^(17-i) S0. -/
def cwDecode (es : List Nat) : CwRead :=
  let (s0, s1) := cwSyndromes es
  if s0 = 0 ∧ s1 = 0 then .clean es
  else if s0 = 0 then .uncorrectable
  else
    match (List.range 18).find? (fun d => gf16Shift s0 (17 - d) == s1) with
    | some d => .corrected d (setAt es d (es.getD d 0 ^^^ s0))
    | none => .uncorrectable

/-- The line bits that residual symbol errors leave wrong, as (byte, mask) pairs: bit 4 (b mod 4) + j of the symbol of
device i is DQ[4i+j] at beat b; devices 16 and 17 hold check bits. -/
def residualBytes (cw : Nat) (es : List Nat) : List (Nat × Nat) :=
  ((List.range 16).map (fun i =>
    (List.range 4).map (fun b =>
      (8 * (4 * cw + b) + i / 2, fld (es.getD i 0) (4 * b + 3) (4 * b) * 16 ^ (i % 2))))).flatten

/-- What a line read gives: its 64 bytes, the device last corrected, whether it is uncorrectable. -/
structure LineRead where
  bytes : List Byte
  dev : Option Nat
  bad : Bool
deriving DecidableEq, Repr

/-- Bytes with the given bits wrong. -/
def applyResidual (bs : List Byte) (r : List (Nat × Nat)) : List Byte :=
  r.foldl (fun bs p => setAt bs p.1 (bs.getD p.1 0 ^^^ BitVec.ofNat 8 p.2)) bs

/-- Line `l` as the controller reads it when its symbols show `errs`; a line already uncorrectable stays so. -/
def lineRead (s : State) (l : Nat) (errs : List SymErr) : LineRead :=
  let bs := memBytes s (64 * l) 64
  if lineBad s l then ⟨bs, none, true⟩
  else
    match cwDecode (cwErrors errs 0), cwDecode (cwErrors errs 1) with
    | .uncorrectable, _ => ⟨bs, none, true⟩
    | _, .uncorrectable => ⟨bs, none, true⟩
    | .clean a, .clean b => ⟨applyResidual bs (residualBytes 0 a ++ residualBytes 1 b), none, false⟩
    | .corrected d a, .clean b => ⟨applyResidual bs (residualBytes 0 a ++ residualBytes 1 b), some d, false⟩
    | .clean a, .corrected d b => ⟨applyResidual bs (residualBytes 0 a ++ residualBytes 1 b), some d, false⟩
    | .corrected _ a, .corrected d b => ⟨applyResidual bs (residualBytes 0 a ++ residualBytes 1 b), some d, false⟩

/-- Line `l` reads as uncorrectable (R337): counted, logged, its address kept when it is the first of its channel. -/
def noteBad (s : State) (l : Nat) : State :=
  let ch := match dpaChannel s (64 * l) with | some (c, _) => c | none => 0
  let first := !sget dFalse s.bb.ueSeen ch
  let s := countUp (raise s 0x0604 ch (l * 64)) (rBbChUe ch) 1
  let s := if first then setReg64 s (rBbChErraddr ch) (64 * l) else s
  setBad { s with bb := { s.bb with ueSeen := sset dFalse ch true s.bb.ueSeen } } l true

/-- A line read with its effects (R337): corrected - counted, logged and written back; uncorrectable - counted, logged,
and the line stays uncorrectable. -/
def readLine (s : State) (l : Nat) (errs : List SymErr) : State × LineRead :=
  let r := lineRead s l errs
  let ch := match dpaChannel s (64 * l) with | some (c, _) => c | none => 0
  if r.bad then (noteBad s l, r)
  else
    match r.dev with
    | some d =>
      let s := setF (countUp (raise s 0x0603 ch d) (rBbChCe ch) 1) (rBbChStatus ch) 12 8 d
      (memPut s (64 * l) r.bytes, r)
    | none => (s, r)

/-- The lines that a write of [a, a + n) covers in part. -/
def partLines (a n : Nat) : List Nat :=
  if n = 0 then []
  else ([a / 64, (a + n - 1) / 64].eraseDups).filter (fun l => decide (64 * l < a) || decide (a + n < 64 * l + 64))

/-- A write of bytes to DDR4 (R337): a line covered in part is read first, and merged as it read; one that reads as uncorrectable
stays so. `errs` are the symbol errors of the first such line. -/
def memWrite (s : State) (a : Nat) (bs : List Byte) (errs : List SymErr := []) : State :=
  let ls := partLines a bs.length
  let s := ls.foldl (fun s l =>
    let r := readLine s l (if some l = ls.head? then errs else [])
    if r.2.bad then r.1 else memPut r.1 (64 * l) r.2.bytes) s
  clearWhole (memPut s a bs) a bs.length

/-! ### Regions (R340-R342) -/

/-- Entry `r` holding `g` would break a rule of R341. -/
def regionBroken (s : State) (r : Nat) (g : Region) : Bool :=
  let others := (List.range 32).filter (fun q => q != r && (region s q).valid)
  others.any (fun q => (region s q).base < g.base + g.size && g.base < (region s q).base + (region s q).size)
    || dpaSize s < g.base + g.size
    || 6 ≤ g.kind
    || ((g.kind == 1 || g.kind == 2)
        && !(zoneBase s (streamDie s g.stream) ≤ g.base && g.base + g.size ≤ zoneEnd s (streamDie s g.stream)))
    || (g.kind == 1 && others.any (fun q => (region s q).kind == 1 && (region s q).stream == g.stream))

/-- A write of BB_RG_CTRL of entry `r` with value `v` (R341): entry 0 is Keep's; a lock or a broken rule leaves VALID
at 0. -/
def writeRegion (s : State) (r : Nat) (v : Word) : State :=
  if r = 0 || s.rwlLock then s
  else
    let a := rBbRgCtrl r
    let g : Region := { region s r with valid := true, kind := wfld v 30 28, stream := wfld v 19 16 }
    let s := setF (setF s a 30 28 g.kind) a 19 16 g.stream
    if wbit v 31 then
      if regionBroken s r g then raise (setRegBit s a 31 false) 0x0607 noSource r
      else setRegBit s a 31 true
    else setRegBit s a 31 false

/-! ### Capture channels (R347, R348) -/

/-- Entry `e` of the channel map of die `d`. -/
def chanEntry (s : State) (d e : Nat) : Nat := (sget dDWord s.bb.chmap (4096 * d + e)).toNat

/-- Bytes of a channel value. -/
def chanWidth (e : Nat) : Nat := 2 ^ fld e 17 16

/-- The channel map entries of stream `n`, in channel order. -/
def streamChans (s : State) (n : Nat) : List Nat :=
  (List.range (regF s (rBbStCfg n) 22 12)).map (fun i => chanEntry s (streamDie s n) (regF s (rBbStCfg n) 11 0 + i))

/-- The value of a channel in frame data, as the bits of WIDTH bytes (R348). -/
def chanValue (s : State) (n e : Nat) (data : List Byte) : Nat :=
  if bitN e 19 then
    let v := leAt data ((streamRec s n).chOfs.getD (fld e 25 20) 0) 2
    if v = 0xFFFF then 0x80000000 else encI 32 ((v : Int) + chanSkew s n (fld e 25 20))
  else leAt data (fld e 15 0) (chanWidth e)

/-- The exact value that stored bits stand for. -/
def chanInt (e bits : Nat) : Int :=
  if bitN e 18 || bitN e 19 then sextI (8 * chanWidth e) bits else (bits : Int)

/-- A channel is recorded when its value leaves the deadband of its stored value (R348). -/
def chanRecorded (e old new : Nat) : Bool :=
  if bitN e 19 then old != new
  else (fld e 47 32 : Int) < (chanInt e new - chanInt e old).natAbs

/-! ### Records and the ring (R350, R351) -/

/-- No capture state. -/
abbrev dCap : Nat → CapSt := fun _ => {}
/-- Capture state of stream `n`. -/
def capSt (s : State) (n : Nat) : CapSt := sget dCap s.bb.cap n
/-- Capture state of stream `n` set. -/
def setCap (s : State) (n : Nat) (c : CapSt) : State := { s with bb := { s.bb with cap := sset dCap n c s.bb.cap } }

/-- A record padded with zeros to a multiple of 8 bytes. -/
def pad8 (bs : List Byte) : List Byte := padTo (ceilDiv bs.length 8 * 8) bs

/-- A RUN record (R350). -/
def runRecord (s : State) (n : Nat) : List Byte :=
  [0x01, 0] ++ leBytes 2 (regF s (rBbStCfg n) 22 12) ++ leBytes 2 (regF s rTbFrameCfg 12 0) ++ leBytes 2 (tbSlot s)
    ++ leBytes 4 (tickKhz s) ++ leBytes 4 (reg s rBbRunid).toNat ++ padTo 8 (progDigest s)
    ++ leBytes 8 (regF s (rBbStKey n) 23 0)

/-- A KEY record. -/
def keyRecord (dflags tag : Nat) (chans vals : List Nat) : List Byte :=
  pad8 ([0x02, BitVec.ofNat 8 dflags] ++ leBytes 2 chans.length ++ zeros 4 ++ leBytes 8 tag
    ++ (List.zipWith (fun e v => leBytes (chanWidth e) v) chans vals).flatten)

/-- A CHG record of the entries (channel index, width, value). -/
def chgRecord (dflags delta : Nat) (ents : List (Nat × Nat × Nat)) : List Byte :=
  pad8 ([0x03, BitVec.ofNat 8 dflags] ++ leBytes 2 ents.length ++ leBytes 4 delta
    ++ (ents.map (fun e => leBytes 2 e.1 ++ leBytes e.2.1 e.2.2)).flatten)

/-- An OVF record. -/
def ovfRecord (reason tag : Nat) : List Byte := [0x04, BitVec.ofNat 8 reason] ++ zeros 6 ++ leBytes 8 tag

/-- The region entry of a stream's bobbin. -/
def bobbinRegion (s : State) (n : Nat) : Region := region s (regF s (rBbStCfg n) 28 24)

/-- Bytes that a record takes in a ring of `size` bytes when `wp` bytes have been placed: a PAD that fills the rest of
the ring stands before a record that does not fit (R351). -/
def ringNeed (size wp len : Nat) : Nat :=
  if size - wp % size < len then size - wp % size + len else len

/-- A record placed in the ring: a PAD where it does not fit before the end, then the record. -/
def placeRecord (s : State) (n : Nat) (bs : List Byte) : State :=
  let g := bobbinRegion s n
  let c := capSt s n
  let room := g.size - c.wp % g.size
  let c := if room < bs.length then
      { c with wp := c.wp + room
               unwritten := c.unwritten ++ [⟨c.wp + room, c.wp % g.size, [0x07, 0, 0, 0] ++ leBytes 4 room⟩] }
    else c
  setCap s n { c with wp := c.wp + bs.length
                      unwritten := c.unwritten ++ [⟨c.wp + bs.length, c.wp % g.size, bs⟩] }

/-- The stream stops with an OVF record (R355, R357): the first raise and vector of the stop, the base of DELTA. -/
def stopCapture (s : State) (n reason tag : Nat) : State :=
  let s := placeRecord s n (ovfRecord reason tag)
  let c := capSt s n
  let s := setCap s n { c with prevTag := tag }
  let s := countUp (raise s 0x0605 n 0) (rBbStOvf n) 1
  let was := regBit s (rBbStStatus n) 30
  let s := setRegBit (setF (setRegBit s (rBbStStatus n) 30 true) (rBbStStatus n) 29 28 reason) (rBbStStatus n) 31 false
  if was then s else msix s (0x40 + n)

/-- The virtual fill at frame period `c` before the commit (R352). -/
def drainedFill (s : State) (n c : Nat) : Nat :=
  regF s (rBbStStatus n) 23 0 - (reg s (rBbStDrain n)).toNat * (c - (capSt s n).cLast)

/-- Q_s in bytes. -/
def commitArea (s : State) (n : Nat) : Nat := regF s (rBbStRsv n) 31 20 * 1024

/-- The virtual fill set, with its largest value. -/
def setFill (s : State) (n f : Nat) : State :=
  let s := setF s (rBbStStatus n) 23 0 f
  if (reg s (rBbStFillmax n)).toNat < f then setRegN s (rBbStFillmax n) f else s

/-- The records that a committed frame yields, whether it is a KEY, and the values stored after it (R349, R350). -/
def frameRecords (s : State) (n tick dflags : Nat) (data : List Byte) (rearmed : Bool) :
    List (List Byte) × Bool × Sparse Nat :=
  let c := capSt s n
  let chans := streamChans s n
  let vals := chans.map (fun e => chanValue s n e data)
  let tag := tick * 256
  let k := regF s (rBbStKey n) 23 0
  let keyDue := match c.lastKey with
    | none => true
    | some t => k != 0 && t + k ≤ tick
  let key := !c.runWritten || rearmed || keyDue || 2 ^ 32 ≤ tag - c.prevTag
  if key then
    let recs := (if c.runWritten then [] else [runRecord s n]) ++ [keyRecord dflags tag chans vals]
    (recs, true, (List.range chans.length).foldl (fun m i => sset dNat i (vals.getD i 0) m) c.values)
  else
    let ents := ((List.range chans.length).filter (fun i =>
        chanRecorded (chans.getD i 0) (sget dNat c.values i) (vals.getD i 0))).map
        (fun i => (i, chanWidth (chans.getD i 0), vals.getD i 0))
    ([chgRecord dflags (tag - c.prevTag) ents], false, ents.foldl (fun m e => sset dNat e.1 e.2.2 m) c.values)

/-- A committed frame is captured in its bobbin (R349-R357). -/
def commitFrame (s : State) (n tick dflags : Nat) (data : List Byte) : State :=
  if !regBit s (rBbStCfg n) 31 then s
  else
    let rearm := regBit s (rBbStCtrl n) 0
    let stopped := regBit s (rBbStStatus n) 30
    let s := if rearm then setRegBit (setRegBit s (rBbStCtrl n) 0 false) (rBbStStatus n) 30 false else s
    let c := (tick - tbSlot s) / tbM s
    let fill := drainedFill s n c
    let s := setCap s n { capSt s n with cLast := c }
    if stopped && !rearm then countUp (setFill s n fill) (rBbStLostcap n) 1
    else
      let (recs, key, values) := frameRecords s n tick dflags data (stopped && rearm)
      let size := (recs.map List.length).sum
      let g := bobbinRegion s n
      let need := (recs.foldl (fun w r => w + ringNeed g.size w r.length) (capSt s n).wp) - (capSt s n).wp
      let ringFull := !regBit s (rBbStCfg n) 30
        && g.size < (capSt s n).wp + need + 16 - reg64 s (rBbBobRptr n)
      if commitArea s n < fill + size + 16 then stopCapture (setFill s n fill) n 1 (tick * 256)
      else if ringFull then stopCapture (setFill s n fill) n 2 (tick * 256)
      else
        let s := setFill s n (fill + size)
        let s := recs.foldl (fun s r => placeRecord s n r) s
        let cs := capSt s n
        let s := setCap s n { cs with runWritten := true, prevTag := tick * 256, values := values
                                      lastKey := if key then some tick else cs.lastKey }
        let s := setRegBit s (rBbStStatus n) 31 true
        countUp s (rBbStCaptured n) 1

/-- The pending entry leaves its buffer. -/
def dropPending (s : State) (p : Pending) : State := { s with bb := { s.bb with pend := s.bb.pend.erase p } }

/-- The pending entry of a frame is decided (R345): committed, which makes the stream's auto job whether or not the
stream captures (R255), or discarded. `dpa` is the DDR4 address of the frame's record, if it has one. -/
def decidePending (s : State) (n tick dflags : Nat) (dpa : Option Nat) : State :=
  match s.bb.pend.find? (fun p => p.stream == n && p.frame == tick) with
  | none => s
  | some p =>
    let s := dropPending s p
    if bitN dflags 0 then autoJob (commitFrame s n tick dflags p.data) n tick dpa else s

/-- A pending entry whose decision has not come is discarded, and Treadle is told by a C1_COMMIT with LOST (R346). -/
def missPending (s : State) (p : Pending) : State :=
  let s := dropPending (raise s 0x0606 p.stream 0) p
  let s := { s with bb := { s.bb with discarded := s.bb.discarded ++ [(p.stream, p.frame)] } }
  inject s (commitPacket (captureNode (streamDie s p.stream)) treadleNode p.stream p.frame 0 true)

/-- A decision packet for the entry is in Reed. -/
def decisionOut (s : State) (p : Pending) : Bool :=
  s.rd.packets.any (fun k => k.vc == 2 && c1Stream k == p.stream && c1Frame k == p.frame)

/-- Bobbin at a RUN_SYNC edge that begins a run (R359): STOPPED cleared, fill 0, value tables invalid, WPTR kept. A pending entry of
an earlier run that no packet will decide is discarded as R346 says. -/
def bobbinRunStart (s : State) : State :=
  let s := (s.bb.pend.filter (fun p => !decisionOut s p)).foldl missPending s
  let left := s.bb.discarded.filter (fun e => s.rd.packets.any (fun k => k.vc == 2 && c1Stream k == e.1 && c1Frame k == e.2))
  let s := { s with bb := { s.bb with discarded := left } }
  (List.range 16).foldl (fun s n =>
    let c := capSt s n
    let s := setCap s n { wp := c.wp, unwritten := c.unwritten }
    let s := setF (setRegBit s (rBbStStatus n) 30 false) (rBbStStatus n) 23 0 0
    setRegBit s (rBbStStatus n) 31 (regBit s (rBbStCfg n) 31)) s

/-- Bobbin at the end of a run (R359): nothing captures; pending entries whose frame was lost are discarded by their
lost-frame records (R345). -/
def bobbinRunEnd (s : State) : State :=
  (List.range 16).foldl (fun s n => setRegBit s (rBbStStatus n) 31 false) s

/-- The C1 packets and pending entries dropped where a run ends with no record written (R327, R375). -/
def dropC1 (s : State) : State :=
  { s with rd := { s.rd with packets := s.rd.packets.filter (fun p => p.vc != 2) }, bb := { s.bb with pend := [] } }

/-! ### Commands -/

/-- The decision packet of a discarded entry is ignored, and no other comes (R346). -/
def ignored (s : State) (n f : Nat) : State := { s with bb := { s.bb with discarded := s.bb.discarded.erase (n, f) } }

/-- A record written counts in TR_REC_PROD, unless it is of an earlier run (R326). -/
def countRecord (s : State) (n : Nat) : State :=
  let k := sget dNat s.tr.stale n
  if k = 0 then setRegN s (rTrRecProd n) ((reg s (rTrRecProd n)).toNat + 1)
  else { s with tr := { s.tr with stale := sset dNat n (k - 1) s.tr.stale } }

/-- A record packet at the capture elastic buffer (R345): it is written to its DPA, counted, and decides its pending entry. A result
record for an entry already discarded under R346 is ignored; after SYSCLK is lost no record is written (R327). -/
def recordArrives (s : State) (n : Nat) (p : Packet) : State :=
  let f := c1Frame p
  if s.tb.sysclkLost then s
  else if (n, f) ∈ s.bb.discarded && leAt p.payload 6 1 / 16 != 2 then ignored s n f
  else
    let dpa := 64 * p.addr + 2 ^ 38 * (p.rtag % 8)
    let r := received s p
    let s := countRecord (memWrite r.2 dpa r.1) n
    decidePending s n f (leAt r.1 7 1) (some dpa)

/-- C1_RECORD (R345): the oldest packet from Treadle has reached the capture elastic buffer of stream `n`; it is a record of the
stream. -/
def execC1Record (n ecc : Nat) (s : State) : Host.Outcome State Fault Refusal :=
  onUnit 16 16 n s fun s =>
    match arriving s treadleNode (captureNode (streamDie s n)) 2 kRecord with
    | some p =>
      if c1Stream p = n then
        let r := takePacket s p ecc
        recordArrives r.1 n r.2
      else s
    | none => s

/-- A frame that Bobbin reports lost (R346): Treadle writes a lost-frame record with cause 0x0606. -/
def frameReportedLost (s : State) (n tick : Nat) : State :=
  let s := { s with tr := { s.tr with undecided := s.tr.undecided.filter (fun u => !(u.stream == n && u.tick == tick)) } }
  lostFrame s n tick ((tick - tbSlot s) / tbM s) 0x0606

/-- A C1_COMMIT at the capture elastic buffer (R345): it decides its entry, unless that is discarded already (R346). -/
def commitArrives (s : State) (n : Nat) (p : Packet) : State :=
  if (n, c1Frame p) ∈ s.bb.discarded then ignored s n (c1Frame p)
  else decidePending s n (c1Frame p) (p.rtag / 256 / 2 * 2 + p.rtag % 2) none

/-- C1_COMMIT (R345, R346): with `toTreadle` false the oldest packet from Treadle to the buffer of stream `n` is a C1_COMMIT of the
stream; with true the oldest from the buffer to Treadle is one. -/
def execC1Commit (n : Nat) (toTreadle : Bool) (ecc : Nat) (s : State) : Host.Outcome State Fault Refusal :=
  onUnit 16 16 n s fun s =>
    let here := captureNode (streamDie s n)
    match if toTreadle then arriving s here treadleNode 2 kCommit else arriving s treadleNode here 2 kCommit with
    | some p =>
      if c1Stream p = n then
        let r := takePacket s p ecc
        if toTreadle then frameReportedLost r.1 n (c1Frame p) else commitArrives r.1 n p
      else s
    | none => s

/-- The decision of the entry is overdue (R346): D_s + 2 frame periods, at 2 N M REED cycles each, and the 256 of the C1 bound have
passed since its delivery (DESIGN CHOICE, log entry 90). -/
def overdue (s : State) (p : Pending) : Bool :=
  decide (p.cyc + (decisionLatency s p.stream + 2) * (2 * framePulses s) + 256 ≤ s.rd.now)

/-- DECISION_MISSING (R346): the decision of the oldest pending entry of stream `n` is overdue. -/
def execDecisionMissing (n : Nat) (s : State) : Host.Outcome State Fault Refusal :=
  onUnit 16 16 n s fun s =>
    match s.bb.pend.find? (fun p => p.stream == n) with
    | none => s
    | some p => if overdue s p then missPending s p else s

/-- BOBBIN_WRITE (R351): the oldest capture bytes of stream `n` become visible, and BB_BOB_WPTR advances over them. -/
def execBobbinWrite (n : Nat) (s : State) : Host.Outcome State Fault Refusal :=
  onUnit 16 16 n s fun s =>
    match (if operating s then (capSt s n).unwritten else []) with
    | [] => s
    | u :: us =>
      let s := setCap s n { capSt s n with unwritten := us }
      let s := memWrite s ((bobbinRegion s n).base + u.offset) u.bytes
      setReg64 s (rBbBobWptr n) u.endCount

/-- REARM (R356): a stopped stream is re-armed for its next commit; on any other stream it has no effect. -/
def execRearm (n : Nat) (s : State) : Host.Outcome State Fault Refusal :=
  onUnit 16 16 n s fun s => onBlock 6 s fun s =>
    if regBit s (rBbStStatus n) 30 then setRegBit s (rBbStCtrl n) 0 true else s

/-- A write has made an entry, as it was and as it is, a CAPTURE region of its stream. -/
def madeCapture (old new : Region) : Bool :=
  new.valid && new.kind == 1 && !(old.valid && old.kind == 1 && old.stream == new.stream)

/-- The bobbin of stream `n` begins in a region just made valid: BB_BOB_WPTR counts from 0 (R351). -/
def newBobbin (s : State) (n : Nat) : State :=
  setReg64 (setCap s n { capSt s n with wp := 0, unwritten := [] }) (rBbBobWptr n) 0

/-- REGION_VALID_WRITE (R341, R351): VALID = 1 with a kind and a stream is written to region entry `r`. -/
def execRegionValidWrite (r kind stream : Nat) (s : State) : Host.Outcome State Fault Refusal :=
  onUnit 32 32 r s fun s => onBlock 6 s fun s =>
    let q := writeRegion s r (BitVec.ofNat 32 (2 ^ 31 + kind % 8 * 2 ^ 28 + stream % 16 * 2 ^ 16))
    if madeCapture (region s r) (region q r) then newBobbin q (region q r).stream else q

/-- The refresh interval of a channel in tenths of a microsecond (R339). -/
def tRefi (s : State) (c : Nat) : Nat := if regBit s (rBbChStatus c) 27 then 39 else 78

/-- REFRESH (R339): rank `k` of channel `c` receives an all-bank refresh. -/
def execRefresh (c k : Nat) (s : State) : Host.Outcome State Fault Refusal :=
  onUnit 16 (chanCount s) c s fun s =>
    if regBit s rBbMemStatus c then
      let key := 8 * c + k % 8
      { s with bb := { s.bb with refreshes := sset dNat key (sget dNat s.bb.refreshes key + 1) s.bb.refreshes } }
    else s

/-- ZQ_CALIBRATION (R339): ZQ short calibration of channel `c`. It changes no state the spec names. -/
def execZqCalibration (c : Nat) (s : State) : Host.Outcome State Fault Refusal :=
  onUnit 16 (chanCount s) c s fun s => s

/-- DIMM_TEMP_READ (R339): the sensor of channel `c` reads `temp` degrees C; above 85 tREFI halves, above 95 a cause. -/
def execDimmTempRead (c temp : Nat) (s : State) : Host.Outcome State Fault Refusal :=
  onUnit 16 (chanCount s) c s fun s =>
    if regBit s rBbMemStatus c then
      let s := setF s (rBbChTemp c) 7 0 (satN 8 temp)
      let s := setRegBit s (rBbChStatus c) 27 (85 < temp)
      if 95 < temp then raise s 0x060A c temp else s
    else s

/-- The lines of channel `c` that patrol scrub visits, as the line at channel address 64 × p (R335, R338). -/
def scrubDpa (s : State) (c p : Nat) : Nat :=
  let d := c / 4
  let cs := dieChans s d
  let k := cs.findIdx (· == c)
  let chad := 64 * p
  zoneBase s d + (chad / 4096 * cs.length + k) * 4096 + chad % 4096

/-- SCRUB (R338): patrol scrub reads the next line of channel `c`, whose symbols show `errs`. -/
def execScrub (c : Nat) (errs : List SymErr) (s : State) : Host.Outcome State Fault Refusal :=
  onUnit 16 (chanCount s) c s fun s =>
    if regBit s rBbMemStatus c then
      let p := sget dNat s.bb.scrubPos c
      let s1 := (readLine s (scrubDpa s c p / 64) errs).1
      let next := if chanCap s ≤ 64 * (p + 1) then 0 else p + 1
      { s1 with bb := { s1.bb with scrubPos := sset dNat c next s1.bb.scrubPos } }
    else s

/-- LINK_RECORD (R373): the oldest link record of stream `n` is written once the records of its frames are written. One of an
earlier run has its block number as its place and counts in none of PV_PROD's run (R372). -/
def execLinkRecord (n : Nat) (s : State) : Host.Outcome State Fault Refusal :=
  onUnit 16 16 n s fun s =>
    match (chain s n).links with
    | [] => s
    | l :: ls =>
      if !operating s || (recordsOut s n).any (fun p => c1Frame p ≤ l.last)
        || s.tr.undecided.any (fun u => u.stream == n && u.tick ≤ l.last) then s
      else
        let old := decide (0 < (chain s n).stale)
        let s := setChain s n { chain s n with links := ls, stale := (chain s n).stale - 1 }
        if !regBit s (rPvRingCfg n) 31 then s
        else
          let k := if old then leAt l.bytes 0 8 else (reg s (rPvProd n)).toNat
          let size := 2 ^ regF s (rPvRingCfg n) 4 0
          let s := if size ≤ (k + 2 ^ 32 - (reg s (rPvCons n)).toNat) % 2 ^ 32
            then setRegBit (raiseOnce s 0x0BA1 n n 0) rPvStatus n true else s
          let s := memWrite s (reg64 s (rPvRingBase n) + 128 * (k % size)) l.bytes
          if old then s else setRegN s (rPvProd n) (k + 1)

end Sys2Proof.Machine
end

