-- ==== Sys2Proof/Machine/LineCode.lean ====
section
/-! DEFINITION. The Kwengo line code (spec/03 R68-R75): bolt formats, headers, bit order, the Reed-Solomon codes over
GF(2^8), the scrambler, stuffing and fill. Stream lanes and peer lanes use it alike (R92). -/

namespace Sys2Proof.Machine

/-! ### Formats (R68) -/

/-- Slot length in UI. -/
def slotLen (long : Bool) : Nat := if long then 2256 else 576
/-- Payload bytes of a bolt. -/
def boltPayload (long : Bool) : Nat := if long then 256 else 64
/-- Parity bytes of a bolt. -/
def boltParity (long : Bool) : Nat := if long then 16 else 4
/-- Header value. -/
def boltHeader (long : Bool) : Nat := if long then 0x9AE3 else 0x651C
/-- Coded bits of a bolt: header, payload and parity. -/
def codedBits (long : Bool) : Nat := 16 + 8 * (boltPayload long + boltParity long)

/-- The header bits, bit 15 first (R70). -/
def headerBits (h : Nat) : List Bool := (bitsLsb 16 h).reverse

/-- Places in which two equally long bit lists differ. -/
def bitDistance : List Bool → List Bool → Nat
  | a :: as, b :: bs => b2n (a != b) + bitDistance as bs
  | _, _ => 0

/-- The bits of body bytes, bit 0 of each byte first (R70). -/
def bytesBits (bs : List Byte) : List Bool := (bs.map (fun b => bitsLsb 8 b.toNat)).flatten

/-- The bytes that bits form, bit 0 of each byte first. -/
def bitsBytes (l : List Bool) : List Byte := (chunks 8 l).map (fun c => BitVec.ofNat 8 (ofBitsLsb c))

/-! ### GF(2^8) with 0x11D, alpha = 2 (R71) -/

/-- Multiplication by x. -/
def gfX (a : Nat) : Nat := if a < 128 then 2 * a else (2 * a) ^^^ 0x11D

/-- Product, by `n` steps of shift and add. -/
def gfMulAux : Nat → Nat → Nat → Nat
  | 0, _, _ => 0
  | n + 1, a, b => (if b % 2 = 1 then a else 0) ^^^ gfMulAux n (gfX a) (b / 2)

/-- Product in GF(2^8). -/
def gfMul (a b : Nat) : Nat := gfMulAux 8 a b

/-- Power in GF(2^8). -/
def gfPow (a : Nat) : Nat → Nat
  | 0 => 1
  | n + 1 => gfMul a (gfPow a n)

/-- Inverse in GF(2^8): a^254. -/
def gfInv (a : Nat) : Nat := gfPow a 254

/-- alpha^n. -/
def gfAlpha (n : Nat) : Nat := gfPow 2 (n % 255)

/-- Value of a polynomial (coefficients low first) at `x`. -/
def gfEval : List Nat → Nat → Nat
  | [], _ => 0
  | c :: cs, x => c ^^^ gfMul x (gfEval cs x)

/-- Sum of two polynomials. -/
def gfAddP : List Nat → List Nat → List Nat
  | [], q => q
  | p, [] => p
  | a :: p, b :: q => (a ^^^ b) :: gfAddP p q

/-- A polynomial scaled. -/
def gfScale (c : Nat) (p : List Nat) : List Nat := p.map (gfMul c)

/-- Product of two polynomials. -/
def gfMulP : List Nat → List Nat → List Nat
  | [], _ => []
  | a :: p, q => gfAddP (gfScale a q) (0 :: gfMulP p q)

/-- The generator (x - alpha^0) ... (x - alpha^(k-1)), low coefficient first. -/
def rsGen : Nat → List Nat
  | 0 => [1]
  | k + 1 => gfMulP (rsGen k) [gfAlpha k, 1]

/-- One step of the division register: `reg` holds the remainder, highest degree first; `g` the generator without its
leading 1, highest degree first. -/
def rsStep (g : List Nat) (reg : List Nat) (m : Nat) : List Nat :=
  match reg with
  | [] => []
  | r :: rs => List.zipWith (fun a b => a ^^^ b) (rs ++ [0]) (gfScale (r ^^^ m) g)

/-- The parity of a message, highest degree first: the remainder of m(x) x^k mod g(x). -/
def rsParity (k : Nat) (msg : List Nat) : List Nat :=
  msg.foldl (rsStep ((rsGen k).take k).reverse) (List.replicate k 0)

/-- Syndrome j of a codeword whose first symbol is the coefficient of the highest degree. -/
def rsSyndrome (cw : List Nat) (j : Nat) : Nat := cw.foldl (fun acc c => gfMul acc (gfAlpha j) ^^^ c) 0

/-- The state of the Berlekamp-Massey iteration: locator, previous locator, L, shift, previous discrepancy. -/
structure BmState where
  c : List Nat
  b : List Nat
  l : Nat
  m : Nat
  d : Nat
deriving DecidableEq, Repr

/-- Step `k` of the Berlekamp-Massey iteration over the syndromes `syn`. -/
def bmStep (syn : List Nat) (st : BmState) (k : Nat) : BmState :=
  let disc := (List.range (st.l + 1)).foldl (fun acc i => acc ^^^ gfMul (st.c.getD i 0) (syn.getD (k - i) 0)) 0
  if disc = 0 then { st with m := st.m + 1 }
  else
    let c' := gfAddP st.c (gfScale (gfMul disc (gfInv st.d)) (List.replicate st.m 0 ++ st.b))
    if 2 * st.l ≤ k then ⟨c', st.c, k + 1 - st.l, 1, disc⟩ else { st with c := c', m := st.m + 1 }

/-- The error locator of a list of syndromes, with its L. -/
def errorLocator (syn : List Nat) : List Nat × Nat :=
  let st := (List.range syn.length).foldl (bmStep syn) ⟨[1], [1], 0, 1, 1⟩
  (st.c, st.l)

/-- The odd-power derivative of a polynomial over a field of characteristic 2. -/
def gfDeriv (p : List Nat) : List Nat :=
  (List.range (p.length - 1)).map (fun i => if i % 2 = 0 then p.getD (i + 1) 0 else 0)

/-- Error value at the position whose locator is `x` (Forney, first root alpha^0). -/
def forney (omega lam : List Nat) (x : Nat) : Nat :=
  gfMul x (gfMul (gfEval omega (gfInv x)) (gfInv (gfEval (gfDeriv lam) (gfInv x))))

/-- A codeword decoded with `k` parity symbols: the corrected symbols and the number corrected; none when it is
uncorrectable, that is, when no codeword lies within k / 2 symbols (R71). -/
def rsDecode (k : Nat) (cw : List Nat) : Option (List Nat × Nat) :=
  let syn := (List.range k).map (rsSyndrome cw)
  if syn.all (· == 0) then some (cw, 0)
  else
    let (lam, l) := errorLocator syn
    if k / 2 < l then none
    else
      let omega := (gfMulP syn lam).take k
      let n := cw.length
      let fixed := (List.range n).map (fun p =>
        let x := gfAlpha (n - 1 - p)
        if gfEval lam (gfInv x) = 0 then (cw.getD p 0) ^^^ forney omega lam x else cw.getD p 0)
      let changed := ((List.range n).filter (fun p => fixed.getD p 0 != cw.getD p 0)).length
      if ((List.range k).map (rsSyndrome fixed)).all (· == 0) && changed ≤ k / 2 then some (fixed, changed) else none

/-- The even-numbered and the odd-numbered symbols of a list. -/
def evens (l : List Nat) : List Nat := ((List.range l.length).filter (· % 2 = 0)).map (fun i => l.getD i 0)
/-- The odd-numbered symbols of a list. -/
def odds (l : List Nat) : List Nat := ((List.range l.length).filter (· % 2 = 1)).map (fun i => l.getD i 0)
/-- Two lists of equal length interleaved. -/
def interleave : List Nat → List Nat → List Nat
  | a :: as, b :: bs => a :: b :: interleave as bs
  | _, _ => []

/-- The body of a bolt decoded: corrected payload and parity, and symbols corrected (R71). -/
def boltDecode (long : Bool) (body : List Byte) : Option (List Byte × Nat) :=
  let sy := body.map (·.toNat)
  if long then
    match rsDecode 8 (evens sy), rsDecode 8 (odds sy) with
    | some (a, na), some (b, nb) => some ((interleave a b).map (BitVec.ofNat 8), na + nb)
    | _, _ => none
  else (rsDecode 4 sy).map (fun r => (r.1.map (BitVec.ofNat 8), r.2))

/-- The parity bytes of a scrambled payload (R71). -/
def boltParityBytes (long : Bool) (payload : List Byte) : List Byte :=
  let sy := payload.map (·.toNat)
  let p := if long then interleave (rsParity 8 (evens sy)) (rsParity 8 (odds sy)) else rsParity 4 sy
  p.map (BitVec.ofNat 8)

/-! ### Scrambler (R72): the state holds the last 58 line bits, the newest in bit 0 -/

/-- The state after one more line bit. -/
def scrPush (st : Nat) (b : Bool) : Nat := (2 * st + b2n b) % 2 ^ 58

/-- The bit that the scrambler adds. -/
def scrTap (st : Nat) : Bool := bitN st 38 != bitN st 57

/-- Payload bits scrambled, with the state after them. -/
def scramble : Nat → List Bool → List Bool × Nat
  | st, [] => ([], st)
  | st, b :: bs =>
    let o := b != scrTap st
    let (os, st') := scramble (scrPush st o) bs
    (o :: os, st')

/-- Line bits descrambled, with the state after them. -/
def descramble : Nat → List Bool → List Bool × Nat
  | st, [] => ([], st)
  | st, o :: os =>
    let (bs, st') := descramble (scrPush st o) os
    ((o != scrTap st) :: bs, st')

/-! ### Stuffing (R74) and fill (R75) -/

/-- Coded bits with stuff bits: `run` identical line bits stand before, the last of them `prev`. -/
def stuffGo : Nat → Bool → List Bool → List Bool
  | _, _, [] => []
  | run, prev, b :: bs =>
    let r := if run ≠ 0 ∧ b = prev then run + 1 else 1
    if r = 40 then b :: (!b) :: stuffGo 1 (!b) bs else b :: stuffGo r b bs

/-- The coded bits of a bolt with stuffing; the counter restarts at 1 on the first bit. -/
def stuff (l : List Bool) : List Bool := stuffGo 0 false l

/-- What a receiver takes from line bits: coded bits, last line bit, remaining line bits; none when a stuff bit is
missing (R74). `need` coded bits are still to come. -/
def destuffGo : Nat → Nat → Bool → List Bool → Option (List Bool × Bool × List Bool)
  | 0, _, prev, bs => some ([], prev, bs)
  | _ + 1, _, _, [] => none
  | need + 1, run, prev, b :: bs =>
    let r := if run ≠ 0 ∧ b = prev then run + 1 else 1
    if r = 40 then
      match bs with
      | [] => none
      | x :: xs =>
        if x = b then none
        else (destuffGo need 1 x xs).map (fun t => (b :: t.1, t.2))
    else (destuffGo need r b bs).map (fun t => (b :: t.1, t.2))

/-- The first `need` coded bits of a bolt, the last line bit they take, and the bits after them. -/
def destuff (need : Nat) (l : List Bool) : Option (List Bool × Bool × List Bool) := destuffGo need 0 false l

/-- Fill of `n` UI after line bit `prev` (R75). -/
def fillBits : Nat → Bool → List Bool
  | 0, _ => []
  | n + 1, prev => (!prev) :: fillBits n (!prev)

/-- Bits that follow `prev` alternate as fill does. -/
def fillRegular : Bool → List Bool → Bool
  | _, [] => true
  | prev, b :: bs => (b != prev) && fillRegular b bs

/-! ### A whole bolt (R69) -/

/-- The line bits of one slot: header, scrambled payload, parity, stuffing, fill; with the scrambler state after it. -/
def boltLine (long : Bool) (st : Nat) (payload : List Byte) : List Bool × Nat :=
  let (scr, st1) := scramble st (bytesBits payload)
  let par := bytesBits (boltParityBytes long (bitsBytes scr))
  let st2 := par.foldl scrPush st1
  let line := stuff (headerBits (boltHeader long) ++ scr ++ par)
  (line ++ fillBits (slotLen long - line.length) (line.getLast?.getD false), st2)

/-- How the bits of a slot read: the causes that lose the whole bolt, in the order of R85; the payload (empty when lost); symbols
corrected; 1 where the header was accepted with one bit wrong (R68, R87); the descrambler state after; whether the fill is
regular. -/
structure BoltRead where
  causes : List Nat
  payload : List Byte
  corr : Nat
  hdr : Nat
  descr : Nat
  fillOk : Bool
deriving DecidableEq, Repr

/-- The cause that names a bolt not decoded intact (R73, R85). -/
def BoltRead.lost (r : BoltRead) : Option Nat := r.causes.head?

/-- A slot's line bits read (R68-R75). The state of a bolt not decoded intact takes the body bits as they stand where the bolt could
be cut out (R73 calls it unreliable). Where stuffing is missing nothing tells coded bits from fill, and no fill is judged (DESIGN
CHOICE, log entry 93). Symbols corrected in one codeword of a bolt whose other codeword is uncorrectable are not counted: the bolt is
lost whole (DESIGN CHOICE, log entry 93). -/
def boltReceive (long : Bool) (st : Nat) (bits : List Bool) : BoltRead :=
  match destuff (codedBits long) bits with
  | none =>
    let hd := bitDistance (headerBits (boltHeader long)) (bits.take 16)
    if 1 < hd then ⟨[0x0101, 0x0103], [], 0, 0, st, true⟩ else ⟨[0x0103], [], 0, hd, st, true⟩
  | some (coded, prev, rest) =>
    let hd := bitDistance (headerBits (boltHeader long)) (coded.take 16)
    let bodyBits := coded.drop 16
    let head := if 1 < hd then [0x0101] else []
    match boltDecode long (bitsBytes bodyBits) with
    | none => ⟨head ++ [0x0102], [], 0, if 1 < hd then 0 else hd, bodyBits.foldl scrPush st, fillRegular prev rest⟩
    | some (body, n) =>
      if 1 < hd then ⟨head, [], 0, 0, bodyBits.foldl scrPush st, fillRegular prev rest⟩
      else
        let good := bytesBits body
        let (plain, st1) := descramble st (good.take (8 * boltPayload long))
        let st2 := (good.drop (8 * boltPayload long)).foldl scrPush st1
        ⟨[], bitsBytes plain, n, hd, st2, fillRegular prev rest⟩

end Sys2Proof.Machine
end

