-- ==== Sys2Proof/Machine/TileStore.lean ====
section
/-! DEFINITION. Tile store (spec/04 R95, spec/06 R158): bytes by 2^19 × tile + address, packed elements, and words that
read as uncorrectable (spec/06 R182). -/

namespace Sys2Proof.Machine

/-- Bytes of a tile store. -/
abbrev tsSize : Nat := 2 ^ 19

/-- `n` bytes of the tile store of tile `t` from `a`; past its end 0. -/
def tsRead (s : State) (t a n : Nat) : List Byte :=
  (List.range n).map (fun i => if a + i < tsSize then sget dByte s.ts (tsSize * t + a + i) else 0)

/-- As tsRead, with zeros for the 8-byte words of `bad`, which read as uncorrectable (R182). -/
def tsReadBad (s : State) (t : Nat) (bad : List Nat) (a n : Nat) : List Byte :=
  if bad.isEmpty then tsRead s t a n
  else (List.range n).map (fun i =>
    if a + i < tsSize && !bad.contains ((a + i) / 8) then sget dByte s.ts (tsSize * t + a + i) else 0)

/-- Bytes written to the tile store of tile `t` from `a`; none past its end. -/
def tsWrite (s : State) (t a : Nat) (bs : List Byte) : State :=
  { s with ts := ssetMany dByte (tsSize * t + a) (bs.take (tsSize - a)) s.ts }

/-- `n` elements of `w` bits packed from byte 0, element 0 in the lowest bits (R95). -/
def unpackElems (w n : Nat) (bs : List Byte) : List Nat :=
  let v := ofLe bs
  (List.range n).map (fun i => v / 2 ^ (w * i) % 2 ^ w)

/-- Elements packed under R95. -/
def packElems (w : Nat) (xs : List Nat) : List Byte :=
  leBytes (ceilDiv (w * xs.length) 8)
    ((List.range xs.length).foldl (fun v i => v + xs.getD i 0 % 2 ^ w * 2 ^ (w * i)) 0)

/-- `n` elements of `w` bits at `a`. -/
def tsElems (s : State) (t : Nat) (bad : List Nat) (a w n : Nat) : List Nat :=
  unpackElems w n (tsReadBad s t bad a (ceilDiv (w * n) 8))

/-- The little-endian number of `n` bytes at `a`. -/
def tsNum (s : State) (t : Nat) (bad : List Nat) (a n : Nat) : Nat := ofLe (tsReadBad s t bad a n)

/-- Some 8-byte word of [a, a + n) is in `bad`. -/
def hitsBad (bad : List Nat) (a n : Nat) : Bool :=
  bad.any (fun w => 0 < n && a / 8 ≤ w && w ≤ (a + n - 1) / 8)

end Sys2Proof.Machine
end

