-- ==== Sys2Proof/Machine/ReedOps.lean ====
section
/-! DEFINITION. Warp bursts in Reed (spec/07 R187-R192): slot entries, the next router, the cut at a frame-period
boundary; and the frame period that the current tick lies in (spec/02 R43). -/

namespace Sys2Proof.Machine

/-! ### Frame periods (R43, R153, R154) -/

/-- The start of the frame period that holds tick `t`; none before the first. TB_FRAME_CFG is taken as it stands: a SLOT of
M or more, or an M above 4,096, which the spec forbids and gives no effect, runs by the same arithmetic (DESIGN CHOICE, log
entry 15). -/
def periodStart (s : State) (t : Nat) : Option Nat :=
  if t < tbSlot s then none else some (tbSlot s + (t - tbSlot s) / tbM s * tbM s)

/-- δ of the loaded image. -/
def imageDelta (s : State) : Nat := match s.image with | some i => i.delta | none => 0
/-- P of the loaded image; 0 without one. -/
def imageP (s : State) : Nat := match s.image with | some i => i.p | none => 0
/-- H of the loaded image. -/
def imageH (s : State) : Nat := match s.image with | some i => max 1 i.h | none => 1

/-- The phase variant of the frame period that starts at tick `t` (R153). -/
def phaseOf (s : State) (t : Nat) : Nat := (t - tbSlot s) / tbM s % imageH s

/-- The frame that a slot with lag `lag` serves in the frame period that starts at tick `t` (R154); none when the slot
is idle (R156). -/
def servedFrame (s : State) (t lag : Nat) : Option Nat :=
  let back := (imageDelta s + lag) * tbM s
  if t < tbSlot s + back then none
  else match s.tb.stopAt with
    | some b => if b ≤ t - back then none else some (t - back)
    | none => some (t - back)

/-- REED cycle 0 of the frame period that starts at tick `t`, counted from tick 0 of the run. -/
def cycleBase (s : State) (t : Nat) : Nat := 2 * tbN s * t

/-- The REED cycle that runs, numbered from tick 0 of the run by the frame period and its cycle (R187). -/
def nowCycle (s : State) : Nat :=
  match periodStart s s.tb.tick with
  | some t => cycleBase s t + s.tb.cyc
  | none => s.tb.cyc

/-! ### Slot entries (R188) -/

/-- Slot entry `i` of router `r`. -/
def slotEntry (s : State) (r i : Nat) : Nat := (sget dDWord s.rd.slots (8192 * r + i)).toNat

/-- Entries of a router: 2,048 of a tile, 8,192 of the hub. -/
def slotCount (r : Nat) : Nat := if r = 256 then 8192 else 2048

/-- The listed slot entries of router `r`. -/
def routerEntries (s : State) (r : Nat) : List Nat :=
  (s.rd.slots.filter (fun e => 8192 * r ≤ e.1 && e.1 < 8192 * r + slotCount r)).map (fun e => e.2.toNat)

/-- The entry takes a flit at this input in this cycle and variant. A burst on a tile's local input (IN = 4) is taken
whatever its SIN. -/
def entryTakes (r e phase cyc port sub : Nat) : Bool :=
  bitN e 63 && (bitN e 62 || fld e 61 56 == phase) && fld e 55 42 == cyc && fld e 41 36 == port
    && ((decide (r < 256) && port == 4) || fld e 35 34 == sub)

/-- The slot entries of router `r` with their indexes. -/
def indexedEntries (w : State) (r : Nat) : List (Nat × Nat) :=
  ((w.rd.slots.filter (fun e => 8192 * r ≤ e.1 && e.1 < 8192 * r + slotCount r)).map
    (fun e => (e.1 - 8192 * r, e.2.toNat))).filter (fun e => bitN e.2 63)

/-- Entry `e` applies in variant `v`. -/
def appliesIn (e v : Nat) : Bool := bitN e 62 || fld e 61 56 == v

/-- Delivery map entry of stream `n` in tile `t` is VALID. -/
def mapValid (s : State) (t n : Nat) : Bool := bitN (sget dDWord s.dmap (16 * t + n)).toNat 31

/-- Subchannels of stream `n` in delivery column `k`. -/
def subMask (s : State) (n k : Nat) : Nat := fld (streamRec s n).subch (4 * k + 3) (4 * k)

/-- Subchannels of the link up column `x` of die `d` from row `y`, 8 being the outer station, that delivery lanes hold (R193): those
of the streams with a delivery tile farther on in the column. -/
def laneHeld (s : State) (d x y : Nat) : Nat :=
  (List.range 16).foldl (fun m n =>
    if (streamRec s n).en && (List.range y).any (fun r => mapValid s (64 * d + 8 * r + x) n) then m ||| subMask s n x
    else m) 0

/-- Subchannels of the Y- output of the router of tile `t` that delivery lanes hold. -/
def laneMask (s : State) (t : Nat) : Nat := laneHeld s (t / 64) (t % 8) (t / 8 % 8)

/-- Subchannels of output `out` of router `r` held in cycle `c` of variant `v`. -/
def heldMask (s : State) (r out v c : Nat) : Nat :=
  (indexedEntries s r).foldl (fun m e =>
    if appliesIn e.2 v && fld e.2 33 28 == out && decide (fld e.2 55 42 ≤ c) && decide (c ≤ fld e.2 55 42 + fld e.2 25 23) then
      m ||| 2 ^ fld e.2 27 26
    else m) (if out = 0 then laneMask s r else 0)

/-- Where a burst that leaves router `r` by output `out` stands next: (router, port, cycles later); none off the
mesh. -/
def nextInput (r out : Nat) : Option (Nat × Nat × Nat) :=
  if r = 256 then (if out < 32 then some (out / 8 * 64 + out % 8, 0, 5) else none)
  else
    let d := r / 64
    let y := r / 8 % 8
    let x := r % 8
    match out with
    | 0 => if y = 0 then some (256, 8 * d + x, 4) else some (r - 8, 2, 1)
    | 1 => if x = 7 then some ((d + 1) % 4 * 64 + 8 * y, 3, 4) else some (r + 1, 3, 1)
    | 2 => if y = 7 then none else some (r + 8, 0, 1)
    | 3 => if x = 0 then some ((d + 3) % 4 * 64 + 8 * y + 7, 1, 4) else some (r - 1, 1, 1)
    | _ => none

/-- A burst put on the local input of its tile's router (R188). -/
def launchBurst (s : State) (t cyc tag frame : Nat) (bs : List Byte) : State :=
  { s with rd := { s.rd with flits := s.rd.flits ++ [⟨t, 4, 0, cyc, tag, frame, bs⟩] } }

/-- One copy of a burst sent where an entry says (R188, R189): to the next router, or to the Heddle of the port by which
it came. -/
def followEntry (s : State) (f : Flit) (e : Nat) : State :=
  let out := fld e 33 28
  if f.router ≠ 256 ∧ out = 4 then
    { s with rd := { s.rd with
        arrived := s.rd.arrived ++ [(f.router, f.port, { f with cyc := f.cyc + fld e 25 23 })] } }
  else match nextInput f.router out with
    | some (r, p, d) =>
      { s with rd := { s.rd with
          flits := s.rd.flits ++ [{ f with router := r, port := p, sub := fld e 27 26, cyc := f.cyc + d }] } }
    | none => s

/-- Flits of a burst: one for 16 bytes (R188). -/
def burstFlits (f : Flit) : Nat := ceilDiv f.payload.length 16

/-- The flits that routers still hold at a frame-period boundary are discarded (R191), each counted. -/
def cutFlits (s : State) : State :=
  if s.rd.flits.isEmpty then s
  else
    let s1 := dropped (raise s 0x0407 noSource 0) (s.rd.flits.map burstFlits).sum
    { s1 with rd := { s1.rd with flits := [] } }

end Sys2Proof.Machine
end

