-- ==== Sys2Proof/Machine/Beam.lean ====
section
/-! DEFINITION. Beam (spec/03): slots on the tick grid, alignment, damage and substitution, delivery, the back channel,
and the commands BOLT, LANE_DOWN, CLOCK_RECOVERY_LOCK, FRAME_DELIVERY and BACK_CHANNEL_BOLT. -/

namespace Sys2Proof.Machine

/-! ### Lanes -/

/-- A lane after reset. -/
abbrev dLane : Nat → LaneSt := fun _ => {}
/-- Lane `i`. -/
def bmLane (s : State) (i : Nat) : LaneSt := sget dLane s.bm.lanes i
/-- Lane `i` set. -/
def setLane (s : State) (i : Nat) (l : LaneSt) : State :=
  { s with bm := { s.bm with lanes := sset dLane i l s.bm.lanes } }

/-- BM_LANE_STATUS.STATE of lane `i`: 0 OFF, 1 CDR, 2 SYNC, 3 WAIT_RUN, 4 ALIGNED, 5 DOWN. -/
def laneState (s : State) (i : Nat) : Nat := regF s (rBmLaneStatus i) 2 0
/-- STATE of lane `i` set. -/
def setLaneState (s : State) (i v : Nat) : State := setF s (rBmLaneStatus i) 2 0 v
/-- Lane `i` is enabled. -/
def laneEn (s : State) (i : Nat) : Bool := regBit s (rBmLaneCfg i) 31
/-- The stream of lane `i`. -/
def laneStream (s : State) (i : Nat) : Nat := regF s (rBmLaneCfg i) 27 24
/-- The index of lane `i` in its stream. -/
def laneIndex (s : State) (i : Nat) : Nat := regF s (rBmLaneCfg i) 20 16

/-- Lane rate in kb/s of a RATE code (R63); 0 for a reserved code. -/
def rateKbps (rate : Nat) : Nat := [8000000, 12500000, 16000000, 25000000, 28000000].getD rate 0
/-- Rate of the group of lane `i`. -/
def laneRate (s : State) (i : Nat) : Nat := rateKbps (regF s (rBmGroupCfg (i / 16)) 2 0)

/-- Lanes of stream `n`, by index. -/
def streamLanes (s : State) (n : Nat) : List Nat :=
  let ls := (List.range (laneCount s)).filter (fun i => laneEn s i && laneStream s i == n)
  (List.range 32).flatMap (fun k => ls.filter (fun i => laneIndex s i == k))

/-- BOLT: long bolts. -/
def streamLong (s : State) (n : Nat) : Bool := regBit s (rBmStreamCfg n) 30
/-- B_F. -/
def streamBf (s : State) (n : Nat) : Nat := regF s (rBmStreamCfg n) 7 0
/-- TXOFS. -/
def streamTxofs (s : State) (n : Nat) : Nat := regF s (rBmStreamCfg n) 23 16
/-- RDPT. -/
def streamRdpt (s : State) (n : Nat) : Nat := regF s (rBmStreamRdpt n) 16 0

/-- The frame budget UIP of a lane rate. -/
def frameBudget (s : State) (rate : Nat) : Nat := rate * tbM s / tickKhz s
/-- The guard G. -/
def guardUi (uip : Nat) : Nat := 16 + ceilDiv uip 4096
/-- B_TX (R88). -/
def txSlots (s : State) (n rate : Nat) : Nat :=
  (frameBudget s rate - guardUi (frameBudget s rate) - streamTxofs s n) / 576

/-- Frame data bytes of one lane (R67). -/
def laneBytes (s : State) (n : Nat) : Nat := streamBf s n * boltPayload (streamLong s n) - 4
/-- The frame size of R67. -/
def frameSize (s : State) (n : Nat) : Nat := (streamLanes s n).length * laneBytes s n

/-- A cause struck lane `i` (R84): raised with the lane as its source, counted in BM_LANE_VIOL. -/
def laneCause (s : State) (i cause : Nat) : State := countUp (raise s cause i 0) (rBmLaneViol i) 1

/-- LANE_DOWN (R87): the lane goes down and returns to clock recovery and header search. -/
def laneGoesDown (s : State) (i : Nat) : State :=
  let s := laneCause s i 0x0109
  let s := setRegBit (setRegBit (setLaneState s i 5) (rBmLaneStatus i) 4 false) (rBmLaneStatus i) 5 false
  setLane (eyeLost s i) i { bmLane s i with missed := 0, found := 0, lastHdr := none, downSaid := true }

/-- A header was missed (R87); the fourth in a row takes the lane down. -/
def headerMissed (s : State) (i : Nat) : State :=
  let l := bmLane s i
  let s := setRegBit (setLane s i { l with missed := l.missed + 1, found := 0 }) (rBmLaneStatus i) 4 false
  if 4 ≤ l.missed + 1 then laneGoesDown s i else s

/-- A header was accepted: the count of misses starts again; 64 in a row set HDR_LOCK. -/
def headerFound (s : State) (i : Nat) : State :=
  let l := bmLane s i
  let s := setLane s i { l with missed := 0, found := min 64 (l.found + 1) }
  if 64 ≤ l.found + 1 then setRegBit s (rBmLaneStatus i) 4 true else s

/-- Where the header of slot `j` of the frame at `tick` is expected, in UI from the start of its period (R77). -/
def expectedPos (s : State) (i tick j : Nat) : Nat :=
  let len := slotLen (streamLong s (laneStream s i))
  let d := regF s (rBmLaneDmeas i) 15 0
  if j = 0 then d
  else
    match (bmLane s i).lastHdr with
    | some (t, k, p) => if t = tick ∧ k < j then p + (j - k) * len else d + j * len
    | none => d + j * len

/-- The distance of two positions. -/
def uiApart (a b : Nat) : Nat := (a - b) + (b - a)

/-- A slot's outcome is kept for delivery. -/
def keepBolt (s : State) (i : Nat) (b : RxBolt) : State :=
  let l := bmLane s i
  setLane s i { l with bolts := l.bolts ++ [b] }

/-- The causes by which a frame word is wrong (R66, R84), in the order of R85. Reserved bit [9] is not checked: no cause names it (DESIGN
CHOICE, log entry 93). -/
def frameWordCauses (s : State) (i tick : Nat) (w : Nat) : List Nat :=
  (if fld w 3 0 = laneStream s i then [] else [0x0105])
    ++ (if fld w 8 4 = laneIndex s i then [] else [0x0106])
    ++ (if fld w 25 10 = tick % 2 ^ 16 then [] else [0x0107])

/-- Lane `i` is in the read window: RDPT − 2,048 ≤ D ≤ RDPT (R79). -/
def laneInWindow (s : State) (i : Nat) : Bool :=
  let d := regF s (rBmLaneDmeas i) 15 0
  let rd := streamRdpt s (laneStream s i)
  rd ≤ d + 2048 && d ≤ rd

/-- The lane aligns with offset `d` (R78, R79, R82); of an offset above 65,535 UI, which R78 excludes, the low 16 bits are stored
(DESIGN CHOICE, log entry 93). -/
def laneAlign (s : State) (i d : Nat) : State :=
  let s := setRegN s (rBmLaneDmeas i) (2 ^ 31 + d % 2 ^ 16)
  let inside := laneInWindow s i
  let s := setRegBit (setLaneState s i 4) (rBmLaneStatus i) 5 inside
  if inside then s
  else if (0x010A, i) ∈ s.tb.once then s
  else countUp (raiseOnce s 0x010A i i 0) (rBmLaneViol i) 1

/-- A lost slot is kept, with the cause that struck its first bytes before (R73); where its header took the lane down, the frame is
marked LANE_DOWN (R84, R87). -/
def keepLost (s : State) (i tick j cause : Nat) (before : Option Nat) : State :=
  let s := keepBolt s i ⟨tick, j, [], some cause, before, 0⟩
  if laneState s i = 5 then keepBolt s i ⟨tick, j, [], some 0x0109, none, 0⟩ else s

/-- The causes of a bolt raised (R84, R85), codewords and corrections counted (R87). -/
def noteBolt (s : State) (i : Nat) (r : BoltRead) : State :=
  let s := r.causes.foldl (fun s c => laneCause s i c) (countUp s (rBmLaneCorr i) (r.corr + r.hdr))
  let s := if r.causes.contains 0x0102 then countUp s (rBmLaneUncorr i) 1 else s
  if r.fillOk then s else laneCause s i 0x0108

/-- A bolt with a header at its expected position, in a run on an aligned lane (R69-R75, R84, R86). -/
def takeBolt (s : State) (i tick j pos : Nat) (bits : List Bool) : State :=
  let l := bmLane s i
  let r := boltReceive (streamLong s (laneStream s i)) l.descr bits
  let hdr := if r.causes.contains 0x0101 then l.lastHdr else some (tick, j, pos)
  let s := noteBolt (setLane s i { l with descr := r.descr, dirty := r.lost, lastHdr := hdr }) i r
  let s := if r.causes.contains 0x0101 then headerMissed s i else headerFound s i
  match r.lost with
  | some c => keepLost s i tick j c l.dirty
  | none =>
    let cs := if j = 0 ∧ l.dirty = none then frameWordCauses s i tick (leAt r.payload 0 4) else []
    keepBolt (cs.foldl (fun s c => laneCause s i c) s) i ⟨tick, j, r.payload, cs.head?, l.dirty, r.corr⟩

/-- A bolt outside a run, or on a lane that has not aligned: header search and the descrambler go on (R87, R72). No header is
expected at a position, so that a header that fails R68 is no malformed one; the other causes of an accepted header are raised
(R84). -/
def searchBolt (s : State) (i : Nat) (bits : List Bool) : State :=
  let l := bmLane s i
  let r := boltReceive (streamLong s (laneStream s i)) l.descr bits
  let s := setLane s i { l with descr := r.descr, dirty := r.lost }
  if r.causes.contains 0x0101 then setRegBit (setLane s i { bmLane s i with found := 0 }) (rBmLaneStatus i) 4 false
  else noteBolt (headerFound s i) i r

/-- A bolt in header search outside a run; 64 headers take the lane from SYNC to WAIT_RUN. -/
def idleBolt (s : State) (i : Nat) (bits : List Bool) : State :=
  let s := searchBolt s i bits
  if regBit s (rBmLaneStatus i) 4 && laneState s i == 2 then setLaneState s i 3 else s

/-- A bolt in a run on a lane that has no offset yet (R78): a slot-0 bolt that decodes with a valid frame word aligns
the lane. -/
def firstBolt (s : State) (i tick j pos : Nat) (bits : List Bool) : State :=
  let l := bmLane s i
  let r := boltReceive (streamLong s (laneStream s i)) l.descr bits
  if j = 0 ∧ r.lost = none ∧ l.dirty = none ∧ frameWordCauses s i tick (leAt r.payload 0 4) = [] then
    takeBolt (laneAlign s i pos) i tick j pos bits
  else searchBolt s i bits

/-- The first 16 bits read as a header of the configured size (R68). -/
def headerOk (long : Bool) (bits : List Bool) : Bool := bitDistance (headerBits (boltHeader long)) (bits.take 16) ≤ 1

/-- A bolt of lane `i` at UI `pos` after the start of the frame period at `tick`, slot `j`, in a run. A misplaced bolt is still read:
its bits pass the descrambler and its own faults strike the next bolt, but its position predicts none (DESIGN CHOICE, log entry
93). -/
def runBolt (s : State) (i tick j pos : Nat) (bits : List Bool) : State :=
  let valid := regBit s (rBmLaneDmeas i) 31
  if !valid then firstBolt s i tick j pos bits
  else if laneState s i != 4 then
    if j = 0 ∧ uiApart pos (regF s (rBmLaneDmeas i) 15 0) ≤ 8
        ∧ headerOk (streamLong s (laneStream s i)) bits then
      takeBolt (setRegBit (setLaneState s i 4) (rBmLaneStatus i) 5 (laneInWindow s i)) i tick j pos bits
    else searchBolt s i bits
  else if 8 < uiApart pos (expectedPos s i tick j) then
    let l := bmLane s i
    let r := boltReceive (streamLong s (laneStream s i)) l.descr bits
    let s := setLane s i { l with descr := r.descr, dirty := r.lost }
    let s := headerMissed (laneCause s i 0x0104) i
    keepLost s i tick j 0x0104 l.dirty
  else takeBolt s i tick j pos bits

/-! ### Delivery (R80-R86) -/

/-- What one lane brings to one frame: its bytes with a mark on each byte that a fault struck, the cause of its status
record, the symbols corrected, the front-end flags. -/
structure LaneFrame where
  bytes : List (Byte × Bool)
  cause : Option Nat
  corr : Nat
  fe : Nat
deriving DecidableEq, Repr

/-- A lane's data wholly struck. -/
def struckLane (n : Nat) (cause corr fe : Nat) : LaneFrame := ⟨List.replicate n (0, true), some cause, corr, fe⟩

/-- FE_FLAGS of the frame word of a lane's slot 0, where it was checked and found correct; 0 elsewhere (R66). -/
def frameFlags (b : Option RxBolt) : Nat :=
  match b with
  | some b => if b.hurt.isNone && b.hurt8.isNone then fld (leAt b.payload 0 4) 31 26 else 0
  | none => 0

/-- The bytes of one slot: wholly struck, or with payload bytes 0-7 struck (R73). -/
def slotBytes (long : Bool) (b : RxBolt) : List (Byte × Bool) :=
  let n := boltPayload long
  match b.hurt with
  | some _ => List.replicate n (0, true)
  | none => (List.range n).map (fun k => (b.payload.getD k 0, b.hurt8.isSome && k < 8))

/-- The causes that name a status record, in the order of R85. -/
def causeOrder : List Nat :=
  [0x0109, 0x010A, 0x0104, 0x0101, 0x0103, 0x0102, 0x0105, 0x0106, 0x0107]

/-- The cause that the status record names (R85). -/
def firstCause (cs : List Nat) : Option Nat := causeOrder.find? (fun c => cs.contains c)

/-- What lane `i` of stream `n` brings to the frame at `tick`. -/
def laneFrame (s : State) (n i tick : Nat) : LaneFrame :=
  let long := streamLong s n
  let bf := streamBf s n
  let total := laneBytes s n
  let bolts := (bmLane s i).bolts.filter (fun b => b.frame == tick)
  let corr := (bolts.map (·.corr)).sum
  let slots := (List.range bf).map (fun j => bolts.find? (fun b => b.slot == j))
  let causes := bolts.filterMap (·.hurt) ++ bolts.filterMap (·.hurt8)
  let fe := frameFlags (slots.headD none)
  if slots.any (·.isNone) || causes.contains 0x0109 then struckLane total 0x0109 corr fe
  else if !laneInWindow s i then struckLane total 0x010A corr fe
  else
    let word := match slots.headD none with
      | some b => if b.hurt.isSome then b.hurt else none
      | none => none
    if word = some 0x0105 ∨ word = some 0x0106 ∨ word = some 0x0107 then
      struckLane total ((firstCause causes).getD 0) corr fe
    else
      let misplaced := (List.range bf).find? (fun j => match slots.getD j none with
        | some b => b.hurt == some 0x0104
        | none => false)
      let parts := (List.range bf).map (fun j => match slots.getD j none with
        | some b =>
          match misplaced with
          | some m => if m ≤ j then List.replicate (boltPayload long) (0, true) else slotBytes long b
          | none => slotBytes long b
        | none => List.replicate (boltPayload long) (0, true))
      ⟨parts.flatten.drop 4, firstCause causes, corr, fe⟩

/-- A status record enters the queue of its stream, or is dropped at a full queue (R91). -/
def queueStatus (s : State) (n : Nat) (r : StatusRec) : State :=
  let x := bmStream s n
  if 32 ≤ x.statusQ.length then countUp (raiseOnce s 0x010C 0 n 0) (rBmStreamStatdrop n) 1
  else setBmStream s n { x with statusQ := x.statusQ ++ [r] }

/-- Substitution of the struck bytes of a frame (R83): zeros, or the last value not struck there. -/
def substitute (s : State) (n : Nat) (bs : List (Byte × Bool)) : List Byte :=
  let held := (bmStream s n).holdLast
  let hold := regBit s (rBmStreamCfg n) 29
  (List.range bs.length).map (fun k =>
    let p := bs.getD k (0, true)
    if !p.2 then p.1 else if hold then ((held.getD k none).getD 0) else 0)

/-- Hold-last finds no earlier good value for a struck byte (R83). -/
def holdEmpty (s : State) (n : Nat) (bs : List (Byte × Bool)) : Bool :=
  regBit s (rBmStreamCfg n) 29 && (List.range bs.length).any (fun k =>
    (bs.getD k (0, true)).2 && ((bmStream s n).holdLast.getD k none).isNone)

/-- The values that hold-last keeps after a frame. -/
def holdUpdate (s : State) (n : Nat) (bs : List (Byte × Bool)) : List (Option Byte) :=
  (List.range bs.length).map (fun k =>
    let p := bs.getD k (0, true)
    if p.2 then (bmStream s n).holdLast.getD k none else some p.1)

/-- Delivery map entry of stream `n` at tile `t` (R193): VALID, unit offset, units, tile-store base in 16-byte units. -/
def deliveryEntry (s : State) (t n : Nat) : Nat := (sget dDWord s.dmap (16 * t + n)).toNat

/-- The poisoned units pass tile `t`: it lies in the column of the router that found the error, at that router or beyond it
on the way from the outer station (R193, R208). -/
def unitPasses (t : Nat) (f : UnitFlit) : Bool :=
  t / 64 == f.tile / 64 && t % 8 == f.tile % 8 && t / 8 % 8 ≤ f.tile / 8 % 8

/-- The units of a frame as tile `t` takes them: zeros over the failed 8-byte words of poisoned units (R208). -/
def unitsAt (t : Nat) (flits : List UnitFlit) (units : List Byte) : List Byte :=
  flits.foldl (fun bs f =>
    if unitPasses t f then
      (List.range bs.length).map (fun k =>
        if k / 16 = f.unit ∧ bitN f.words (k / 8 % 2) then 0 else bs.getD k 0)
    else bs) units

/-- The delivery lanes of stream `n` reach tile `t`: it lies on the stream's die, in a delivery column (R193). -/
def laneReaches (s : State) (n t : Nat) : Bool := t / 64 == streamDie s n && subMask s n (t % 8) != 0

/-- The frame data written into the tile stores that the delivery maps name along the delivery lanes (R193, R194). -/
def deliverToTiles (s : State) (n : Nat) (data : List Byte) (flits : List UnitFlit) : State :=
  let padded := padTo (ceilDiv data.length 16 * 16) data
  (List.range (tileCount s)).foldl (fun s t =>
    let e := deliveryEntry s t n
    if bitN e 31 && laneReaches s n t then
      let off := 16 * fld e 47 32
      let len := 16 * fld e 63 48
      tsWrite s t (16 * fld e 14 0) (((unitsAt t flits padded).drop off).take len)
    else s) s

/-- Flit errors of delivery units counted, and raised where uncorrectable (R208). -/
def unitErrors (s : State) (flits : List UnitFlit) : State :=
  flits.foldl (fun s f =>
    if f.words % 4 = 0 then countUpF s rRdEccCnt 15 0 1
    else countUpF (raise s 0x0401 f.tile 0) rRdEccCnt 31 16 1) s

/-- The fine-time values of the stream's channels in frame data (R308). -/
def fineTimes (s : State) (n : Nat) (data : List Byte) : List Nat :=
  (List.range (streamRec s n).nchan).map (fun c => leAt data ((streamRec s n).chOfs.getD c 0) 2)

/-- Events with a negative calibrated time in a delivered frame (R57). -/
def prerunChannels (s : State) (n tick : Nat) (times : List Nat) : State :=
  (List.range times.length).foldl (fun s c =>
    let v := times.getD c 0xFFFF
    if v != 0xFFFF && ((tick * 256 + v : Nat) : Int) + chanSkew s n c < 0 then prerunEvent s else s) s

/-- The assembled frame, damaged or not, handed on: tile stores, pending entry, Treadle, provenance (R80, R344, R369). -/
def handOver (s : State) (n tick : Nat) (data : List Byte) (damaged : Bool) (fe : Nat) (flits : List UnitFlit) :
    State :=
  let times := fineTimes s n data
  let x := bmStream s n
  let index := x.delivered
  let s := setBmStream s n { x with delivered := x.delivered + 1, chTimes := (tick, times) :: x.chTimes }
  let s := if damaged then countUp s (rBmStreamDamaged n) 1 else s
  let s := deliverToTiles (unitErrors s flits) n data flits
  let s := { s with
    bb := { s.bb with pend := s.bb.pend ++
      [⟨n, tick, s.rd.now, padTo (ceilDiv data.length 64 * 64) data⟩] }
    tr := { s.tr with undecided := s.tr.undecided ++ [⟨n, tick, index, data, damaged, fe⟩] } }
  let s := prerunChannels s n tick times
  provDeliver s n tick damaged data

/-- The bolts of frames up to `tick` leave the elastic buffers of the stream's lanes. -/
def dropBolts (s : State) (n tick : Nat) : State :=
  (streamLanes s n).foldl (fun s i =>
    let l := bmLane s i
    setLane s i { l with bolts := l.bolts.filter (fun b => tick < b.frame) }) s

/-- LANE_DOWN for a frame due while its lane is down or not aligned (R84, R87); the raise of a lane that went down since
the last frame due stands for the next one. -/
def laneDownDue (s : State) (i : Nat) (cause : Option Nat) : State :=
  let s := if cause = some 0x0109 ∧ (bmLane s i).downSaid = false then laneCause s i 0x0109 else s
  setLane s i { bmLane s i with downSaid := false }

/-- Status records and LANE_DOWN raises of a frame, lane by lane. The BM_LANE_VIOL value of a record is that of the moment it is queued
(DESIGN CHOICE, log entry 93). -/
def statusRecords (s : State) (n tick : Nat) (fs : List (Nat × LaneFrame)) : State :=
  fs.foldl (fun s p =>
    let s := laneDownDue s p.1 p.2.cause
    match p.2.cause with
    | some c => queueStatus s n
        ⟨tick, laneIndex s p.1, c, p.2.corr, min 0xFFFF (reg s (rBmLaneViol p.1)).toNat⟩
    | none => s) s

/-- The frame of stream `n` at `tick` is assembled and delivered; that of a stream which failed R81 is damaged whole, with zeros. -/
def deliverFrame (s : State) (n tick : Nat) (flits : List UnitFlit) : State :=
  let failed := (bmStream s n).cfgFailed
  let fs := (streamLanes s n).map (fun i => (i, laneFrame s n i tick))
  let bs := fs.flatMap (fun p => p.2.bytes)
  let damaged := failed || bs.any (·.2) || fs.any (fun p => p.2.cause.isSome)
    || flits.any (fun f => f.words % 4 != 0)
  let fe := fs.foldl (fun a p => a ||| p.2.fe) 0
  let data := if failed then zeros (frameSize s n) else substitute s n bs
  let s1 := if !failed && holdEmpty s n bs then raiseOnce s 0x010B 0 n 0 else s
  let s1 := statusRecords s1 n tick fs
  let s1 := if failed then s1 else setBmStream s1 n { bmStream s1 n with holdLast := holdUpdate s n bs }
  dropBolts (handOver s1 n tick data damaged fe flits) n tick

/-! ### Run start (R81, R93) -/

/-- Delivery tiles of stream `n` lie within H_D hops of the outer station (R194). -/
def hopsOk (s : State) (n : Nat) : Bool :=
  let hd := max 1 (16 * tbN s * tickKhz s / 1000000)
  (List.range (tileCount s)).all (fun t => !bitN (deliveryEntry s t n) 31 || 8 - t / 8 % 8 ≤ hd)

/-- The checks of R65, R76 and R81 on an enabled stream but for the hold-last total. -/
def streamCheck (s : State) (n : Nat) : Bool :=
  let ls := streamLanes s n
  let w := ls.length
  let rate := match ls.head? with | some i => laneRate s i | none => 0
  let len := slotLen (streamLong s n)
  let uip := frameBudget s rate
  let ui := streamRdpt s n + streamBf s n * len
  let f := tbN s * tickKhz s
  1 ≤ w && w ≤ 24
    && ls.all (fun i => i / 24 == (ls.headD 0) / 24)
    && ls.all (fun i => regF s (rBmGroupCfg (i / 16)) 2 0 == regF s (rBmGroupCfg ((ls.headD 0) / 16)) 2 0)
    && (List.range w).map id == ls.map (laneIndex s)
    && rate != 0
    && 1 ≤ streamBf s n
    && streamBf s n * len ≤ uip - guardUi uip
    && (streamRec s n).en
    && (streamRec s n).fsize == frameSize s n
    && ui * 1000000 * f + 24 * rate * f ≤ (streamRec s n).deliv * 1000000 * rate
    && 1 ≤ txSlots s n rate
    && hopsOk s n

/-- Bytes that the hold-last streams of die `d` hold. -/
def holdTotal (s : State) (d : Nat) : Nat :=
  (((List.range 16).filter (fun n =>
    regBit s (rBmStreamCfg n) 31 && regBit s (rBmStreamCfg n) 29 && streamDie s n == d)).map (frameSize s)).sum

/-- Stream `n` passes the run-start check of R81. -/
def runStartOk (s : State) (n : Nat) : Bool :=
  streamCheck s n && !(regBit s (rBmStreamCfg n) 29 && 65536 < holdTotal s (streamDie s n))

/-- Beam at a RUN_SYNC edge that begins a run (R81, R93): offsets cleared, no lane aligned, streams checked.
Status and decision records of the run before stay queued (DESIGN CHOICE, log entry 93). -/
def beamRunStart (s : State) : State :=
  let s := (List.range 96).foldl (fun s i =>
    let l := bmLane s i
    let s := setLane s i { l with bolts := [], lastHdr := none, missed := 0, downSaid := false }
    let s := setRegBit (setRegN s (rBmLaneDmeas i) 0) (rBmLaneStatus i) 5 false
    if laneState s i == 4 then setLaneState s i 3 else s) s
  (List.range 16).foldl (fun s n =>
    let x := bmStream s n
    let bad := regBit s (rBmStreamCfg n) 31 && !runStartOk s n
    let s := setBmStream s n { x with holdLast := [], cfgFailed := bad, delivered := 0, chTimes := [] }
    if bad then raiseOnce s 0x010D n n 0 else s) s

/-! ### The back channel (R88-R91) -/

/-- The 15 bytes of a decision record. -/
def decisionBytes (d : DecisionRec) : List Byte :=
  [0x01] ++ leBytes 6 d.frame ++ leBytes 1 d.flags ++ leBytes 4 d.word ++ zeros 3

/-- The 15 bytes of a status record. -/
def statusBytes (r : StatusRec) : List Byte :=
  [0x02] ++ leBytes 6 r.frame ++ leBytes 1 r.lane ++ leBytes 2 r.cause ++ leBytes 2 (min 0xFFFF r.corr)
    ++ leBytes 2 r.viol ++ zeros 1

/-- Insertion by a key, stable. -/
def insertBy {α : Type} (key : α → Nat) (x : α) : List α → List α
  | [] => [x]
  | y :: ys => if key y ≤ key x then y :: insertBy key x ys else x :: y :: ys

/-- Stable order by a key. -/
def sortBy {α : Type} (key : α → Nat) (l : List α) : List α := l.foldl (fun acc x => insertBy key x acc) []

/-- The payload of a transmit slot, and the stream's queues after it (R89, R91): up to four records, decision records
first in frame-ID order, then status records in frame-ID order and lane-index order. Lanes of other indices than 0
carry none. -/
def slotPayload (s : State) (n i tick j : Nat) : List Byte × StreamSt :=
  let x := bmStream s n
  if laneIndex s i ≠ 0 then
    (padTo 64 (leBytes 4 (n + fld tick 15 0 * 2 ^ 8 + j % 256 * 2 ^ 24)), x)
  else
    let ds := sortBy (·.frame) x.decisionQ
    let ss := sortBy (fun r => r.frame * 32 + r.lane) x.statusQ
    let dn := ds.take 4
    let sn := ss.take (4 - dn.length)
    let recs := dn.map decisionBytes ++ sn.map statusBytes
    (padTo 64 (leBytes 4 (n + recs.length * 2 ^ 4 + fld tick 15 0 * 2 ^ 8 + j % 256 * 2 ^ 24) ++ recs.flatten),
     { x with decisionQ := ds.drop 4, statusQ := ss.drop (4 - dn.length) })

/-! ### Commands -/

/-- BOLT (R69): lane `i` receives the line bits of slot `j` of the frame period that starts at tick `tick`; its header
stands `pos` UI after the start of the period. -/
def execBolt (i tick j pos : Nat) (bits : List Bool) (s : State) : Host.Outcome State Fault Refusal :=
  onUnit 96 (laneCount s) i s fun s =>
    if !laneEn s i || laneRate s i == 0 || laneState s i < 2 || laneState s i == 5 then s
    else
      let bits := if regBit s (rBmLaneCfg i) 0 then bits.map (!·) else bits
      if runActive s then runBolt s i tick j pos bits else idleBolt s i bits

/-- LANE_DOWN (R87): clock recovery of lane `i` is lost, or four expected headers in a row have been missed. -/
def execLaneDown (i : Nat) (s : State) : Host.Outcome State Fault Refusal :=
  onUnit 96 (laneCount s) i s fun s =>
    if laneState s i < 2 || laneState s i == 5 then s
    else if runActive s then laneGoesDown s i
    else
      let s := setRegBit (setLaneState (eyeLost s i) i 1) (rBmLaneStatus i) 4 false
      setLane s i { bmLane s i with missed := 0, found := 0, lastHdr := none }

/-- CLOCK_RECOVERY_LOCK (R64, R87): the receiver of lane `i` recovers the clock and searches for headers. -/
def execClockRecoveryLock (i : Nat) (s : State) : Host.Outcome State Fault Refusal :=
  onUnit 96 (laneCount s) i s fun s =>
    if laneEn s i && !s.bm.dead.contains (i / 16) && laneRate s i != 0 && (laneState s i ≤ 1 || laneState s i == 5) then setLaneState s i 2 else s

/-- FRAME_DELIVERY (R80): the delivery pulse of the next frame of stream `n`, with the flit errors that its delivery units
met in Reed (R208). Nothing is delivered outside a run, by a
stream that takes no part, or from the STOP boundary on (R41). -/
def execFrameDelivery (n : Nat) (flits : List UnitFlit) (s : State) : Host.Outcome State Fault Refusal :=
  onUnit 16 16 n s fun s =>
    let tick := tbSlot s + tbM s * (bmStream s n).delivered
    let open' := match s.tb.stopAt with
      | some b => tick < b
      | none => true
    if runActive s && streamOn s n && open' && tick ≤ s.tb.tick then deliverFrame s n tick flits else s

/-- BACK_CHANNEL_BOLT (R88-R91): lane `i` sends transmit slot `j` of the frame period that starts at tick `tick`, and after the last
slot of the period the fill up to the first slot of the next (R75). -/
def execBackChannelBolt (i tick j : Nat) (s : State) : Host.Outcome State Fault Refusal :=
  onUnit 96 (laneCount s) i s fun s =>
    let n := laneStream s i
    if !laneEn s i || txSlots s n (laneRate s i) ≤ j then s
    else
      let (payload, x) := slotPayload s n i tick j
      let l := bmLane s i
      let (bits, scr) := boltLine false l.scr payload
      let gap := if j + 1 = txSlots s n (laneRate s i) then frameBudget s (laneRate s i) - 576 * (j + 1) else 0
      let bits := bits ++ fillBits gap (bits.getLast?.getD false)
      let bits := if regBit s (rBmLaneCfg i) 0 then bits.map (!·) else bits
      let s := setBmStream s n x
      setLane s i { l with scr := scr, txBits := bits }

end Sys2Proof.Machine
end

