-- ==== Sys2Proof/Machine/CxlOps.lean ====
section
/-! DEFINITION. The host interface as other blocks use it (spec/15): link and enables, bias of DDR4 pages (R423-R425),
host memory reads and posted writes with the coherency and translation caches (R429-R431). -/

namespace Sys2Proof.Machine

/-- The link is in L0. -/
def cxUp (s : State) : Bool := regBit s rCxLinkStatus 31
/-- Mem_Enable. -/
def memEn (s : State) : Bool := regBit s rCxMemStatus 29
/-- Cache_Enable. -/
def cacheEn (s : State) : Bool := regBit s rCxMemStatus 28
/-- ATS enabled by the host. -/
def atsEn (s : State) : Bool := regBit s rCxMemStatus 27
/-- Memory_Active. -/
def memActive (s : State) : Bool := regBit s rCxMemStatus 30
/-- Memory_Info_Valid. -/
def memInfoValid (s : State) : Bool := regBit s rCxMemStatus 31

/-! ### Bias (R423-R425) -/

/-- The bias bit of a page; after reset every page is in host bias. -/
def pageBias (s : State) (pg : Nat) : Bool := sget dFalse s.cx.bias pg
/-- The bias bit set. -/
def setPageBias (s : State) (pg : Nat) (b : Bool) : State := { s with cx := { s.cx with bias := sset dFalse pg b s.cx.bias } }

/-- The DPA lies in a WEFT or HDM region, where bias counts (R424). -/
def biased (s : State) (a : Nat) : Bool := kindAt s a 64 == some 3 || kindAt s a 64 == some 4

/-- What a shuttle access to a DDR4 line does first (R425): none when it may not go on; else the state after a line that
the host held modified is written back. -/
def resolveBias (s : State) (a : Nat) (x : UnitEnv) : Option State :=
  if !biased s a || pageBias s (a / 4096) || !memEn s then some s
  else if !cacheEn s then none
  else match x.modified with
    | some bs => some (memWrite s a (padTo 64 bs))
    | none => some s

/-! ### Host memory (R429, R430) -/

/-- A line put in the coherency cache: 4,096 sets of 16 lines of 64 bytes. -/
def cacheFill (s : State) (l : Nat) : State :=
  if s.cx.cache.contains l then s
  else
    let same := (s.cx.cache.filter (fun k => k % 4096 == l % 4096)).take 15
    let rest := s.cx.cache.filter (fun k => k % 4096 != l % 4096 || same.contains k)
    { s with cx := { s.cx with cache := l :: rest } }

/-- A translation kept: 1,024 entries. -/
def atcFill (s : State) (pg : Nat) : State :=
  if s.cx.atc.contains pg then s else { s with cx := { s.cx with atc := (pg :: s.cx.atc).take 1024 } }

/-- Host bytes read at `a`: the data and whether they are poisoned, or the failing status (R273, R430, R439). A
translation that is kept needs no request (R408). -/
def hostRead (s : State) (a n : Nat) (x : UnitEnv) : State × (Nat ⊕ List Byte × Bool) :=
  if !cxUp s then (s, .inl 0x0345)
  else
    let s := if x.cacheErr then
        let s := raise s 0x0809 noSource 0
        { s with cx := { s.cx with cache := [], internalErr := true } }
      else s
    if !(x.ats || (atsEn s && s.cx.atc.contains (a / 4096))) then (raise s 0x0808 noSource 0, .inl 0x0345)
    else match x.host with
      | none => (s, .inl 0x0345)
      | some bs =>
        let s := if atsEn s && cacheEn s then cacheFill (atcFill s (a / 4096)) (a / 64) else s
        (s, .inr (padTo n bs, x.poison))

/-- A posted write to host memory (R271, R429): false when the link is down or the address has no translation. -/
def hostWrite (s : State) (a : Nat) (bs : List Byte) (poison : Bool) (x : UnitEnv) : State × Bool :=
  if !cxUp s then (s, false)
  else if !x.ats then (raise s 0x0808 noSource 0, false)
  else ({ s with cx := { s.cx with cache := s.cx.cache.erase (a / 64), hostOut := (a, bs, poison) :: s.cx.hostOut } }, true)

end Sys2Proof.Machine
end

