-- ==== Sys2Proof/Machine/LedgerOps.lean ====
section
/-! DEFINITION. The boot ledger as other blocks use it (spec/17 R482): events and the record of the current start. -/

namespace Sys2Proof.Machine

/-- The Keep state changed. -/
def withKp (s : State) (f : KpSt → KpSt) : State := { s with kp := f s.kp }

/-- The record of the current start written to flash: a ring of 512 records, one per start. -/
def writeRecord (s : State) : State :=
  match s.kp.cur with
  | some r => withKp s (fun k => { k with flash := { k.flash with
      ledger := r :: (k.flash.ledger.filter (fun q => q.bootNo != r.bootNo)).take 511 } })
  | none => s

/-- An event put in a record: EVCOUNT counts it, the first four are stored. -/
def recordEvent (r : BootRec) (e : Nat × Nat × Nat) : BootRec :=
  { r with evcount := satN 8 (r.evcount + 1)
           events := if r.events.length < 4 then r.events ++ [e] else r.events }

/-- An event of type `ty` with its cause. Events 1-3 stop Keep's clocks: the AON logic holds them for the record of the
next start. The others enter the record of this start, which is written to flash. -/
def ledgerEvent (s : State) (ty cause : Nat) : State :=
  let e := (ty, cause, nowTag s)
  if ty ≤ 3 then withKp s (fun k => { k with aon := k.aon ++ [e] })
  else writeRecord (withKp s (fun k => { k with cur := k.cur.map (fun r => recordEvent r e) }))

/-- The outcome of boot step `k` in the current start. -/
def stepOutcome (s : State) (k : Nat) : Nat :=
  match s.kp.cur with
  | some r => (r.steps.getD k {}).outcome
  | none => 0

/-- SMB_ALERT_N is asserted while KP_EVENT holds a bit with its enable set (R503). -/
def noteSmb (s : State) : State :=
  { s with pins := { s.pins with smbAlertN := (reg s rKpEvent &&& reg s rKpEventEn).toNat == 0 } }

/-- Bit `b` of KP_EVENT becomes 1: vector 2 when its enable is set. -/
def kpEvent (s : State) (b : Nat) : State :=
  let was := regBit s rKpEvent b
  let s := setRegBit s rKpEvent b true
  noteSmb (if !was && regBit s rKpEventEn b then msix s 2 else s)

end Sys2Proof.Machine
end

