-- ==== Sys2Proof/Machine/PowerFloor.lean ====
section
/-! DEFINITION. The declared warp power (spec/10 R291), the cap floor and the effective cap (spec/16 R452, R453). -/

namespace Sys2Proof.Machine

/-- P_W in mW (R291): WARP_STATIC_MW + WARP_EPF_NJ × TICK_KHZ ÷ (1,000 × M), rounded up. -/
def declaredWarpPower (s : State) : Nat :=
  match s.image with
  | some i => i.warpStatic + ceilDiv (i.warpEpf * tickKhz s) (1000 * tbM s)
  | none => 0

/-- The floor in mW for a declared warp power (R452): ceil of 1.1 × (P_W + P_BASE + P_LANE + P_DDR), kept exact over the
common denominator 64 × 10^6 × M of its terms in µW and rounded up once. -/
def powerFloor (s : State) (pw : Nat) : Nat :=
  let m := tbM s
  let d := 64 * 1000000 * m
  let rates := (((List.range (laneCount s)).filter (laneEn s)).map (laneRate s)).sum
  let on := (List.range 16).filter (streamOn s)
  let rsv := (on.map (fun n => regF s (rBbStRsv n) 15 0)).sum
  let total := (pw + regF s rPmBase 19 0) * 1000 * d
    + (reg s (rPmEtab 10)).toNat * rates * 64 * m
    + (reg s (rPmEtab 9)).toNat * (rsv * 1000 * m + 64 * tickKhz s * on.length)
  ceilDiv (11 * total) (10000 * d)

/-- The effective cap follows the cap and the floor (R453); the cause is raised each time floor > cap begins. -/
def updateCapEff (s : State) : State :=
  let cap := regF s rPmCap 19 0
  let floor := regF s rPmFloor 19 0
  let s := setF s rPmCapEff 19 0 (max cap floor)
  let un := cap < floor
  let was := regBit s rPmStatus 31
  let s := setRegBit s rPmStatus 31 un
  if un && !was then raise s 0x0A01 noSource 0 else s

/-- The floor recomputed (R452). -/
def setFloor (s : State) (pw : Nat) : State := updateCapEff (setF s rPmFloor 19 0 (powerFloor s pw))

end Sys2Proof.Machine
end

