-- ==== Sys2Proof/Machine/PickWord.lean ====
section
/-! DEFINITION. The 128-bit pick word (spec/06 R158): its fields, the word that holds them, and the encodings that R159-R163
reserve. -/

namespace Sys2Proof.Machine

/-- The fields of a pick word; `res` are the reserved bits [119:116], `mres` [99:88], `vres` [67:56]. -/
structure PickWord where
  lag : Nat
  res : Nat
  mpred : Nat
  mop : Nat
  sd : Nat
  bank : Nat
  mres : Nat
  vpred : Nat
  vop : Nat
  vd : Nat
  half : Nat
  pd : Nat
  vres : Nat
  xpred : Nat
  xop : Nat
  addr : Nat
  len : Nat
  tag : Nat
  sk : Nat
  cpred : Nat
  cop : Nat
  cops : Nat
deriving DecidableEq, Repr

/-- The fields of the pick word `w`. -/
def decodePick (w : Nat) : PickWord :=
  { lag := fld w 127 120, res := fld w 119 116
    mpred := fld w 115 112, mop := fld w 111 108, sd := fld w 107 102, bank := fld w 101 100, mres := fld w 99 88
    vpred := fld w 87 84, vop := fld w 83 78, vd := fld w 77 72, half := fld w 71 71, pd := fld w 70 68
    vres := fld w 67 56
    xpred := fld w 55 52, xop := fld w 51 48, addr := fld w 47 33, len := fld w 32 31, tag := fld w 30 27
    sk := fld w 26 24
    cpred := fld w 23 20, cop := fld w 19 16, cops := fld w 15 0 }

/-- The pick word that holds the fields. -/
def encodePick (x : PickWord) : Nat :=
  x.lag * 2 ^ 120 + x.res * 2 ^ 116
    + x.mpred * 2 ^ 112 + x.mop * 2 ^ 108 + x.sd * 2 ^ 102 + x.bank * 2 ^ 100 + x.mres * 2 ^ 88
    + x.vpred * 2 ^ 84 + x.vop * 2 ^ 78 + x.vd * 2 ^ 72 + x.half * 2 ^ 71 + x.pd * 2 ^ 68 + x.vres * 2 ^ 56
    + x.xpred * 2 ^ 52 + x.xop * 2 ^ 48 + x.addr * 2 ^ 33 + x.len * 2 ^ 31 + x.tag * 2 ^ 27 + x.sk * 2 ^ 24
    + x.cpred * 2 ^ 20 + x.cop * 2 ^ 16 + x.cops

/-- Every field fits its place. -/
def pickFits (x : PickWord) : Bool :=
  decide (x.lag < 2 ^ 8) && decide (x.res < 2 ^ 4)
    && decide (x.mpred < 2 ^ 4) && decide (x.mop < 2 ^ 4) && decide (x.sd < 2 ^ 6) && decide (x.bank < 2 ^ 2)
    && decide (x.mres < 2 ^ 12)
    && decide (x.vpred < 2 ^ 4) && decide (x.vop < 2 ^ 6) && decide (x.vd < 2 ^ 6) && decide (x.half < 2)
    && decide (x.pd < 2 ^ 3) && decide (x.vres < 2 ^ 12)
    && decide (x.xpred < 2 ^ 4) && decide (x.xop < 2 ^ 4) && decide (x.addr < 2 ^ 15) && decide (x.len < 2 ^ 2)
    && decide (x.tag < 2 ^ 4) && decide (x.sk < 2 ^ 3)
    && decide (x.cpred < 2 ^ 4) && decide (x.cop < 2 ^ 4) && decide (x.cops < 2 ^ 16)

/-- The encodings that R158-R163 allow, under an image of latency `l`. -/
def pickLegal (l : Nat) (x : PickWord) : Bool :=
  x.res == 0 && x.mres == 0 && x.vres == 0 && decide (x.lag < l)
    && decide (x.mop ≤ 2) && !(x.mop == 1 && x.bank != 0)
    && decide (x.vop ≤ 0x10) && !(x.vop == 0x0E && x.pd == 0)
    && decide (x.xop ≤ 4)
    && decide (x.cop ≤ 3) && !(x.cop == 1 && fld x.cops 13 10 == 15)
    && !(x.cop == 3 && decide (16 < x.cops % 16 + (fld x.cops 10 8 + 1)))

end Sys2Proof.Machine
end

