-- ==== Sys2Proof/Machine/Float.lean ====
section
/-! DEFINITION. Floating point of the tiles (spec/04 R94, R115-R119, R121): exact values as sign, significand and
exponent, one rounding to nearest even at the end, the five IEEE 754-2019 flags. -/

namespace Sys2Proof.Machine

/-! ### Formats and values -/

/-- A binary format by its exponent and mantissa widths (R94). -/
structure FFmt where
  eb : Nat
  mb : Nat
deriving DecidableEq, Repr

/-- FP32. -/
abbrev f32 : FFmt := ⟨8, 23⟩
/-- BF16. -/
abbrev bf16 : FFmt := ⟨8, 7⟩
/-- E4M3; its top exponent holds numbers but for the NaN S.1111.111. -/
abbrev e4m3 : FFmt := ⟨4, 3⟩
/-- E5M2. -/
abbrev e5m2 : FFmt := ⟨5, 2⟩

/-- The exponent of the unit of the smallest numbers: a subnormal with mantissa field m is m × 2^qmin. -/
def FFmt.qmin (f : FFmt) : Int := 2 - (2 ^ (f.eb - 1) : Nat) - (f.mb : Int)

/-- Magnitude bits of infinity, the bound of the finite codes. -/
def FFmt.infBits (f : FFmt) : Nat := (2 ^ f.eb - 1) * 2 ^ f.mb

/-- The sign bit. -/
def FFmt.sign (f : FFmt) (neg : Bool) : Nat := if neg then 2 ^ (f.eb + f.mb) else 0

/-- The canonical NaN (R116). -/
def FFmt.nan (f : FFmt) : Nat := f.infBits + 2 ^ (f.mb - 1)

/-- A value: NaN (signalling or not), infinity, or sign × m × 2^e exactly. -/
inductive FVal where
  | nan (signalling : Bool)
  | inf (neg : Bool)
  | fin (neg : Bool) (m : Nat) (e : Int)
deriving DecidableEq, Repr

/-- The value of a code of `f` (R94). -/
def fdecode (f : FFmt) (b : Nat) : FVal :=
  let neg := bitN b (f.eb + f.mb)
  let ef := fld b (f.eb + f.mb - 1) f.mb
  let m := b % 2 ^ f.mb
  let top := 2 ^ f.eb - 1
  if f = e4m3 ∧ ef = top ∧ m = 7 then .nan false
  else if f ≠ e4m3 ∧ ef = top then (if m = 0 then .inf neg else .nan (!bitN m (f.mb - 1)))
  else if ef = 0 then .fin neg m f.qmin
  else .fin neg (2 ^ f.mb + m) (f.qmin + ef - 1)

/-! ### Flags, in the order of TILE_ARITH[4:0] (R121) -/

/-- Invalid. -/
abbrev flNV : Nat := 1
/-- Divide-by-zero. -/
abbrev flDZ : Nat := 2
/-- Overflow. -/
abbrev flOF : Nat := 4
/-- Underflow. -/
abbrev flUF : Nat := 8
/-- Inexact. -/
abbrev flNX : Nat := 16

/-! ### Rounding to nearest, ties to even -/

/-- n ÷ d rounded to the nearest integer, ties to even. -/
def rneDiv (n d : Nat) : Nat :=
  let q := n / d
  let r := n % d
  if d < 2 * r then q + 1 else if 2 * r = d then q + q % 2 else q

/-- m × 2^(-k), with a sticky remainder below its last bit, rounded to nearest even; the second component says
whether anything was lost. -/
def rneShift (m k : Nat) (sticky : Bool) : Nat × Bool :=
  let q := m / 2 ^ k
  let r := m % 2 ^ k
  if k = 0 then (q, sticky)
  else
    let half := 2 ^ (k - 1)
    let up := half < r || (r == half && (sticky || q % 2 == 1))
    (if up then q + 1 else q, r != 0 || sticky)

/-- m × 2^e (plus less than one unit of m when sticky) to a multiple of 2^q: the multiple and whether it is inexact. -/
def toUnit (m : Nat) (e q : Int) (sticky : Bool) : Nat × Bool :=
  if e < q then rneShift m (q - e).toNat sticky else (m * 2 ^ (e - q).toNat, sticky)

/-- The magnitude code of m × 2^e in `f` rounded once, exponent range not bounded above, and the flags underflow and
inexact; tininess is judged after rounding (R115). A sticky value must have more than `f.mb + 2` bits. -/
def froundMag (f : FFmt) (m : Nat) (e : Int) (sticky : Bool) : Nat × Nat :=
  if m = 0 then (0, if sticky then flUF + flNX else 0)
  else
    let top : Int := e + Nat.log2 m
    let free := toUnit m e (top - f.mb) sticky
    let tiny := (if free.1 = 2 ^ (f.mb + 1) then top + 1 else top) < f.qmin + f.mb
    let q := max (top - f.mb) f.qmin
    let (r, lost) := toUnit m e q sticky
    let bits := ((q - f.qmin) * (2 ^ f.mb : Nat) + r).toNat
    (bits, (if tiny && lost then flUF else 0) + (if lost then flNX else 0))

/-- A value packed in an IEEE format: overflow gives infinity. -/
def fpack (f : FFmt) (neg : Bool) (m : Nat) (e : Int) (sticky : Bool) : Nat × Nat :=
  let (b, fl) := froundMag f m e sticky
  if f.infBits ≤ b then (f.sign neg + f.infBits, flOF + flNX) else (f.sign neg + b, fl)

/-- n ÷ d × 2^e as significand, exponent and sticky bit with at least 64 significant bits. -/
def ratio (n d : Nat) (e : Int) : Nat × Int × Bool :=
  let k := 64 + Nat.log2 d
  (n * 2 ^ k / d, e - k, n * 2 ^ k % d != 0)

/-! ### Arithmetic -/

/-- The result of an invalid operation. -/
def finvalid (f : FFmt) : Nat × Nat := (f.nan, flNV)

/-- Whether a value is a signalling NaN. -/
def FVal.isSnan : FVal → Bool
  | .nan s => s
  | _ => false

/-- Whether a value is a NaN. -/
def FVal.isNaN : FVal → Bool
  | .nan _ => true
  | _ => false

/-- The sign changed. -/
def FVal.neg : FVal → FVal
  | .nan s => .nan s
  | .inf n => .inf (!n)
  | .fin n m e => .fin (!n) m e

/-- The exact sum of two finite values over the unit 2^e. -/
def finSum (n1 : Bool) (m1 : Nat) (e1 : Int) (n2 : Bool) (m2 : Nat) (e2 : Int) : Int × Int :=
  let e := min e1 e2
  let a : Int := (m1 * 2 ^ (e1 - e).toNat : Nat)
  let b : Int := (m2 * 2 ^ (e2 - e).toNat : Nat)
  ((if n1 then -a else a) + (if n2 then -b else b), e)

/-- The rounded sum of two values; zero signs by IEEE 754-2019 for round to nearest (R116). NaN operands give the
canonical NaN, and invalid for a signalling one. -/
def faddV (f : FFmt) (x y : FVal) : Nat × Nat :=
  match x, y with
  | .nan s, y => (f.nan, if s || y.isSnan then flNV else 0)
  | _, .nan s => (f.nan, if s then flNV else 0)
  | .inf a, .inf b => if a = b then (f.sign a + f.infBits, 0) else finvalid f
  | .inf a, .fin _ _ _ => (f.sign a + f.infBits, 0)
  | .fin _ _ _, .inf b => (f.sign b + f.infBits, 0)
  | .fin n1 m1 e1, .fin n2 m2 e2 =>
    if m1 = 0 ∧ m2 = 0 then (f.sign (n1 && n2), 0)
    else
      let (s, e) := finSum n1 m1 e1 n2 m2 e2
      if s = 0 then (0, 0) else fpack f (s < 0) s.natAbs e false

/-- The exact product; none for 0 × infinity, and for NaN operands. -/
def fmulV : FVal → FVal → Option FVal
  | .fin n1 m1 e1, .fin n2 m2 e2 => some (.fin (n1 != n2) (m1 * m2) (e1 + e2))
  | .inf a, .fin n m _ => if m = 0 then none else some (.inf (a != n))
  | .fin n m _, .inf b => if m = 0 then none else some (.inf (n != b))
  | .inf a, .inf b => some (.inf (a != b))
  | _, _ => none

/-- x + y. -/
def fadd (f : FFmt) (x y : Nat) : Nat × Nat := faddV f (fdecode f x) (fdecode f y)

/-- x - y. -/
def fsub (f : FFmt) (x y : Nat) : Nat × Nat := faddV f (fdecode f x) (fdecode f y).neg

/-- A product, rounded once. -/
def fmul (f : FFmt) (x y : Nat) : Nat × Nat :=
  let a := fdecode f x
  let b := fdecode f y
  if a.isNaN || b.isNaN then (f.nan, if a.isSnan || b.isSnan then flNV else 0)
  else match fmulV a b with
    | some (.fin n m e) => fpack f n m e false
    | some (.inf n) => (f.sign n + f.infBits, 0)
    | _ => finvalid f

/-- x × y + z rounded once to `fo`, with x and y in `fi`; 0 × infinity is invalid also with a quiet NaN addend (R115). -/
def ffma (fi fo : FFmt) (x y z : Nat) : Nat × Nat :=
  let a := fdecode fi x
  let b := fdecode fi y
  let c := fdecode fo z
  if a.isNaN || b.isNaN then (fo.nan, if a.isSnan || b.isSnan || c.isSnan then flNV else 0)
  else match fmulV a b with
    | none => finvalid fo
    | some p => if c.isNaN then (fo.nan, if c.isSnan then flNV else 0) else faddV fo p c

/-- The order of numbers with −0 below +0, as a key; infinities beyond every number (R116). -/
def fkey (f : FFmt) (b : Nat) : Int :=
  let mag : Int := (b % 2 ^ (f.eb + f.mb) : Nat)
  if bitN b (f.eb + f.mb) then -mag - 1 else mag

/-- IEEE 754-2019 maximum. -/
def fmax (f : FFmt) (x y : Nat) : Nat × Nat :=
  let a := fdecode f x
  let b := fdecode f y
  if a.isNaN || b.isNaN then (f.nan, if a.isSnan || b.isSnan then flNV else 0)
  else (if fkey f x < fkey f y then y else x, 0)

/-- IEEE 754-2019 minimum. -/
def fmin (f : FFmt) (x y : Nat) : Nat × Nat :=
  let a := fdecode f x
  let b := fdecode f y
  if a.isNaN || b.isNaN then (f.nan, if a.isSnan || b.isSnan then flNV else 0)
  else (if fkey f y < fkey f x then y else x, 0)

/-- |x|; a NaN gives the canonical NaN (R116). -/
def fabs (f : FFmt) (x : Nat) : Nat :=
  if (fdecode f x).isNaN then f.nan else x % 2 ^ (f.eb + f.mb)

/-- Comparison in FP32 with the codes of CTRL.CMP (R165): 0 less, 1 less or equal, 2 equal, 3 not equal; a NaN gives
false but for not equal, and the zeros are equal. -/
def fcmp (cond x y : Nat) : Bool :=
  let a := fdecode f32 x
  let b := fdecode f32 y
  if a.isNaN || b.isNaN then cond == 3
  else
    let kx := if x % 2 ^ 31 = 0 then 0 else fkey f32 x
    let ky := if y % 2 ^ 31 = 0 then 0 else fkey f32 y
    match cond with
    | 0 => kx < ky
    | 1 => kx ≤ ky
    | 2 => kx == ky
    | _ => kx != ky

/-- The flags of a comparison: invalid for a signalling NaN, as IEEE 754-2019 has it for a quiet comparison (R121). -/
def fcmpFlags (a b : Nat) : Nat := if (fdecode f32 a).isSnan || (fdecode f32 b).isSnan then flNV else 0

/-! ### Conversions (R117) -/

/-- An exact conversion to FP32. -/
def toF32 (f : FFmt) (b : Nat) : Nat :=
  match fdecode f b with
  | .nan _ => f32.nan
  | .inf n => f32.sign n + f32.infBits
  | .fin n m e => (fpack f32 n m e false).1

/-- The magnitude code of the largest finite number of an F8 format. -/
def f8Max (f : FFmt) : Nat := if f = e4m3 then 0x7E else 0x7B

/-- n ÷ d × 2^e rounded once to an F8 format and held at its limits. -/
def f8Round (f : FFmt) (neg : Bool) (m : Nat) (e : Int) (sticky : Bool) : Nat × Nat :=
  let (b, fl) := froundMag f m e sticky
  if f8Max f < b then (f.sign neg + f8Max f, flOF + flNX) else (f.sign neg + b, fl)

/-- FP32 to an F8 format. -/
def f32ToF8 (f : FFmt) (b : Nat) : Nat × Nat :=
  match fdecode f32 b with
  | .nan _ => (if f = e4m3 then 0x7F else 0x7E, 0)
  | .inf n => if f = e4m3 then (f.sign n + f8Max f, flOF + flNX) else (f.sign n + f.infBits, 0)
  | .fin n m e => f8Round f n m e false

/-- FP32 to BF16. -/
def f32ToBf16 (b : Nat) : Nat × Nat :=
  match fdecode f32 b with
  | .nan _ => (bf16.nan, 0)
  | .inf n => (bf16.sign n + bf16.infBits, 0)
  | .fin n m e => fpack bf16 n m e false

/-- m × 2^e rounded to an integer, and whether it is inexact. -/
def roundInt (neg : Bool) (m : Nat) (e : Int) : Int × Bool :=
  let (r, lost) := toUnit m e 0 false
  (if neg then -(r : Int) else r, lost)

/-- FP32 to an integer of `n` bits between `lo` and `hi`. -/
def f32ToInt (n : Nat) (lo hi : Int) (b : Nat) : Nat × Nat :=
  match fdecode f32 b with
  | .nan _ => (0, flNV)
  | .inf neg => (encI n (if neg then lo else hi), flNV)
  | .fin neg m e =>
    let (r, lost) := roundInt neg m e
    if hi < r then (encI n hi, flNV)
    else if r < lo then (encI n lo, flNV)
    else (encI n r, if lost then flNX else 0)

/-- I32 to FP32. -/
def i32ToF32 (b : Nat) : Nat × Nat :=
  let v := sextI 32 b
  fpack f32 (v < 0) v.natAbs 0 false

/-! ### Functions (R118), correctly rounded -/

/-- The integer square root, one bit at a time by fuel. -/
def isqrtAux : Nat → Nat → Nat → Nat
  | 0, _, r => r
  | k + 1, n, r => let c := r + 2 ^ k; isqrtAux k n (if c * c ≤ n then c else r)

/-- The integer square root of `n`. -/
def isqrt (n : Nat) : Nat := isqrtAux (Nat.log2 n / 2 + 1) n 0

/-- The reciprocal. -/
def frcp (x : Nat) : Nat × Nat :=
  match fdecode f32 x with
  | .nan s => (f32.nan, if s then flNV else 0)
  | .inf n => (f32.sign n, 0)
  | .fin n m e =>
    if m = 0 then (f32.sign n + f32.infBits, flDZ)
    else
      let (q, k, st) := ratio 1 m (-e)
      fpack f32 n q k st

/-- The reciprocal square root; rsq(±0) is ±infinity with divide-by-zero by IEEE 754-2019. -/
def frsq (x : Nat) : Nat × Nat :=
  match fdecode f32 x with
  | .nan s => (f32.nan, if s then flNV else 0)
  | .inf n => if n then finvalid f32 else (0, 0)
  | .fin n m e =>
    if m = 0 then (f32.sign n + f32.infBits, flDZ)
    else if n then finvalid f32
    else
      -- 1/sqrt(m 2^e) with an even exponent: sqrt(2^200 ÷ m') × 2^(-100 - e'/2)
      let odd := e % 2 != 0
      let m' := if odd then 2 * m else m
      let e' := if odd then e - 1 else e
      let n' := 2 ^ 200 / m'
      let r := isqrt n'
      fpack f32 false r (-100 - e' / 2) (r * r != n' || 2 ^ 200 % m' != 0)

/-- Working bits of exp2 and log2. -/
abbrev fnBits : Nat := 192

/-- 2^f for the fraction f = `fr` ÷ 2^`n`, over 2^fnBits, rounded down at each step: the product of the square roots
2^(1/2), 2^(1/4), ... that the bits of f name. `c` is 2^(2^(-i)) for the bit in hand. -/
def exp2Frac : Nat → Nat → Nat → Nat → Nat
  | 0, _, _, acc => acc
  | n + 1, fr, c, acc =>
    let c' := isqrt (c * 2 ^ fnBits)
    exp2Frac n fr c' (if bitN fr n then acc * c' / 2 ^ fnBits else acc)

/-- exp2. The result of a non-integer is irrational, so its rounding is decided by a bound that falls short of it by
far less than any FP32 argument comes near a tie. -/
def fexp2 (x : Nat) : Nat × Nat :=
  match fdecode f32 x with
  | .nan s => (f32.nan, if s then flNV else 0)
  | .inf n => if n then (0, 0) else (f32.infBits, 0)
  | .fin neg m e =>
    if m = 0 then (f32ofOne, 0)
    else if 0 ≤ e + Nat.log2 m - 7 && !neg then (f32.infBits, flOF + flNX)
    else if 0 ≤ e + Nat.log2 m - 8 then (0, flUF + flNX)
    else if e + Nat.log2 m < -27 then (f32ofOne, flNX)
    else
      -- x = i + fr / 2^k
      let k := (-e).toNat
      let v : Int := if neg then -(m * 2 ^ (e.toNat) : Nat) else (m * 2 ^ (e.toNat) : Nat)
      let i := v / (2 ^ k : Nat)
      let fr := (v % (2 ^ k : Nat)).toNat
      if fr = 0 then fpack f32 false 1 i false
      else fpack f32 false (exp2Frac k fr (2 ^ (fnBits + 1)) (2 ^ fnBits)) (i - fnBits) true
where
  /-- 1.0 -/
  f32ofOne : Nat := 0x3F800000

/-- `n` bits of the binary logarithm of y ÷ 2^fnBits in [1, 2), most significant first, by repeated squaring. -/
def log2Frac : Nat → Nat → Nat → Nat
  | 0, _, acc => acc
  | n + 1, y, acc =>
    let s := y * y / 2 ^ fnBits
    if 2 ^ (fnBits + 1) ≤ s then log2Frac n (s / 2) (2 * acc + 1) else log2Frac n s (2 * acc)

/-- log2. The logarithm of a number that is no power of two is irrational; 96 fraction bits decide its rounding. -/
def flog2 (x : Nat) : Nat × Nat :=
  match fdecode f32 x with
  | .nan s => (f32.nan, if s then flNV else 0)
  | .inf n => if n then finvalid f32 else (f32.infBits, 0)
  | .fin n m e =>
    if m = 0 then (f32.sign true + f32.infBits, flDZ)
    else if n then finvalid f32
    else
      let l := Nat.log2 m
      let i : Int := e + l
      if m = 2 ^ l then fpack f32 (i < 0) i.natAbs 0 false
      else
        let fr := log2Frac 96 (m * 2 ^ fnBits / 2 ^ l) 0
        let v : Int := i * (2 ^ 96 : Nat) + fr
        if 0 ≤ v then fpack f32 false v.toNat (-96) true
        else fpack f32 true (-v - 1).toNat (-96) true

/-! ### Cross-lane reduction (R119) -/

/-- One level of the pairwise tree. -/
def redLevel : List Nat → List Nat × Nat
  | a :: b :: rest =>
    let (v, fl) := fadd f32 a b
    let (vs, fl') := redLevel rest
    (v :: vs, fl ||| fl')
  | l => (l, 0)

/-- The pairwise tree of `n` levels. -/
def redTree : Nat → List Nat → Nat × Nat
  | 0, l => (l.headD 0, 0)
  | n + 1, l =>
    let (l', fl) := redLevel l
    let (v, fl') := redTree n l'
    (v, fl ||| fl')

/-- The tree sum of 64 lanes. -/
def fred (l : List Nat) : Nat × Nat := redTree 6 (padTo64 l)
where
  /-- The list cut or filled with zeros to 64 lanes. -/
  padTo64 (l : List Nat) : List Nat := (l ++ List.replicate 64 0).take 64

end Sys2Proof.Machine
end

