-- ==== Sys2Proof/Machine/Tile.lean ====
section
/-! DEFINITION. What the tiles of both planes share: weight pages (spec/04 R96-R99, R109, R112-R114), a step of the
macros (R100-R107, R110), the banks (R104), the scale path and its folds (spec/05 R125-R130), slots (R131-R133), tensor
scale records and quantisation (R137-R142, R147). -/

namespace Sys2Proof.Machine

/-! ### Weight pages -/

/-- The page number over all tiles: tile, macro, page. -/
def pageKey (t m p : Nat) : Nat := (t * 16 + m) * 8 + p

/-- A page that was never written is not valid. -/
abbrev dPage : Nat → Page := fun _ => {}
/-- Page `p` of macro `m` of tile `t`. -/
def page (s : State) (t m p : Nat) : Page := sget dPage s.tile.pages (pageKey t m p)
/-- The page set. -/
def setPage (s : State) (t m p : Nat) (x : Page) : State :=
  { s with tile := { s.tile with pages := sset dPage (pageKey t m p) x s.tile.pages } }

/-- An integer that nothing has written reads 0. -/
abbrev dInt : Nat → Int := fun _ => 0

/-- The value of a 2-bit digit in the mode of its page (R97). -/
def digit (signed : Bool) (d : Nat) : Int := if signed then sextI 2 d else (d % 4 : Nat)

/-- The 128 digits of a page row of 256 bits: column c in bits [2c+1:2c]. -/
def rowDigits (signed : Bool) (row : Nat) : List Int :=
  (List.range 128).map (fun c => digit signed (row / 4 ^ c % 4))

/-- The checksum cell of a row (R109). -/
def rowCheck (signed : Bool) (row : Nat) : Nat := encI 8 (rowDigits signed row).sum

/-- Row `r` of a page. -/
def pageRow (s : State) (t m p r : Nat) : Nat := sget dNat s.tile.cells (pageKey t m p * 96 + r)

/-- The digit sums of a row group of rows, by column (R96). -/
def digitSums (signed : Bool) (rows : List Nat) : List Int :=
  rows.foldl (fun acc row => List.zipWith (· + ·) acc (rowDigits signed row)) (List.replicate 128 0)

/-- The write path of a page (R98): cells, checksum cells and digit sums in the digit mode, without the page's entry. -/
def writeCells (s : State) (t m p : Nat) (signed : Bool) (rows : List Nat) : State :=
  let k := pageKey t m p
  let sums := ((List.range 3).map (fun g => digitSums signed ((rows.drop (32 * g)).take 32))).flatten
  { s with tile := { s.tile with
      cells := ssetMany dNat (k * 96) rows s.tile.cells
      chk := ssetMany dNat (k * 96) (rows.map (rowCheck signed)) s.tile.chk
      dsum := ssetMany dInt (k * 384) sums s.tile.dsum } }

/-- An integer page written (R98); it ends an F8 set that held the page (R97). -/
def writePage (s : State) (t m p : Nat) (signed : Bool) (rows : List Nat) : State :=
  let base := p / 4 * 4
  let s := (List.range 4).foldl (fun s j =>
    let x := page s t m (base + j)
    if x.f8 = some base then setPage s t m (base + j) { x with f8 := none, nonfinite := false } else s) s
  setPage (writeCells s t m p signed rows) t m p { valid := true, signed := signed }

/-- A page that a write leaves not valid (R236). -/
def spoilPage (s : State) (t m p : Nat) : State := setPage s t m p { page s t m p with valid := false, marrow := false }

/-- The rows of a page in the layout of MXW: 32 bytes a row (R234). -/
def rowsOf (bs : List Byte) : List Nat := (List.range 96).map (fun r => leAt bs (32 * r) 32)

/-- An F8 element as exponent e' and signed significand (R112); none when it is not finite (R114). -/
def f8Parts (f : FFmt) (b : Nat) : Option (Bool × Nat × Nat) :=
  let e := fld b 6 f.mb
  let m := b % 2 ^ f.mb
  if (if f = e4m3 then e = 15 ∧ m = 7 else e = 31) then none
  else some (bitN b 7, max e 1, if e = 0 then m else m + 2 ^ f.mb)

/-- The aligned block of 32 F8 elements (R112-R114): values, alignment exponent, underflows, whether it is not finite. -/
def alignBlock (f : FFmt) (codes : List Nat) : List Int × Int × Nat × Bool :=
  let ps := codes.map (f8Parts f)
  if ps.any (·.isNone) then (codes.map (fun _ => 0), 0, 0, true)
  else
    let fs := ps.filterMap id
    let top := fs.foldl (fun m x => max m x.2.1) 1
    let a := if f = e4m3 then 3 else 4
    let qs := fs.map (fun x =>
      let q : Int := rneDiv (x.2.2 * 2 ^ a) (2 ^ (top - x.2.1))
      (if x.1 then -q else q, x.2.2 != 0 && q == 0))
    (qs.map (·.1), (top : Int) - (if f = e4m3 then 13 else 21), (qs.filter (·.2)).length, false)

/-- An F8 set written (R112, R234): 96 × 128 elements, element (r, c) at byte 128 r + c; the second component counts
alignment underflows, the third says that a block is not finite. -/
def writeF8Set (s : State) (t m base : Nat) (f : FFmt) (bs : List Byte) : State × Nat × Bool :=
  let codes := bs.map (·.toNat)
  let blk := fun g c => alignBlock f ((List.range 32).map (fun i => codes.getD (128 * (32 * g + i) + c) 0))
  let blocks := (List.range 3).map (fun g => (List.range 128).map (blk g))
  let row := fun j r => ((List.range 128).map (fun c =>
    let q := (((blocks.getD (r / 32) []).getD c ([], 0, 0, false)).1).getD (r % 32) 0
    encI 8 q / 4 ^ j % 4 * 4 ^ c)).sum
  let bad := blocks.any (·.any (·.2.2.2))
  let s := (List.range 4).foldl (fun s j =>
    let s := writeCells s t m (base + j) (j == 3) ((List.range 96).map (row j))
    setPage s t m (base + j) { valid := true, signed := j == 3, f8 := some base, nonfinite := bad }) s
  let exps := (blocks.map (fun b => b.map (·.2.1))).flatten
  ({ s with tile := { s.tile with
      aexp := ssetMany dInt (pageKey t m (base + 3) * 384) exps s.tile.aexp } },
   ((blocks.map (fun b => (b.map (·.2.2.1)).sum)).sum), bad)

/-! ### Weight sets (R97, R98) -/

/-- Pages of a set by weight format (0 D2, 1 I4, 2 I8, 3 F8). -/
def setPages (wfmt : Nat) : Nat := [1, 2, 4, 4].getD wfmt 1

/-- The set lies on an allowed base page and its valid pages have the modes of R97. -/
def setLayoutOk (s : State) (t m base wfmt : Nat) : Bool :=
  let n := setPages wfmt
  base % n == 0 && base + n ≤ 8 && (List.range n).all (fun j =>
    let x := page s t m (base + j)
    !x.valid || (x.signed == (j + 1 == n) && (wfmt != 3 || x.f8 == some base)))

/-- Every page of the set is valid. -/
def setValid (s : State) (t m base wfmt : Nat) : Bool :=
  (List.range (setPages wfmt)).all (fun j => (page s t m (base + j)).valid)

/-! ### Step descriptors (R164) -/

/-- A step descriptor; addresses in units of 16 bytes. -/
structure StepDesc where
  macros : Nat
  base : Nat
  wfmt : Nat
  afmt : Nat
  bank : Nat
  acc : Bool
  block : Bool
  fold : Bool
  asrc : Nat
  za : Int
  zw : Int
  wst : Nat
  ring : Nat
  ringlen : Nat
  bseq : Nat
  sring : Nat
  oa : Nat
deriving DecidableEq, Repr

/-- A step descriptor from its 32 bytes. -/
def stepDesc (b : List Byte) : StepDesc :=
  { macros := leAt b 0 2, base := fld (leAt b 2 1) 2 0, wfmt := fld (leAt b 2 1) 4 3
    afmt := fld (leAt b 3 1) 2 0, bank := fld (leAt b 3 1) 4 3, acc := bitN (leAt b 3 1) 5
    block := bitN (leAt b 3 1) 6, fold := bitN (leAt b 3 1) 7, asrc := leAt b 4 2
    za := sextI 9 (leAt b 6 2), zw := sextI 9 (leAt b 8 2), wst := leAt b 10 2, ring := leAt b 12 2
    ringlen := leAt b 14 1, bseq := leAt b 16 2, sring := leAt b 18 2, oa := leAt b 20 2 }

/-- The descriptor keeps R164: reserved fields 0, no reserved format, F8 only in block mode, RINGLEN not 0 there,
addresses within tile store. Byte 2 belongs to the warp plane only (R235). -/
def stepDescOk (warp : Bool) (b : List Byte) : Bool :=
  let d := stepDesc b
  let f8 := 4 ≤ d.afmt || (warp && d.wfmt == 3)
  (!warp || leAt b 2 1 / 32 == 0) && leAt b 15 1 == 0 && leAt b 22 10 == 0
    && leAt b 6 2 / 512 == 0 && leAt b 8 2 / 512 == 0
    && d.afmt ≤ 5 && (!f8 || d.block)
    && (if d.block then d.ringlen != 0 && d.wst < 32768 && d.ring < 32768 && d.sring < 32768 && d.oa < 32768
        else d.asrc < 32768)

/-- The macros that take part, in rank order. -/
def stepMacros (d : StepDesc) : List Nat := (List.range 16).filter (bitN d.macros)

/-- Bits of an activation by format (0 D2, 1 I4, 2 I8, 3 U8, 4 E4M3, 5 E5M2). -/
def actBits (afmt : Nat) : Nat := [2, 4, 8, 8, 8, 8].getD afmt 8

/-- An integer activation (R94). -/
def actValue (afmt v : Nat) : Int := if afmt = 3 then (v : Int) else sextI (actBits afmt) v

/-- Slice `i` of an activation (R100): 2 bits, the top one signed but in U8. -/
def actSlice (afmt : Nat) (a : Int) (i : Nat) : Int :=
  let w := actBits afmt
  let d := encI w a / 4 ^ i % 4
  if i + 1 = w / 2 ∧ afmt ≠ 3 then sextI 2 d else (d : Int)

/-- The FP32 outer scales that a block-mode step uses (R127): for each of its one or two outer groups the address of
the activation scale and of the 128 weight scales. -/
def outerAddrs (d : StepDesc) : List (Nat × Nat) :=
  let k := (stepMacros d).length
  let g0 := d.bseq / 64
  let n := if (d.bseq + 3 * k - 1) / 64 = g0 ∨ k = 0 then 1 else 2
  (List.range n).map (fun g => (16 * d.oa + 4 * g, 16 * d.wst + 384 * k + 512 * g))

/-- An FP32 code is finite and positive. -/
def posFinite (b : Nat) : Bool := b != 0 && b < f32.infBits

/-- Every outer scale of a block-mode step is finite and positive. -/
def outersOk (s : State) (t : Nat) (d : StepDesc) (bad : List Nat) : Bool :=
  (outerAddrs d).all (fun a => posFinite (tsNum s t bad a.1 4)
    && (List.range 128).all (fun c => posFinite (tsNum s t bad (a.2 + 4 * c) 4)))

/-! ### One macro's part of a step (R100-R107, R110) -/

/-- A fault of a macro during a step (R110): column 0-127 is a data cell and 128 a checksum cell of the row, with the bits that
are wrong; 129 + c is the adder of column c in the row's group, and the bits are the error of its sum, signed in 16 bits. -/
abbrev Upset := CellUpset

/-- The checksum cell of a row as it reads during the step. -/
def upsetCheck (ups : List Upset) (m p r chk : Nat) : Nat :=
  ups.foldl (fun v u => if u.mac = m ∧ u.pg = p ∧ u.row = r ∧ u.col = 128 then v ^^^ (u.bits % 256) else v) chk

/-- The error of the adder of column `c` in row group `g` of a page. -/
def adderError (ups : List Upset) (m p g c : Nat) : Int :=
  ((ups.filter (fun u => u.mac == m && u.pg == p && u.row / 32 == g && u.col == 129 + c)).map (fun u =>
    sextI 16 u.bits)).sum

/-- The row of a page as the cells deliver it during the step. -/
def upsetRow (ups : List Upset) (m p r row : Nat) : Nat :=
  ups.foldl (fun v u => if u.mac = m ∧ u.pg = p ∧ u.row = r ∧ u.col < 128 then v ^^^ (u.bits % 4 * 4 ^ u.col) else v) row

/-- What one macro contributes: corrected row-group results by column (R107), and the mismatches of R110 as
(cycle, page, row group). -/
structure MacroOut where
  y : List (List Int)
  mism : List (Nat × Nat × Nat)
deriving DecidableEq, Repr

/-- One macro under a set of `Jw` pages from `base` on 96 activations. -/
def macroStep (s : State) (t m base wfmt afmt : Nat) (za zw : Int) (acts : List Int) (ups : List Upset) : MacroOut :=
  let jw := setPages wfmt
  let ja := actBits afmt / 2
  let rowsAt := fun p => (List.range 96).map (fun r => upsetRow ups m p r (pageRow s t m p r))
  let digs := (List.range jw).map (fun j => (rowsAt (base + j)).map (rowDigits (page s t m (base + j)).signed))
  let group := fun g =>
    let sw := (List.range jw).foldl (fun acc j =>
      List.zipWith (· + ·) acc ((sgetMany dInt s.tile.dsum ((pageKey t m (base + j) * 3 + g) * 128) 128).map
        (fun x => 4 ^ j * x))) (List.replicate 128 (0 : Int))
    let sa := ((acts.drop (32 * g)).take 32).sum
    let wa := (List.range 32).foldl (fun acc i =>
      let r := 32 * g + i
      let a := acts.getD r 0
      if a = 0 then acc
      else (List.range jw).foldl (fun acc j =>
        List.zipWith (fun x d => x + a * 4 ^ j * d) acc ((digs.getD j []).getD r [])) acc)
      (List.replicate 128 (0 : Int))
    -- an adder's error enters once in each cycle, with the weight of the cycle
    let ea := (List.range 128).map (fun c => ((List.range jw).map (fun j =>
      ((List.range ja).map (fun i => adderError ups m (base + j) g c * 4 ^ (i + j))).sum)).sum)
    List.zipWith (fun x w => x - za * w - zw * sa + 32 * zw * za) (List.zipWith (· + ·) wa ea) sw
  let delta := fun j r =>
    ((upsetCheck ups m (base + j) r (sget dNat s.tile.chk (pageKey t m (base + j) * 96 + r)) : Nat) : Int)
      - (((digs.getD j []).getD r []).sum)
  let mism := ((List.range ja).map (fun i => ((List.range jw).map (fun j =>
    (List.range 3).filterMap (fun g =>
      let e := ((List.range 128).map (adderError ups m (base + j) g)).sum
      let k := ((List.range 32).map (fun x => actSlice afmt (acts.getD (32 * g + x) 0) i * delta j (32 * g + x))).sum - e
      if k % 256 = 0 then none else some (i * jw + j, base + j, g)))).flatten)).flatten
  ⟨(List.range 3).map group, mism⟩

/-! ### Banks (R104, R105) -/

/-- The lane number over all tiles. -/
def laneKey (t b c : Nat) : Nat := (t * 4 + b) * 128 + c
/-- A bank lane. -/
def accLane (s : State) (t b c : Nat) : Word := sget dWord s.tile.acc (laneKey t b c)
/-- The SAT bit of a lane. -/
def satBit (s : State) (t b c : Nat) : Bool := sget dFalse s.tile.sat (laneKey t b c)
/-- A lane and its SAT bit set. -/
def setLaneSat (s : State) (t b c : Nat) (v : Word) (sat : Bool) : State :=
  { s with tile := { s.tile with acc := sset dWord (laneKey t b c) v s.tile.acc
                                 sat := sset dFalse (laneKey t b c) sat s.tile.sat } }

/-- A SAT bit becomes set: TILE_ARITH.ACC_SAT and TILE_SAT_CNT (R105). -/
def noteSat (s : State) (t : Nat) : State := countUp (setRegBit s (rTileArith t) 9 true) (rTileSatCnt t) 1

/-- An integer tree sum combined with a lane (R104); the second component says that the lane's SAT bit was set. -/
def combineLane (s : State) (t b c : Nat) (acc : Bool) (x : Int) : State × Bool :=
  if !acc then (setLaneSat s t b c (BitVec.ofInt 32 x) false, false)
  else if satBit s t b c then (s, false)
  else
    let v := sextI 32 (accLane s t b c).toNat + x
    if v < -2 ^ 31 then (noteSat (setLaneSat s t b c 0x80000000#32 true) t, true)
    else if 2 ^ 31 ≤ v then (noteSat (setLaneSat s t b c 0x7FFFFFFF#32 true) t, true)
    else (setLaneSat s t b c (BitVec.ofInt 32 v) false, false)

/-- A bank cleared: lanes, SAT mask, block accumulators (R159, R234). -/
def clearBank (s : State) (t b : Nat) : State :=
  let k := laneKey t b 0
  { s with tile := { s.tile with acc := sclear k 128 s.tile.acc, sat := sclear k 128 s.tile.sat
                                 bacc := sclear k 128 s.tile.bacc } }

/-! ### The scale path (R125-R130) -/

/-- No product held. -/
abbrev dBacc : Nat → BlockAcc := fun _ => {}
/-- The block accumulator of a lane. -/
def bacc (s : State) (t b c : Nat) : BlockAcc := sget dBacc s.tile.bacc (laneKey t b c)
/-- The block accumulator of a lane set. -/
def setBacc (s : State) (t b c : Nat) (x : BlockAcc) : State :=
  { s with tile := { s.tile with bacc := sset dBacc (laneKey t b c) x s.tile.bacc } }

/-- The significand and effective exponent of an inner code (R125). -/
def innerParts (code : Nat) : Nat × Nat :=
  let e := fld code 7 4
  let m := fld code 3 0
  (if e = 0 then m else 16 + m, max e 1)

/-- The product p of R128 in units of 2^-60. -/
def scaleProduct (y : Int) (wcode acode : Nat) (xw xa : Int) : Int :=
  let w := innerParts wcode
  let a := innerParts acode
  y * w.1 * a.1 * 2 ^ ((w.2 + a.2 : Nat) - 22 + xw + xa + 60 : Int).toNat

/-- The FP32 code of the largest finite magnitude. -/
abbrev f32Max : Nat := 0x7F7FFFFF

/-- A fold of lane `c` (R129), SET or ACC, with activation outer scale `oa`; the second component says that the lane's SAT bit
was set. The weight outer scale is the one read with the last product that the accumulator took, as the activation outer scale
of a fold that a later step makes is (R128 does not say when they are read; DESIGN CHOICE, log entry 94). An ACC fold whose T
rounds above the FP32 maximum gives the largest value of the sign of T, whatever the lane held (DESIGN CHOICE, log entry 94). -/
def foldLane (s : State) (t b c : Nat) (acc : Bool) (oa : Nat) : State × Bool :=
  let x := bacc s t b c
  let s := setBacc s t b c {}
  if acc && satBit s t b c then (s, false)
  else
    let r := match fdecode f32 x.ow, fdecode f32 oa with
      | .fin _ mw ew, .fin _ ma ea => fpack f32 (x.value < 0) (x.value.natAbs * mw * ma) (ew + ea - 60) false
      | _, _ => (0, 0)
    let tbits := r.1
    let res := if f32.infBits ≤ tbits % 2 ^ 31 then tbits
      else if acc then (fadd f32 (accLane s t b c).toNat tbits).1 else tbits
    if f32.infBits = res % 2 ^ 31 then
      (noteSat (setLaneSat s t b c (BitVec.ofNat 32 (res / 2 ^ 31 * 2 ^ 31 + f32Max)) true) t, true)
    else (setLaneSat s t b c (BitVec.ofNat 32 res) false, false)

/-! ### Slots (R131-R133) -/

/-- No slot is VALID. -/
abbrev dSide : Nat → Side := fun _ => {}
/-- The sideband of the slot at byte `a` of tile `t`; past the end of tile store there is no slot. -/
def side (s : State) (t a : Nat) : Side := if tsSize ≤ a then {} else sget dSide s.tile.side (2 ^ 18 * t + a / 2)
/-- The sidebands with that of the slot at byte `a` of tile `t` set. -/
def sideSet (m : Sparse Side) (t a : Nat) (x : Side) : Sparse Side :=
  if tsSize ≤ a then m else sset dSide (2 ^ 18 * t + a / 2) x m
/-- The sideband of a slot set. -/
def setSide (s : State) (t a : Nat) (x : Side) : State :=
  { s with tile := { s.tile with side := sideSet s.tile.side t a x } }

/-- The byte address of block slot `n` of a ring at `ring` (16-byte units). -/
def blockSlot (ring len n : Nat) : Nat := 16 * ring + 32 * (n % len)
/-- The byte address of scale slot `n`. -/
def scaleSlot (sring len n : Nat) : Nat := 16 * sring + 2 * (n % len)

/-- The scale entry at a byte address. -/
def scaleEntry (s : State) (t a : Nat) : Nat := tsNum s t [] a 2

/-- Block `n` finds a matching pair (R133). -/
def pairOk (s : State) (t da sa n : Nat) : Bool :=
  (side s t da).valid && (side s t sa).valid && (side s t da).tag == n % 16
    && fld (scaleEntry s t sa) 11 8 == n % 16

/-- What a record shows of both slots (R179): data TAG [3:0], VALID [4], scale TAG [11:8], VALID [12]. -/
def slotsObserved (s : State) (t da sa : Nat) : Nat :=
  (side s t da).tag % 16 + 16 * b2n (side s t da).valid + 256 * fld (scaleEntry s t sa) 11 8
    + 4096 * b2n (side s t sa).valid

/-- A consumer clears VALID of both slots (R132). -/
def clearSlots (s : State) (t da sa : Nat) : State :=
  setSide (setSide s t da { side s t da with valid := false }) t sa { side s t sa with valid := false }

/-! ### A step -/

/-- A block that a block-mode step has read: its 32 aligned values, exponent X, inner code, replay scale. -/
structure BlockIn where
  q : List Int
  x : Int
  code : Nat
  slip : Bool
  replay : Option Nat
deriving DecidableEq, Repr

/-- Block `n` read from its slots (R131-R134): the values, the underflows, whether it is not finite. `bad` lists
uncorrectable words. -/
def readBlock (s : State) (t : Nat) (d : StepDesc) (n : Nat) (bad : List Nat) : BlockIn × Nat × Bool :=
  let da := blockSlot d.ring d.ringlen n
  let sa := scaleSlot d.sring d.ringlen n
  let raw := tsElems s t bad da (actBits d.afmt) 32
  let code := fld (tsNum s t bad sa 2) 7 0
  let slip := !pairOk s t da sa n
  if 4 ≤ d.afmt then
    let a := alignBlock (if d.afmt = 4 then e4m3 else e5m2) raw
    (⟨a.1, a.2.1, code, slip, none⟩, a.2.2.1, a.2.2.2)
  else (⟨raw.map (actValue d.afmt), 0, code, slip, none⟩, 0, false)

/-- A step that has read its operands: the state with its macro check faults counted, the work on its bank, the mismatches as
(cycle, macro, page, row group), whether a weight block met was not finite and in which macro. -/
structure StepOut where
  st : State
  work : StepWork
  mism : List (Nat × Nat × Nat × Nat)
  nonfinite : Option Nat

/-- TILE_MCHK_CNT, TILE_ARITH.MCHK and TILE_MCHK_LOC after the mismatches of a step (R111). -/
def noteMchk (s : State) (t : Nat) (mism : List (Nat × Nat × Nat × Nat)) : State :=
  match mism with
  | [] => s
  | (_, m, p, g) :: _ =>
    let s := if regBit s (rTileArith t) 8 then s
      else setRegN s (rTileMchkLoc t) (2 ^ 31 + g * 2 ^ 9 + p * 2 ^ 6 + m)
    countUp (setRegBit s (rTileArith t) 8 true) (rTileMchkCnt t) mism.length

/-- The earliest mismatches first: by cycle, then macro, then row group. -/
def orderMism (l : List (Nat × Nat × Nat × Nat)) : List (Nat × Nat × Nat × Nat) :=
  (List.range 16).foldl (fun acc k => acc ++ l.filter (fun e => e.1 == k)) []

/-- An integer-mode step (R103, R104) with the sets `sets` = (macro, base page, format) of the participating macros. -/
def intStep (s : State) (t : Nat) (d : StepDesc) (sets : List (Nat × Nat × Nat)) (bad : List Nat)
    (ups : List Upset) : StepOut :=
  let n := sets.length
  let acts := (tsElems s t bad (16 * d.asrc) (actBits d.afmt) (96 * n)).map (actValue d.afmt)
  let outs := (List.range n).map (fun k =>
    let x := sets.getD k (0, 0, 0)
    (x.1, macroStep s t x.1 x.2.1 x.2.2 d.afmt d.za d.zw ((acts.drop (96 * k)).take 96) ups))
  let total := outs.foldl (fun acc o => o.2.y.foldl (fun acc y => List.zipWith (· + ·) acc y) acc)
    (List.replicate 128 (0 : Int))
  let mism := orderMism ((outs.map (fun o => o.2.mism.map (fun e => (e.1, o.1, e.2.1, e.2.2)))).flatten)
  ⟨noteMchk s t mism, ⟨d.bank, d.acc, false, false, d.wst, d.oa, total, []⟩, mism, none⟩

/-- A block-mode step (R103, R128): `blocks` are the blocks of the macros in order, three a macro. -/
def blockStep (s : State) (t : Nat) (d : StepDesc) (sets : List (Nat × Nat × Nat)) (blocks : List BlockIn)
    (bad : List Nat) (ups : List Upset) : StepOut :=
  let n := sets.length
  let g0 := d.bseq / 64
  let wst := 16 * d.wst
  let afmt := if 4 ≤ d.afmt then 2 else d.afmt
  let outs := (List.range n).map (fun k =>
    let x := sets.getD k (0, 0, 0)
    let acts := ((List.range 3).map (fun g => (blocks.getD (3 * k + g) ⟨[], 0, 0, true, none⟩).q)).flatten
    -- F8 has no zero points (R107)
    let f8 := 4 ≤ d.afmt || x.2.2 == 3
    (x, macroStep s t x.1 x.2.1 x.2.2 afmt (if f8 then 0 else d.za) (if f8 then 0 else d.zw) acts ups))
  let mism := orderMism ((outs.map (fun o => o.2.mism.map (fun e => (e.1, o.1.1, e.2.1, e.2.2)))).flatten)
  let nonfin := (outs.find? (fun o => o.1.2.2 == 3 && (page s t o.1.1 (o.1.2.1 + 3)).nonfinite)).map (·.1.1)
  let product := fun c i =>
    let o := outs.getD (i / 3) ((0, 0, 0), ⟨[], []⟩)
    let b := blocks.getD i ⟨[], 0, 0, true, none⟩
    let g := i % 3
    let grp := (d.bseq + i) / 64
    let y := if b.slip then 0 else (o.2.y.getD g []).getD c 0
    let wcode := (tsNum s t bad (wst + 384 * (i / 3) + 128 * g + c) 1)
    let ow := tsNum s t bad (wst + 384 * n + 512 * (grp - g0) + 4 * c) 4
    let oa := tsNum s t bad (16 * d.oa + 4 * (grp - g0)) 4
    let xw := if o.1.2.2 = 3 then sget dInt s.tile.aexp ((pageKey t o.1.1 (o.1.2.1 + 3) * 3 + g) * 128 + c) else 0
    (⟨scaleProduct y wcode b.code xw b.x, grp, ow, oa, b.replay⟩ : LaneProduct)
  let prods := (List.range 128).map (fun c => (List.range (3 * n)).map (product c))
  ⟨noteMchk s t mism, ⟨d.bank, d.acc, true, d.fold, d.wst, d.oa, [], prods⟩, mism, nonfin⟩

/-- A lane while a block-mode step works on it: the state, whether the step has folded the lane, whether its SAT bit was
set. -/
structure LaneRun where
  st : State
  folded : Bool
  sat : Bool

/-- A fold in a step (R129): the first of a SET-mode step is a SET fold, every other an ACC fold. -/
def stepFold (t c : Nat) (w : StepWork) (x : LaneRun) (oa : Nat) : LaneRun :=
  let r := foldLane x.st t w.bank c (w.acc || x.folded) oa
  ⟨r.1, true, x.sat || r.2⟩

/-- One lane takes the product of a block (R128, R130, R145): before a product of another outer group, and before and after a
replay block, the lane is folded. -/
def laneBlock (t c : Nat) (w : StepWork) (x : LaneRun) (q : LaneProduct) : LaneRun :=
  let b := bacc x.st t w.bank c
  let wg := some (w.wst, q.grp)
  let ag := some (w.oa, q.grp)
  let x := if q.replay.isSome || (b.wg.isSome && (b.wg != wg || b.ag != ag)) then stepFold t c w x b.oa else x
  let y := bacc x.st t w.bank c
  let x := { x with st := setBacc x.st t w.bank c { value := y.value + q.p, wg := wg, ag := ag, ow := q.ow, oa := q.oa } }
  match q.replay with
  | some o => stepFold t c w x o
  | none => x

/-- One lane takes a step's result (R104, R128-R130). -/
def stepLane (s : State) (t c : Nat) (w : StepWork) : State × Bool :=
  if w.block then
    let x := (w.prods.getD c []).foldl (laneBlock t c w) ⟨s, false, false⟩
    let x := if w.fold then stepFold t c w x (bacc x.st t w.bank c).oa else x
    (x.st, x.sat)
  else combineLane s t w.bank c w.acc (w.sums.getD c 0)

/-- A step's result enters its bank; the second component says that a SAT bit was set. -/
def applyStep (s : State) (t : Nat) (w : StepWork) : State × Bool :=
  let r := (List.range 128).foldl (fun (r : State × Bool) c =>
    let x := stepLane r.1 t c w
    (x.1, r.2 || x.2)) (s, false)
  ({ r.1 with tile := { r.1.tile with bmode := sset dFalse (4 * t + w.bank) w.block r.1.tile.bmode } }, r.2)

/-! ### Tensor scale records (R137-R141) -/

/-- A tensor scale record. -/
structure ScaleRec where
  fmt : Nat
  policy : Nat
  block : Bool
  osafe : Nat
  amin : Nat
  outer : Nat
  jumpLeft : Nat
  head : Nat
  zp : Int
  ring : Nat
  sring : Nat
  ringlen : Nat
  hist : List Nat
deriving DecidableEq, Repr

/-- A record from its 96 bytes. -/
def scaleRec (b : List Byte) : ScaleRec :=
  let ctrl := leAt b 0 4
  { fmt := fld ctrl 2 0, policy := fld ctrl 5 4, block := bitN ctrl 6, osafe := leAt b 4 4, amin := leAt b 8 4
    outer := leAt b 12 4, jumpLeft := leAt b 16 2, head := leAt b 18 1, zp := sextI 9 (leAt b 20 2)
    ring := leAt b 22 2, sring := leAt b 24 2, ringlen := leAt b 26 1
    hist := (List.range 16).map (fun i => leAt b (32 + 4 * i) 4) }

/-- An FP32 code is finite and not negative. -/
def nonNegFinite (b : Nat) : Bool := b < f32.infBits || b == 2 ^ 31

/-- The record keeps the layout of R137; in a record of a weft tile BLOCK, ZP, RING, SRING and RINGLEN must be 0. -/
def scaleRecOk (weft : Bool) (b : List Byte) : Bool :=
  let ctrl := leAt b 0 4
  let r := scaleRec b
  r.fmt ≤ 5 && r.policy != 3 && !bitN ctrl 3 && ctrl / 128 == 0 && leAt b 19 1 == 0 && leAt b 27 5 == 0
    && leAt b 20 2 / 512 == 0 && posFinite r.osafe && posFinite r.amin && posFinite r.outer && r.head ≤ 15
    && r.hist.all nonNegFinite
    && (if weft then !r.block && r.zp == 0 && r.ring == 0 && r.sring == 0 && r.ringlen == 0
        else if r.block then r.zp == 0 && r.ringlen != 0
        else r.fmt ≤ 3 && r.ring == 0 && r.sring == 0 && r.ringlen == 0)

/-- Qmax (R138). -/
def qmax (fmt : Nat) : Nat := [1, 7, 127, 255, 448, 57344].getD fmt 1

/-- The limits of the integer code ranges (R138). -/
def qRange (fmt : Nat) : Int × Int := [((-2 : Int), (1 : Int)), (-8, 7), (-128, 127), (0, 255)].getD fmt (0, 0)

/-- Bits of a code. -/
def qBits (fmt : Nat) : Nat := [2, 4, 8, 8, 8, 8].getD fmt 8

/-- A positive FP32 code as significand and exponent. -/
def posParts (b : Nat) : Nat × Int :=
  match fdecode f32 b with
  | .fin _ m e => (m, e)
  | _ => (0, 0)

/-- RNE to FP32 of a positive value a ÷ n, held at 2^-149 when it rounds to 0 (R139). -/
def divScale (a n : Nat) : Nat × Nat :=
  let (m, e) := posParts a
  let (q, k, st) := ratio m n e
  fpack f32 false q k st

/-- The outer scale of an execution, and the record with OUTER and JUMP_LEFT after it (R139). -/
def chooseOuter (r : ScaleRec) : Nat × ScaleRec :=
  let h := r.hist.foldl (fun m x => if x = 2 ^ 31 then m else max m x) r.amin
  let hist := max 1 (divScale h (16 * qmax r.fmt)).1
  let (o, left) := if r.policy = 0 then (r.outer, r.jumpLeft)
    else if r.policy = 2 ∧ 0 < r.jumpLeft then (r.osafe, r.jumpLeft - 1)
    else (hist, r.jumpLeft)
  (o, { r with outer := o, jumpLeft := left })

/-- What the beginning of an execution stores in the record at `a`: OUTER and JUMP_LEFT (R139). -/
def recBegin (a : Nat) (r : ScaleRec) : Nat × List Byte := (a + 12, leBytes 4 r.outer ++ leBytes 2 r.jumpLeft)

/-- What the end of an execution stores in the record at `a` (R141): its magnitude in HIST at HEAD, HEAD advanced, and
JUMP_LEFT 16 after a miss under JUMP. -/
def recEnd (a : Nat) (r : ScaleRec) (amax : Nat) (missed : Bool) : List (Nat × List Byte) :=
  [(a + 32 + 4 * r.head, leBytes 4 amax), (a + 18, leBytes 1 ((r.head + 1) % 16))]
    ++ (if missed && r.policy == 2 then [(a + 16, leBytes 2 16)] else [])

/-- v × o × Qmax ≥ amax, compared exactly, for inner code `code`. -/
def codeReaches (code outer fmt amax : Nat) : Bool :=
  let (mo, eo) := posParts outer
  let (ma, ea) := posParts amax
  let (m, e) := innerParts code
  -- m × 2^(e - 11) × mo × 2^eo × Qmax against ma × 2^ea
  let x : Int := eo + e - 11
  let lo := min x ea
  ma * 2 ^ (ea - lo).toNat ≤ m * mo * qmax fmt * 2 ^ (x - lo).toNat

/-- The smallest inner code that reaches a block's amax (R140); none when the block is a miss (R141). -/
def innerCode (outer fmt amax : Nat) : Option Nat :=
  if amax = 0 then some 0 else (List.range 256).find? (fun c => codeReaches c outer fmt amax)

/-- y ÷ (o × v) in a format's codes (R140, R147): the code, and whether it is an underflow. `v` is (m, e): m × 2^e. -/
def quantElem (fmt y : Nat) (mo : Nat) (eo : Int) (z : Int) : Int × Bool :=
  match fdecode f32 y with
  | .nan _ => (if fmt ≤ 3 then clampI (qRange fmt).1 (qRange fmt).2 0 else 0, false)
  | .inf neg =>
    if fmt ≤ 3 then (if neg then (qRange fmt).1 else (qRange fmt).2, false)
    else
      let f := if fmt = 4 then e4m3 else e5m2
      ((f.sign neg + f8Max f : Nat), false)
  | .fin neg m e =>
    if m = 0 then (if fmt ≤ 3 then clampI (qRange fmt).1 (qRange fmt).2 z else 0, false)
    else if mo = 0 then (0, false)
    else if fmt ≤ 3 then
      let q : Int := if e < eo then rneDiv m (mo * 2 ^ (eo - e).toNat) else rneDiv (m * 2 ^ (e - eo).toNat) mo
      let q := if neg then -q else q
      (clampI (qRange fmt).1 (qRange fmt).2 (q + z), q == 0)
    else
      let f := if fmt = 4 then e4m3 else e5m2
      let (n, k, st) := ratio m mo (e - eo)
      let b := (f8Round f neg n k st).1
      ((b : Nat), b % 128 == 0)

/-- The amax of finite elements; for U8 of those not negative (R140, R141). -/
def blockAmax (fmt : Nat) (ys : List Nat) : Nat :=
  ys.foldl (fun m y =>
    if f32.infBits ≤ y % 2 ^ 31 ∨ (fmt = 3 ∧ 2 ^ 31 ≤ y) then m else max m (y % 2 ^ 31)) 0

/-- Some element is a NaN or infinite. -/
def anyNonfinite (ys : List Nat) : Bool := ys.any (fun y => f32.infBits ≤ y % 2 ^ 31)

/-- A block quantised (R140): inner code, element codes, whether it missed, its underflows. A missed block takes code
0xFF (R143). For U8 a negative element gives 0 and no underflow. -/
structure QBlock where
  code : Nat
  elems : List Int
  missed : Bool
  uflow : Nat
deriving DecidableEq, Repr

/-- The block quantised with outer scale `o`. -/
def quantBlock (fmt o : Nat) (ys : List Nat) : QBlock :=
  let amax := blockAmax fmt ys
  let sel := innerCode o fmt amax
  let missed := sel.isNone || anyNonfinite ys
  let code := if missed then 0xFF else sel.getD 0xFF
  let (mo, eo) := posParts o
  let v := innerParts code
  let es := ys.map (fun y =>
    if code = 0 then ((0 : Int), false)
    else if fmt = 3 ∧ 2 ^ 31 ≤ y ∧ y % 2 ^ 31 ≤ f32.infBits then (0, false)
    else quantElem fmt y (v.1 * mo) (eo + v.2 - 11) 0)
  ⟨code, es.map (·.1), missed, (es.filter (·.2)).length⟩

/-- FP flags of the non-finite inputs of a quantiser (R147). -/
def nonfiniteFlags (ys : List Nat) : Nat :=
  (if ys.any (fun y => f32.infBits < y % 2 ^ 31) then flNV else 0)
    ||| (if ys.any (fun y => y % 2 ^ 31 == f32.infBits) then flOF else 0)

/-- Integer-mode codes q = clamp(RNE(y ÷ OUTER) + z), and the underflows (R142). -/
def quantInt (fmt outer : Nat) (z : Int) (ys : List Nat) : List Int × Nat :=
  let (mo, eo) := posParts outer
  let es := ys.map (fun y => quantElem fmt y mo eo z)
  (es.map (·.1), (es.filter (·.2)).length)

end Sys2Proof.Machine
end

