-- ==== Sys2Proof/Machine/WarpOps.lean ====
section
/-! DEFINITION. The warp plane's shared operations (spec/06): the issuing slot, unit latencies (R166, R167), fault records and
marks (R178-R182), skeins (R174-R177), Heddle tokens and routes (R168-R173), and the plane at the beginning of a run (R185). -/

namespace Sys2Proof.Machine

/-! ### Fault records and marks -/

/-- The mark bit of a warp cause (R181). -/
def markBit (cause : Nat) : Option Nat :=
  match cause with
  | 0x0220 => some 1
  | 0x0201 => some 2
  | 0x0202 => some 2
  | 0x0203 => some 2
  | 0x0204 => some 3
  | 0x0205 => some 3
  | 0x0207 => some 4
  | 0x0208 => some 4
  | 0x0221 => some 5
  | 0x0228 => some 6
  | 0x0229 => some 7
  | 0x0222 => some 9
  | 0x022A => some 9
  | 0x0209 => some 10
  | 0x022B => some 10
  | _ => none

/-- The 32 bytes of a warp fault record (R179). -/
def warpRecord (s : State) (w : WarpSite) (cause unit sub detail : Nat) (exp obs : Option Nat) : List Byte :=
  leBytes 2 cause ++ leBytes 1 w.t ++ leBytes 1 (sub % 16 + 16 * unit)
    ++ leBytes 2 (w.word % 4096 + w.slot % 4 * 4096 + 2 ^ 14 * b2n exp.isSome + 2 ^ 15 * b2n obs.isSome)
    ++ leBytes 1 w.phase ++ leBytes 1 detail ++ leBytes 6 w.frame ++ zeros 2 ++ leBytes 8 (nowTag s)
    ++ leBytes 4 w.pulse ++ leBytes 2 (exp.getD 0) ++ leBytes 2 (obs.getD 0)

/-- No fault ring entry. -/
abbrev dRing : Nat → List (List Byte) := fun _ => []
/-- The records that the fault ring of tile `t` holds, oldest first. -/
def faultRing (s : State) (t : Nat) : List (List Byte) := sget dRing s.tile.flt t

/-- A record enters the fault ring; a full ring drops it and counts it (R180). -/
def ringRecord (s : State) (t : Nat) (bs : List Byte) : State :=
  if 128 ≤ (faultRing s t).length then countUp s (rWtFltDrop t) 1
  else { s with tile := { s.tile with flt := sset dRing t (faultRing s t ++ [bs]) s.tile.flt } }

/-- WP_FIRST_REC takes the first record since WP_FAULT was clear (R180). -/
def firstRecord (s : State) (bs : List Byte) : State :=
  if s.tile.firstHeld then s
  else
    let s1 := (List.range 8).foldl (fun s i => setRegN s (rWpFirstRec i) (leAt bs (4 * i) 4)) s
    { s1 with tile := { s1.tile with firstHeld := true } }

/-- A disagreement in the warp plane (R178-R181): the frame is marked; token and skein events are counted; the first
event of a cause on a frame in a tile is raised and recorded, but for a token or skein cause on an OVERRUN frame. -/
def warpFault (s : State) (w : WarpSite) (cause unit sub detail : Nat) (exp obs : Option Nat) : State :=
  let overrun := bitN (frameMark s w.frame).mark 0
  let s := match markBit cause with
    | some b => markFrame s w.frame (2 ^ b)
    | none => s
  let s := if 0x0201 ≤ cause ∧ cause ≤ 0x0203 then countUpF s (rWtEvtCnt w.t) 15 0 1
    else if 0x0204 ≤ cause ∧ cause ≤ 0x0206 then countUpF s (rWtEvtCnt w.t) 31 16 1 else s
  if s.tile.fltSeen.contains (w.t, cause, w.frame) then s
  else
    let s1 := { s with tile := { s.tile with fltSeen := (w.t, cause, w.frame) :: s.tile.fltSeen } }
    let s2 := raise s1 cause w.t detail
    if overrun ∧ 0x0201 ≤ cause ∧ cause ≤ 0x0206 then s2
    else
      let bs := warpRecord s2 w cause unit sub detail exp obs
      if 128 ≤ (faultRing s2 w.t).length then ringRecord s2 w.t bs else firstRecord (ringRecord s2 w.t bs) bs

/-! ### The issuing slot (R154-R157, R182) -/

/-- Predicate q0-q7 of tile `t`; q0 reads 1. -/
def warpPred (s : State) (t k : Nat) : Bool := k == 0 || sget dFalse s.warp.preds (8 * t + k)

/-- PRED enables the slot (R157). -/
def slotEnabled (s : State) (w : WSlot) : Bool := !w.pickBad && (warpPred s w.tile (w.q % 8) != bitN w.q 3)

/-- Corrected errors counted (WT_ECC_CNT[15:0]). -/
def eccFixed (s : State) (t n : Nat) : State := if n = 0 then s else countUpF s (rWtEccCnt t) 15 0 n
/-- Uncorrectable errors counted (WT_ECC_CNT[31:16]). -/
def eccBad (s : State) (t n : Nat) : State := if n = 0 then s else countUpF s (rWtEccCnt t) 31 16 n

/-- Pick word `j` of tile `t`. -/
def pickAt (s : State) (t j : Nat) : PickWord :=
  decodePick ((sget dDWord s.tile.pick (8192 * t + 2 * j)).toNat
    + 2 ^ 64 * (sget dDWord s.tile.pick (8192 * t + 2 * j + 1)).toNat)

/-- PRED of a slot (0 M to 3 C) of a pick word. -/
def slotPred (x : PickWord) (slot : Nat) : Nat := [x.mpred, x.vpred, x.xpred, x.cpred].getD slot 0

/-- The pick sequencer issues the slot now (R152, R153): in a run, in a warp tile, in the first REED cycle of working pulse
`w.word`, which is below P, once, and the pick store holds the operation there, as `holds` says of its fields. -/
def slotIssues (s : State) (w : WSlot) (slot : Nat) (tp : Nat) (holds : PickWord → Bool) : Bool :=
  let x := pickAt s w.tile (phaseOf s tp * imageP s + w.word)
  runActive s && planeOf s w.tile == 1 && s.tb.cyc == 2 * w.word && decide (w.word < imageP s)
    && !s.warp.issued.contains (w.tile, slot) && x.lag == w.lag && slotPred x slot == w.q && holds x

/-- The slot has issued in this pulse. -/
def noteIssue (s : State) (t slot : Nat) : State :=
  { s with warp := { s.warp with issued := (t, slot) :: s.warp.issued } }

/-- An uncorrectable pick word is counted once, whatever slots of it issue (R182). -/
def noteBadWord (s : State) (t : Nat) : State :=
  if s.warp.badWords.contains t then s
  else
    let s := eccBad s t 1
    { s with warp := { s.warp with badWords := t :: s.warp.badWords } }

/-! ### Activity counters (spec/01 R19, spec/16 R446; log entry 96) -/

/-- Operations of tile `t` counted by entry of the energy table. -/
def countAct (s : State) (t : Nat) (xs : List (Nat × Nat)) : State :=
  { s with tile := { s.tile with act := xs.foldl (fun m x =>
      sset dNat (16 * t + x.1) (sget dNat m (16 * t + x.1) + x.2) m) s.tile.act } }

/-- A step on `m` macros of `n` cycles each: macro cycles, accesses for the descriptor and the activations. -/
def stepActs (m n afmt : Nat) : List (Nat × Nat) := [(0, m * n), (5, 2 + m * ceilDiv (96 * actBits afmt) 128)]

/-- What an operation of a slot counts: macro cycles, vector lanes (FP32 or BF16 pairs), tile-store accesses of 16 bytes. -/
def slotActs (s : State) (t : Nat) (x : PickWord) (slot : Nat) : List (Nat × Nat) :=
  match slot with
  | 0 =>
    let d := stepDesc (tsRead s t (16 * regF s (rWtDescBase t) 14 0 + 32 * x.sd) 32)
    if x.mop = 1 then stepActs (stepMacros d).length (setPages d.wfmt * (actBits d.afmt / 2)) d.afmt else []
  | 1 =>
    let b := tsRead s t (16 * regF s (rWtDescBase t) 30 16 + 16 * x.vd) 16
    if x.vop = 0 then []
    else if x.vop = 0x0F ∨ x.vop = 0x10 then [(5, 33)]
    else [(if 4 ≤ x.vop ∧ x.vop ≤ 8 ∧ bitN (leAt b 12 4) 4 then 3 else 2, 64), (5, 33)]
  | 2 => if x.xop = 0 then [] else [(5, 2 ^ (x.len % 4))]
  | _ => []

/-- A slot of a pick word issues (R152-R157, R182). `lag` is the lag of the served frame (the route's RLAG for HTK). Errors of
the word are counted; an idle slot does nothing else. An uncorrectable word marks the frame and executes with every slot not
enabled; an uncorrectable tile-store read marks the frame. -/
def warpSlot (w : WSlot) (slot lag : Nat) (holds : PickWord → Bool) (s : State) (k : State → WarpSite → Bool → State) :
    State :=
  match periodStart s s.tb.tick with
  | none => s
  | some tp =>
    if !slotIssues s w slot tp holds then s
    else
      let s := eccFixed (noteIssue s w.tile slot) w.tile w.fixed
      let s := if w.pickBad then noteBadWord s w.tile else s
      match servedFrame s tp lag with
      | none => s
      | some f =>
        let ph := phaseOf s tp
        let site : WarpSite := ⟨w.tile, f, ph * imageP s + w.word, slot, ph, w.word⟩
        let s := if w.pickBad then warpFault s site 0x0207 6 0 0 none none else s
        let en := slotEnabled s w
        let s := if en && !w.bad.isEmpty then
            warpFault (eccBad s w.tile w.bad.length) site 0x0208 ([0, 1, 2, 3].getD slot 0) 0 0 none none
          else s
        k (if en then countAct s w.tile (slotActs s w.tile (pickAt s w.tile site.word) slot) else s) site en

/-! ### Unit latencies (R166, R167) -/

/-- 2 under latency table LT1, 1 under LT2. -/
def lt21 (lt : Nat) : Nat := if lt = 1 then 2 else 1

/-- The latency table of the loaded image: a B0 device that runs an LT1 image keeps every latency of LT1 (R167). -/
def imageLt (s : State) : Nat := match s.image with | some i => i.lt | none => 2

/-- The latency of an MXR under a step descriptor, in warp cycles. -/
def stepLatency (d : StepDesc) : Nat := setPages d.wfmt * (actBits d.afmt / 2) + 1

/-- The latency of a V slot operation in warp cycles. -/
def vLatency (lt vop : Nat) : Nat :=
  match vop with
  | 0x00 => 0
  | 0x01 => lt21 lt
  | 0x02 => lt21 lt
  | 0x09 => 2 + lt21 lt
  | 0x0A => 4
  | 0x0B => 4
  | 0x0C => 4
  | 0x0D => 6
  | 0x0E => lt21 lt
  | _ => 2

/-- A result set on its way, to be in place in REED cycle `due`. -/
def sendLater (s : State) (due : Nat) (w : WarpSite) (x : Land) : State :=
  { s with warp := { s.warp with flights := s.warp.flights ++ [⟨due, w, x⟩] } }

/-- A result of the word that issues now, in place `lat` warp cycles later. -/
def later (s : State) (lat : Nat) (w : WarpSite) (x : Land) : State := sendLater s (nowCycle s + 2 * lat) w x

/-! ### Skeins (R174-R177) -/

/-- An empty skein. -/
abbrev dSkein : Nat → Skein := fun _ => {}
/-- Skein `k` of tile `t`. -/
def skein (s : State) (t k : Nat) : Skein := sget dSkein s.warp.skeins (8 * t + k)
/-- Skein `k` of tile `t` set. -/
def setSkein (s : State) (t k : Nat) (x : Skein) : State :=
  { s with warp := { s.warp with skeins := sset dSkein (8 * t + k) x s.warp.skeins } }
/-- Entries that skein `k` can hold; none while it is not enabled. -/
def skeinDepth (s : State) (t k : Nat) : Nat :=
  if regBit s (rWtSkeinCfg t k) 31 then regF s (rWtSkeinCfg t k) 25 16 + 1 else 0
/-- Bytes of an entry of skein `k`. -/
def skeinWidth (s : State) (t k : Nat) : Nat := 16 * 2 ^ regF s (rWtSkeinCfg t k) 30 29
/-- The tile-store address of ring place `i` of skein `k`. -/
def skeinAddr (s : State) (t k i : Nat) : Nat := 16 * regF s (rWtSkeinCfg t k) 14 0 + skeinWidth s t k * i

/-- A push onto skein `k` under frame `w.frame` (R174, R176). It takes effect at the end of its REED cycle, so that the pops of
the cycle come before it (R175). -/
def skeinPush (s : State) (w : WarpSite) (k : Nat) (bs : List Byte) : State :=
  let x := skein s w.t k
  let n := x.frames.length
  if skeinDepth s w.t k ≤ n then warpFault s w 0x0204 5 k 0 none none
  else
    let s1 := tsWrite s w.t (skeinAddr s w.t k ((x.head + n) % skeinDepth s w.t k)) (padTo (skeinWidth s w.t k) bs)
    setSkein s1 w.t k { x with frames := x.frames ++ [w.frame], maxFill := max x.maxFill (n + 1) }

/-- The head of skein `k` taken away. -/
def skeinDrop (s : State) (t k : Nat) : State :=
  let x := skein s t k
  setSkein s t k { x with head := (x.head + 1) % max 1 (skeinDepth s t k), frames := x.frames.drop 1 }

/-- A pop that expects frame `w.frame` (R174, R177): the entry's bytes, or zeros at an underrun. An older head is
discarded, up to `fuel` times. `bad` lists uncorrectable words (R182). -/
def skeinPop (w : WarpSite) (bad : List Nat) (k : Nat) : Nat → State → State × List Byte
  | fuel, s =>
    let x := skein s w.t k
    let under := fun (obs : Option Nat) =>
      (warpFault s w 0x0205 5 k 0 (some (w.frame % 2 ^ 16)) obs, zeros (skeinWidth s w.t k))
    match x.frames with
    | [] => under none
    | f :: _ =>
      let d := sextI 16 (encI 16 ((f : Int) - w.frame))
      if d = 0 then (skeinDrop s w.t k, tsReadBad s w.t bad (skeinAddr s w.t k x.head) (skeinWidth s w.t k))
      else if 0 < d then under (some (f % 2 ^ 16))
      else match fuel with
        | 0 => under (some (f % 2 ^ 16))
        | n + 1 =>
          skeinPop w bad k n (skeinDrop (warpFault s w 0x0206 5 k 0 (some (w.frame % 2 ^ 16)) (some (f % 2 ^ 16))) w.t k)

/-! ### Heddles (R168-R173) -/

/-- No token. -/
abbrev dTokens : Nat → List Token := fun _ => []
/-- The pending tokens of port `p`, oldest first. -/
def tokens (s : State) (t p : Nat) : List Token := sget dTokens s.warp.tokens (4 * t + p)
/-- The pending tokens of a port set. -/
def setTokens (s : State) (t p : Nat) (l : List Token) : State :=
  { s with warp := { s.warp with tokens := sset dTokens (4 * t + p) l s.warp.tokens } }

/-- Bytes by a LEN code (R158). -/
def lenBytes (code : Nat) : Nat := 16 * 2 ^ (code % 4)

/-- The block-mode step descriptors in the table of tile `t` that keep R164: they declare its slot rings. -/
def ringSteps (s : State) (t : Nat) : List StepDesc :=
  (List.range 64).filterMap (fun k =>
    let b := tsRead s t (16 * regF s (rWtDescBase t) 14 0 + 32 * k) 32
    if (stepDesc b).block && stepDescOk true b then some (stepDesc b) else none)

/-- Byte `a` begins a slot of `width` bytes of a ring of `len` slots at `ring` (16-byte units). -/
def slotBegins (ring len width a : Nat) : Bool :=
  decide (16 * ring ≤ a) && decide (a < 16 * ring + width * len) && (a - 16 * ring) % width == 0

/-- The sideband that a burst with tag `tag` writes at byte `a`: a block slot of a ring takes the tag of the burst, a
scale slot that of its entry (R131, R132; log entry 85). -/
def burstSlot (s : State) (ds : List StepDesc) (t a tag : Nat) : State :=
  if ds.any (fun d => slotBegins d.ring d.ringlen 32 a) then setSide s t a ⟨true, tag % 16⟩
  else if ds.any (fun d => slotBegins d.sring d.ringlen 2 a) then setSide s t a ⟨true, fld (scaleEntry s t a) 11 8⟩
  else s

/-- A burst written to tile store at `a` (R170): its bytes, and VALID of the slots that it fills. The zeros that an expired
token supplies have no tag and fill no slot. -/
def landBurst (s : State) (t a : Nat) (tag : Option Nat) (bs : List Byte) : State :=
  match tag with
  | none => tsWrite s t a bs
  | some g =>
    let q := tsWrite s t a bs
    (List.range (bs.length / 2)).foldl (fun q k => burstSlot q (ringSteps s t) t (a + 2 * k) g) q

/-- Data steered by route `r` of port `p` in REED cycle `cyc` as its `k`-th entry (R168, R170); `tag` is that of its burst.
Tile store shows them after the latency of the Heddle (R166); a push counts in its cycle. -/
def routeData (s : State) (w : WarpSite) (cyc p r k : Nat) (tag : Option Nat) (bs : List Byte) : State :=
  let c := rWtRoute w.t p r
  match regF s c 30 29 with
  | 0 => sendLater s (cyc + lt21 (imageLt s)) w
      (.burst (16 * regF s c 14 0 + k * lenBytes (regF s c 25 24)) tag bs)
  | 1 => sendLater s (cyc + 1) w (.push (regF s c 28 26) bs)
  | _ => s

/-- The place of a tag in a token's range; none outside it (R169, modulo 16). -/
def tagPlace (x : Token) (tag : Nat) : Option Nat :=
  let k := (tag + 16 - x.tag % 16) % 16
  if k < x.cnt then some k else none

/-- WT_SLACK of the route after a steered arrival in cycle `c` (R512). -/
def noteSlack (s : State) (t p : Nat) (x : Token) (c : Nat) : State :=
  if x.route = 15 then s
  else
    let a := rWtSlack t p x.route
    let late := x.active + x.slack - c
    let early := c - x.active
    let s := setF s a 7 0 (min (regF s a 7 0) late)
    let s := setF s a 15 8 (min (regF s a 15 8) early)
    if late = 0 then setF s a 23 16 (satN 8 (regF s a 23 16 + 1)) else s

/-- A burst steered at port `p` of tile `t` in cycle `c` (R170-R173). -/
def steer (s : State) (t p : Nat) (f : Flit) (pulse phase : Nat) : State :=
  let c := f.cyc
  let site : WarpSite := ⟨t, f.frame, 0, 0, phase, pulse⟩
  let ts := tokens s t p
  let hit := ts.findIdx? (fun x => x.active ≤ c && c ≤ x.active + x.slack && (tagPlace x f.tag).isSome)
  let miss := fun (s : State) =>
    routeData (warpFault s site 0x0201 4 p 0 none (some (f.tag % 16))) site c p 15 0 (some f.tag) f.payload
  match hit with
  | none => miss s
  | some i => match ts[i]? with
    | none => miss s
    | some x =>
      if f.payload.length ≠ lenBytes (regF s (rWtRoute t p x.route) 25 24) then miss s
      else
        let k := (tagPlace x f.tag).getD 0
        let s := routeData s site c p x.route k (some f.tag) f.payload
        let s := noteSlack s t p x c
        let x' := { x with done := if x.done.contains k then x.done else k :: x.done }
        setTokens s t p (if x'.done.length = x.cnt then ts.eraseIdx i else ts.set i x')

/-- Token `i` of port `p` expires (R173): zeros for the tags that were not steered. -/
def expireToken (s : State) (t p i : Nat) (phase : Nat) (base : Nat) : State :=
  match (tokens s t p)[i]? with
  | none => s
  | some x =>
    let site : WarpSite := ⟨t, x.frame, x.word, 3, phase, (x.active + x.slack - base) / 2⟩
    let len := lenBytes (regF s (rWtRoute t p x.route) 25 24)
    let left := (List.range x.cnt).filter (fun k => !x.done.contains k)
    let s1 := warpFault s site 0x0202 4 p x.route (some ((x.tag + left.headD 0) % 16)) none
    let s2 := left.foldl (fun s k => routeData s site (x.active + x.slack) p x.route k none (zeros len)) s1
    setTokens s2 t p ((tokens s2 t p).eraseIdx i)

/-! ### Results that come into place (R166) -/

/-- Predicate `k` of tile `t` set (R157). -/
def setPred (s : State) (t k : Nat) (v : Bool) : State :=
  { s with warp := { s.warp with preds := sset dFalse (8 * t + k) v s.warp.preds } }

/-- A step's result enters its bank; a lane that saturates is reported for the frame (R104, R122). -/
def landStep (s : State) (w : WarpSite) (x : StepWork) : State :=
  let r := applyStep s w.t x
  if r.2 then warpFault r.1 w 0x0221 0 0 0 none none else r.1

/-- One result comes into place. -/
def landOne (s : State) (f : Flight) : State :=
  match f.what with
  | .store a bs => tsWrite s f.site.t a bs
  | .burst a tag bs => landBurst s f.site.t a tag bs
  | .slot a x => setSide s f.site.t a x
  | .step w => landStep s f.site w
  | .clear b => clearBank s f.site.t b
  | .pred k v => setPred s f.site.t k v
  | .score k x => { s with tr := { s.tr with scores := sset dScore k x s.tr.scores } }
  | .push k bs => skeinPush s f.site k bs

/-- The results that can be used from the running REED cycle on, in the order of their issue. -/
def landDue (s : State) : State :=
  let now := nowCycle s
  let go := s.warp.flights.filter (fun f => decide (f.due ≤ now))
  go.foldl landOne { s with warp := { s.warp with flights := s.warp.flights.filter (fun f => decide (now < f.due)) } }

/-! ### The beginning of a run -/

/-- WT_SLACK of every route of tile `t` at its reset value (R512). -/
def clearSlack (s : State) (t : Nat) : State :=
  (List.range 60).foldl (fun s k => setReg s (rWtSlack t (k / 15) (k % 15)) 0xFFFF#32) s

/-- Warp tiles of the loaded image. -/
def warpTiles (s : State) : List Nat := (List.range 256).filter (fun t => planeOf s t == 1)

/-- A warp tile at a RUN_SYNC edge that begins a run (R124, R151, R185, R512): banks, SAT masks, block accumulators and
slot VALID bits 0. -/
def clearWarpTile (s : State) (t : Nat) : State :=
  let s := (List.range 4).foldl (fun s b => clearBank s t b) s
  clearSlack { s with tile := { s.tile with side := sclear (2 ^ 18 * t) (2 ^ 18) s.tile.side
                                            bmode := sclear (4 * t) 4 s.tile.bmode } } t

/-- Working copies of the warp tiles' scale records restored from their templates (R151). -/
def restoreRecords (s : State) (p : Nat → Bool) : State :=
  match s.image with
  | none => s
  | some i => i.recs.foldl (fun s r =>
      if p r.1 then tsWrite s r.1 r.2.1 (tsRead s r.1 r.2.2 96) else s) s

/-- The warp plane and the slot tables at a RUN_SYNC edge that begins a run (R151, R185, R210). The slot tables are active from
the first frame period, which begins at tick SLOT. -/
def warpRunStart (s : State) : State :=
  let ws := warpTiles s
  let s := ws.foldl clearWarpTile s
  let s := restoreRecords s (fun t => ws.contains t)
  let s := setRegBit (setRegBit (setRegN s rRdC1Maxlat 0) rRdStatus 16 (tbSlot s == 0)) rWpStatus 16 true
  { s with marks := [], warp := {}, tile := { s.tile with fltSeen := [] }
           rd := { s.rd with flits := [], arrived := [] } }

/-- The warp plane and the slot tables at the end of a run (R185, R210). -/
def warpRunEnd (s : State) : State := setRegBit (setRegBit s rRdStatus 16 false) rWpStatus 16 false

end Sys2Proof.Machine
end

