-- ==== Sys2Proof/Machine/RunEdges.lean ====
section
/-! DEFINITION. Where runs are armed, begin and end (spec/02 R39-R45, R53, R54, R61): the conditions of ARM that the
blocks check, and what every block does at the edges of a run. -/

namespace Sys2Proof.Machine

/-! ### The conditions of ARM -/

/-- The reason ARM_WHY with which Timebase refuses ARM (R40, R45); 0 when it does not. -/
def armWhy (s : State) : Nat :=
  let st := tbState s
  let nm := framePulses s
  let sv := tbSelvage s
  if !(st == stLocked || st == stRunning) || (st == stLocked && !regBit s rTbStatus 5) then 1
  else if sv < ceilDiv nm 8 || nm - 1 < sv then 2
  else if nm - sv < imageP s then 3
  else 0

/-- Timebase refuses ARM: cause 0x0904 with the reason as DETAIL; ARM_WHY keeps the first reason (TB_FAULT). -/
def armRefused (s : State) (why : Nat) : State :=
  let s := logRaise s 0x0904 noSource why
  if regF s rTbFault 5 4 ≠ 0 then s
  else
    let s := if reg s rTbFault = 0 then setReg64 s rTbFaultTag (nowTag s) else s
    msix (setF s rTbFault 5 4 why) 0x19

/-- The detail with which the loader refuses ARM (R293): none when it does not. -/
def armImageWhy (s : State) : Option Nat :=
  if !regBit s rLdStatus 31 then some 0
  else if regBit s rLdStatus 30 then some 1
  else match s.image with
    | some i => if framePulses s ≠ i.framePulses then some 2 else none
    | none => some 0

/-- ARM without a fitting image (R293, R297). -/
def armNoImage (s : State) (why : Nat) : State :=
  setRegN (setRegN (setF (raise s 0x0B95 noSource why) rLdStatus 15 0 0x0B95) rLdErrloc 0xFFFFFFFF) rLdErrdetail why

/-- H_min in fine units (R309). -/
def hMin (s : State) : Nat := ceilDiv (tickKhz s * 256 * 20) 1000000

/-- A TRIG_IN window of stream `n` closes too late for its evaluation (R309). -/
def windowLate (s : State) (n : Nat) : Bool :=
  (List.range 16).any (fun w =>
    let src := rTrWinSrc n w
    regBit s src 31 && !regBit s src 30
      && (sextI 32 (reg s (rTrWinOpen n w)).toNat < sextI 32 (reg s (rTrWinClose n w)).toNat)
      && (((evalPulse s n * 256 / tbN s : Nat) : Int) - hMin s
          < sextI 32 (reg s (rTrWinClose n w)).toNat - trigSkew s (regF s src 3 0)))

/-- A selector that no enabled machine of stream `n` may hold (R312). -/
def selectorBad (s : State) (n sel : Nat) : Bool :=
  match fld sel 15 12 with
  | 0x0 => false
  | 0x1 => evalPulse s n < evalPulse s (fld sel 7 4)
  | 0x2 => false
  | 0x3 => false
  | 0x4 => false
  | 0x5 => false
  | 0x6 => false
  | 0x7 => false
  | 0x8 => 4 ≤ fld sel 2 0
  | 0x9 => 6 ≤ fld sel 2 0
  | 0xA => false
  | _ => true

/-- A Treadle condition of stream `n` fails (R301, R308, R312, R326). -/
def treadleBad (s : State) (n : Nat) : Bool :=
  let r := decisionPulse s n
  let nm := framePulses s
  let rl := regF s (rTrStreamCfg n) 28 24
  let base := reg64 s (rTrRecBase n)
  nm - tbSelvage s < r || 4 * nm < 5 * r
    || rl < 10 || 26 < rl || 8 < regF s (rTrStreamCfg n) 19 16
    || base % 4096 != 0
    || !((List.range 32).any (fun q => inRegion s q base (64 * 2 ^ rl) && (region s q).kind == 2
          && (region s q).stream == n))
    || (List.range 8).any (fun m => machOn s n m && (List.range 64).any (fun k => selectorBad s n (machSel s n m k)))
    || (List.range 16).any (fun w =>
        let src := rTrWinSrc n w
        regBit s src 31 && regBit s src 30 && evalPulse s n < (streamRec s (regF s src 13 10)).deliv + 2)

/-- A TRIG_OUT source is reserved or names a disabled stream. -/
def trigOutBad (s : State) (j : Nat) : Bool :=
  let src := regF s (rTrTrigoutCfg j) 2 0
  src == 7 || (1 ≤ src && src ≤ 4 && !streamOn s (regF s (rTrTrigoutCfg j) 6 3))

/-- The frame size of R67 of stream `n`, padded to whole lines, over D_s + 2 periods (R353). -/
def pendingArea (s : State) (n : Nat) : Nat := ceilDiv (frameSize s n) 64 * 64 * (decisionLatency s n + 2)

/-- Streams that take part on die `d`. -/
def dieStreams (s : State) (d : Nat) : List Nat := (List.range 16).filter (fun n => streamOn s n && streamDie s n == d)

/-- Streams that take part and capture. -/
def captures (s : State) (n : Nat) : Bool := streamOn s n && regBit s (rBbStCfg n) 31

/-- Bytes of all the channel values of stream `n`. -/
def valueBytes (s : State) (n : Nat) : Nat := ((streamChans s n).map chanWidth).sum

/-- A capture condition of stream `n` on its die fails (R353). The reservations compare in units of 1/(125 M) MB/s, so
that 0.064 × TICK_KHZ ÷ M is exact. -/
def captureBad (s : State) (n : Nat) : Bool :=
  let d := streamDie s n
  let on := dieStreams s d
  let cap := on.filter (captures s)
  let q := commitArea s n
  let nch := regF s (rBbStCfg n) 22 12
  let key := ceilDiv (16 + valueBytes s n) 8 * 8
  let chg := ceilDiv (8 + 2 * nch + valueBytes s n) 8 * 8
  let g := bobbinRegion s n
  let m := tbM s
  let rl := regF s (rTrStreamCfg n) 28 24
  let dieBad := 4 * 2 ^ 20 < (on.map (pendingArea s)).sum + (cap.map (commitArea s)).sum + 576 * 1024
    || 2560000 * m * (dieChans s d).length
        < (cap.map (fun k => regF s (rBbStRsv k) 15 0)).sum * 125 * m + 8 * tickKhz s * on.length
    || 65536 < (cap.map (valueBytes s)).sum
  let ringBad := !((List.range 32).any (fun r => inRegion s r (reg64 s (rTrRecBase n)) (64 * 2 ^ rl)
      && (region s r).kind == 2 && (region s r).stream == n))
  let own := captures s n && (
    36 * regF s (rBbStRsv n) 15 0 < q
      || q < 16 + 32 + max key chg
      || (streamChans s n).any (fun e =>
          if bitN e 19 then (streamRec s n).nchan ≤ fld e 25 20
            || frameSize s n < (streamRec s n).chOfs.getD (fld e 25 20) 0 + 2
          else fld e 17 16 == 3 || frameSize s n < fld e 15 0 + chanWidth e)
      || (streamChans s n).any (fun e => !bitN e 63)
      || 1024 < nch
      || !(g.valid && g.kind == 1 && g.stream == n))
  dieBad || ringBad || own

/-- An enabled link ring is out of range or lies outside a RECORD region of its stream (R373). -/
def linkRingBad (s : State) (n : Nat) : Bool :=
  let lg := regF s (rPvRingCfg n) 4 0
  regBit s (rPvRingCfg n) 31 &&
    (lg < 4 || 20 < lg
      || !((List.range 32).any (fun r => inRegion s r (reg64 s (rPvRingBase n)) (128 * 2 ^ lg)
            && (region s r).kind == 2 && (region s r).stream == n)))

/-- Streams for which `p` holds among those that take part. -/
def badStreams (s : State) (p : Nat → Bool) : List Nat := (List.range 16).filter (fun n => streamOn s n && p n)

/-- Every condition of ARM is evaluated; each that fails raises its cause. The second component says whether all hold. -/
def armChecks (s : State) : State × Bool :=
  let why := armWhy s
  let img := armImageWhy s
  let late := badStreams s (windowLate s)
  let tr := badStreams s (treadleBad s)
  let out := (List.range 16).filter (trigOutBad s)
  let capt := badStreams s (captureBad s)
  let links := (List.range 16).filter (linkRingBad s)
  let high := 450000 < powerFloor s (declaredWarpPower s)
  let s1 := if why ≠ 0 then armRefused s why else s
  let s1 := match img with | some w => armNoImage s1 w | none => s1
  let s1 := late.foldl (fun s n => raise s 0x0501 n 0) s1
  let s1 := tr.foldl (fun s n => raise s 0x0502 n 0) s1
  let s1 := out.foldl (fun s j => raise s 0x0502 j 0) s1
  let s1 := capt.foldl (fun s n => raise s 0x0608 n n) s1
  let s1 := if high then raise s1 0x0A03 noSource 0 else s1
  let s1 := links.foldl (fun s n => raise s 0x0BA0 n 0) s1
  (s1, why == 0 && img.isNone && late.isEmpty && tr.isEmpty && out.isEmpty && capt.isEmpty && !high && links.isEmpty)

/-- The drain of stream `n` in bytes per frame period (R352). -/
def captureDrain (s : State) (n : Nat) : Nat := regF s (rBbStRsv n) 15 0 * 1000 * tbM s / tickKhz s

/-- An accepted ARM: ARM and the RWL lock set, ARMED from LOCKED, the drains, the declared warp power and the floor
(R40, R11, R291, R352, R452). -/
def armAccepted (s : State) : State :=
  let regs := s.regs
  let s := setRegBit s rTbCtrl 1 true
  let s := { s with rwlLock := true, kp := { s.kp with armRegs := some regs } }
  let s := if tbState s == stLocked then setTbState s stArmed else s
  let s := (List.range 16).foldl (fun s n => setRegN s (rBbStDrain n) (captureDrain s n)) s
  let pw := declaredWarpPower s
  setFloor (setRegN s rLdWarpPw pw) pw

/-- ARM is cleared, and with it every lock it set (R11, R41, R52-R54). -/
def clearArm (s : State) : State := { setRegBit s rTbCtrl 1 false with rwlLock := false }

/-! ### The beginning and the end of a run -/

/-- Kwengo at a RUN_SYNC edge that begins a run (spec/14 R407): N restarts at 0; OFS2, DLY2 and TC_VALID are cleared. -/
def kwengoRunStart (s : State) : State :=
  (List.range 8).foldl (fun s p =>
    let s := setRegBit (setReg (setReg s (rKwTcOfs2 p) 0) (rKwTcDly2 p) 0) (rKwPortStatus p) 28 false
    setPort s p { port s p with tcN := 0, tcDeps := [], tcRx := none }) s

/-- A RUN_SYNC edge begins a run (R39, R61): tick 0, counters of the run cleared, every block as its run-start row
says. -/
def beginRun (s : State) : State :=
  let s := setRegBit (setRegBit (setTbState s stRunning) rTbCtrl 1 false) rTbCtrl 2 false
  let tb := { sysclkLost := s.tb.sysclkLost, fineCtr := s.tb.fineCtr, weftPulse := s.tb.weftPulse }
  let s := { s with tb := tb, rwlLock := true }
  let s := setRegN (setRegN (setRegN s rTbOverrunCnt 0) rTbPrerunCnt 0) rTbStretchMax 0
  let s := setReg64 s rTbWeftStretchPs 0
  kwengoRunStart (provRunStart (bobbinRunStart (treadleRunStart (warpRunStart (beamRunStart s)))))

/-- A run ends with its records (R41, R53): frames without a decision are lost with `cause` when one is given, the last
blocks close, locks and ARM clear, the floor is that outside a run. -/
def endRun (s : State) (st : Nat) (cause : Option Nat) : State :=
  let s := match cause with
    | some c => loseUndecided s c
    | none => s
  let s := warpRunEnd (bobbinRunEnd (provRunEnd (cutFlits s)))
  let s := clearArm (setRegBit (setTbState s st) rTbCtrl 2 false)
  let s := { s with tb := { s.tb with stopAt := none, lapse := false } }
  setFloor s 0

/-- A run ends at once with no record (R54, R323, R370, R375): nothing closes, frames not decided have none. -/
def abortRun (s : State) (st : Nat) : State :=
  let s := dropC1 { s with tr := { s.tr with undecided := [] } }
  let s := warpRunEnd (trigOutOff (bobbinRunEnd s))
  let s := clearArm (setRegBit (setTbState s st) rTbCtrl 2 false)
  let s := { s with tb := { s.tb with stopAt := none, lapse := false } }
  setFloor s 0

/-- A RUN_SYNC restart (R41): the old run ends at the edge with lost-frame records, and a new run begins. -/
def restartRun (s : State) : State :=
  let s := raise s 0x090A noSource 0
  let s := bobbinRunEnd (provRunEnd (loseUndecided s 0x090A))
  beginRun s

end Sys2Proof.Machine
end

