-- ==== Sys2Proof/Machine/WeftOps.lean ====
section
/-! DEFINITION. The weft core's shared operations (spec/08): registers and lanes (R211), guards and legality
(R213-R215), traps and their records (R244-R249), the frame in which every instruction runs. Instructions take effect
one by one in program order: the pipeline of R216-R218 and its latencies change no result (R218, log entry 13). -/

namespace Sys2Proof.Machine

/-! ### Registers (R211) -/

/-- A core that has run no job. -/
abbrev dCore : Nat → Core := fun _ => {}
/-- The core of tile `t`. -/
def core (s : State) (t : Nat) : Core := sget dCore s.weft.cores t
/-- The core of tile `t` set. -/
def setCore (s : State) (t : Nat) (c : Core) : State :=
  { s with weft := { s.weft with cores := sset dCore t c s.weft.cores } }

/-- s[r]; s0 reads 0. -/
def getS (s : State) (t r : Nat) : Nat := if r = 0 then 0 else (sget dDWord s.weft.sreg (32 * t + r)).toNat
/-- s[r] written with the low 64 bits of `v`; a write to s0 is ignored. -/
def setS (s : State) (t r v : Nat) : State :=
  if r = 0 then s
  else { s with weft := { s.weft with sreg := sset dDWord (32 * t + r) (BitVec.ofNat 64 v) s.weft.sreg } }

/-- All ones. -/
abbrev ones64 : Nat := 2 ^ 64 - 1

/-- p[r]; p0 reads all ones. -/
def getP (s : State) (t r : Nat) : Nat := if r = 0 then ones64 else (sget dDWord s.weft.preg (8 * t + r)).toNat
/-- p[r] written; a write to p0 is ignored. -/
def setP (s : State) (t r v : Nat) : State :=
  if r = 0 then s
  else { s with weft := { s.weft with preg := sset dDWord (8 * t + r) (BitVec.ofNat 64 v) s.weft.preg } }

/-- The lanes of v[r]. -/
def getV (s : State) (t r : Nat) : List Nat :=
  (sgetMany dWord s.weft.vreg ((32 * t + r) * 64) 64).map BitVec.toNat
/-- v[r] written on the lanes that the guard enables; the others keep their values (R214). -/
def setV (s : State) (t r g : Nat) (vs : List Nat) : State :=
  let old := getV s t r
  let new := (List.range 64).map (fun i => BitVec.ofNat 32 (if bitN g i then vs.getD i 0 else old.getD i 0))
  { s with weft := { s.weft with vreg := ssetMany dWord ((32 * t + r) * 64) new s.weft.vreg } }

/-- Lane bits of p[r] written on the lanes that the guard enables. -/
def setPLanes (s : State) (t r g : Nat) (bs : List Bool) : State :=
  let old := getP s t r
  setP s t r (ofBitsLsb ((List.range 64).map (fun i => if bitN g i then bs.getD i false else bitN old i)))

/-- A FINITE lane of value 0. -/
abbrev dXLane : Nat → XLane := fun _ => {}
/-- The lanes of xa[r]. -/
def getX (s : State) (t r : Nat) : List XLane := sgetMany dXLane s.weft.xa ((4 * t + r) * 64) 64
/-- The lanes of xa[r] set. -/
def setX (s : State) (t r : Nat) (ls : List XLane) : State :=
  { s with weft := { s.weft with xa := ssetMany dXLane ((4 * t + r) * 64) (ls.take 64) s.weft.xa } }

/-! ### Fields, guard, legality (R213-R215) -/

/-- IMM sign-extended (R213). -/
def immS (f : WFields) : Int := sextI 32 f.imm

/-- The 64 bits of an integer. -/
def wrap64 (x : Int) : Nat := encI 64 x

/-- The guard g = p[PG] XOR (PN replicated) (R214). -/
def guardOf (s : State) (t : Nat) (f : WFields) : Nat :=
  if f.pn then ones64 - getP s t (f.pg % 8) else getP s t (f.pg % 8)

/-- The opcode and the fields of a 64-bit instruction word (R213). -/
def decodeWeft (w : Nat) : Nat × WFields :=
  (fld w 59 52, { pn := bitN w 63, pg := fld w 62 60, rd := fld w 51 47, ra := fld w 46 42, rb := fld w 41 37
                  rc := fld w 36 32, imm := fld w 31 0 })

/-- The word that holds an opcode and fields (R213). -/
def encodeWeft (opc : Nat) (f : WFields) : Nat :=
  b2n f.pn * 2 ^ 63 + f.pg * 2 ^ 60 + opc * 2 ^ 52 + f.rd * 2 ^ 47 + f.ra * 2 ^ 42 + f.rb * 2 ^ 37 + f.rc * 2 ^ 32 + f.imm

/-- What an opcode uses of the fields: the opcode, the number of codes that RD, RA, RB, RC may hold (1 for a field not used, 32 for
s and v, 8 for a predicate, 4 for an exact accumulator), and the values that IMM may hold (R213, R215). -/
structure Shape where
  opc : Nat
  rd : Nat := 1
  ra : Nat := 1
  rb : Nat := 1
  rc : Nat := 1
  imm : Nat → Bool := fun v => v == 0

/-- Every IMM. -/
def immAny : Nat → Bool := fun _ => true
/-- IMM below a bound. -/
def immLt (n : Nat) : Nat → Bool := fun v => decide (v < n)

/-- No unused field holds anything and no sub-field holds a reserved value (R215). -/
def legalFields (f : WFields) (h : Shape) : Bool :=
  decide (f.rd < h.rd) && decide (f.ra < h.ra) && decide (f.rb < h.rb) && decide (f.rc < h.rc) && h.imm f.imm

/-- An opcode that R220-R240 list. -/
def opcodeListed (n : Nat) : Bool :=
  decide (n ≤ 0x06) || (decide (0x10 ≤ n) && decide (n ≤ 0x2C)) || (decide (0x30 ≤ n) && decide (n ≤ 0x34))
    || (decide (0x40 ≤ n) && decide (n ≤ 0x6C)) || (decide (0x70 ≤ n) && decide (n ≤ 0x78))
    || (decide (0x80 ≤ n) && decide (n ≤ 0x86)) || (decide (0x90 ≤ n) && decide (n ≤ 0x97))
    || (decide (0xA0 ≤ n) && decide (n ≤ 0xA2)) || (decide (0xB0 ≤ n) && decide (n ≤ 0xB3)) || n == 0xC0

/-! ### Traps (R244-R249) -/

/-- What a trap record says beside tile, PC, stream, job and time (R248). -/
structure Trap where
  cause : Nat
  unit : Nat
  sub : Nat := 0
  detail : Nat := 0
  addr : Nat := 0
  exp : Nat := 0
  obs : Nat := 0
deriving DecidableEq, Repr

/-- The 32 bytes of a weft trap record (R248). -/
def trapRecord (s : State) (t : Nat) (x : Trap) : List Byte :=
  let c := core s t
  leBytes 2 x.cause ++ leBytes 1 t ++ leBytes 1 (x.sub % 16 + 16 * x.unit) ++ leBytes 2 (c.pc % 8192)
    ++ leBytes 1 c.stream ++ leBytes 1 x.detail ++ leBytes 8 (nowTag s) ++ leBytes 4 c.jobid ++ leBytes 4 x.addr
    ++ leBytes 4 x.exp ++ leBytes 4 x.obs

/-- A core stops for good: its state is kept, its record enters the tile's fault ring, the cause is raised (R248,
R249). -/
def coreStops (s : State) (t st : Nat) (x : Trap) : State :=
  let s := raise (ringRecord s t (trapRecord s t x)) x.cause t x.detail
  setCore s t { core s t with state := st, trapCause := x.cause, waiting := none, vq := none, raiseTo := none }

/-- Core states of DT_STATE. -/
abbrev coreIdle : Nat := 0
/-- STARTING. -/
abbrev coreStarting : Nat := 1
/-- RUNNING. -/
abbrev coreRunning : Nat := 2
/-- STOPPING. -/
abbrev coreStopping : Nat := 3
/-- TRAPPED. -/
abbrev coreTrapped : Nat := 4
/-- ENDED. -/
abbrev coreEnded : Nat := 5

/-- The stop of a tile at a retirement (R265): a 0x030E record. -/
def takeStop (s : State) (t : Nat) : State := coreStops s t coreTrapped { cause := 0x030E, unit := 8 }

/-- The running job with number `n`. -/
def jobNum (s : State) (n : Nat) : Option RunJob := s.sched.running.find? (fun r => r.num == n)

/-- Every RUNNING tile of a job is to stop at its next retirement (R265, R266). -/
def stopTilesOf (s : State) (r : RunJob) : State :=
  r.tiles.foldl (fun s t =>
    if (core s t).state = coreRunning then setCore s t { core s t with state := coreStopping } else s) s

/-- The running jobs with job `n` changed by `f`. -/
def mapJob (s : State) (n : Nat) (f : RunJob → RunJob) : State :=
  { s with sched := { s.sched with running := s.sched.running.map (fun q => if q.num = n then f q else q) } }

/-- The running job with number `n` is to be stopped with a status, unless it already is (R266). -/
def stopJob (s : State) (n status : Nat) : State :=
  match jobNum s n with
  | none => s
  | some r => stopTilesOf (mapJob s n (fun q => if q.stop.isNone then { q with stop := some status } else q)) r

/-- The job with a trap at cycle `c` of tile `t`: the first trap, that of the earliest cycle and in one cycle of the lowest
tile, gives the status; a stop that came before every trap keeps its own (R265). -/
def withTrap (q : RunJob) (c t status : Nat) : RunJob :=
  match q.stop, q.trapAt with
  | none, _ => { q with stop := some status, trapAt := some (c, t) }
  | some _, some x => if c < x.1 ∨ (c = x.1 ∧ t < x.2) then { q with stop := some status, trapAt := some (c, t) } else q
  | some _, none => q

/-- A trap of tile `t` stops its job's other tiles (R265). -/
def trapJob (s : State) (t status : Nat) : State :=
  match jobNum s (core s t).job with
  | none => s
  | some r => stopTilesOf (mapJob s r.num (fun q => withTrap q (core s t).cycle t status)) r

/-- The stop of tile `t` has not come yet: its core's cycle is not past that of its job's first trap (R247, R265). -/
def beforeStop (s : State) (t : Nat) : Bool :=
  match (jobNum s (core s t).job).bind (·.trapAt) with
  | some x => decide ((core s t).cycle ≤ x.1)
  | none => false

/-- Tile `t` takes the stop that has been asked for. -/
def stopDue (s : State) (t : Nat) : Bool := (core s t).state == coreStopping && !beforeStop s t

/-- An instruction traps (R244, R249); the scheduler stops the rest of its job (R265). A core whose stop has come first
does not trap (R247). -/
def takeTrap (s : State) (t : Nat) (x : Trap) : State :=
  if stopDue s t then takeStop s t else trapJob (coreStops s t coreTrapped x) t x.cause

/-! ### The frame of an instruction -/

/-- What an instruction comes to: done with the next PC (none for PC + 1), a trap with the state that its cause leaves,
or a wait. -/
inductive WRes where
  | done (s : State) (pc : Option Nat)
  | trap (s : State) (x : Trap)
  | wait (s : State) (w : WaitOn)

/-- No cycle counted. -/
abbrev dCnt : Nat → Nat := fun _ => 0

/-- Weft cycles of tile `t` counted under reason `k`, saturating (R513). -/
def countCycles (s : State) (t k n : Nat) : State :=
  { s with weft := { s.weft with
      cycles := sset dCnt (32 * t + k) (satN 32 (sget dCnt s.weft.cycles (32 * t + k) + n)) s.weft.cycles } }

/-- The bubble fraction of weft issue in 64ths (spec/16 R456). -/
def weftBubble (s : State) : Nat := regF s rPmBubble 22 16

/-- The bubbles that come before the next issue of tile `t`: its issue cycles are the opportunities (spec/16 R456). -/
def bubblesDue (s : State) (t : Nat) : Nat :=
  ((List.range 64).takeWhile (fun i => isBubble (weftBubble s) ((core s t).opp + i))).length

/-- Every opportunity of the weft plane is a bubble: nothing issues. -/
def allBubbles (s : State) : Bool := decide (64 ≤ weftBubble s)

/-- The cycles in which nothing issued before the next instruction, by reason: those that the command brings and the bubbles
(reason 1), which the fraction in effect decides (R513). -/
def idleCycles (s : State) (t : Nat) (e : WEnv) : List (Nat × Nat) :=
  (1, bubblesDue s t) :: e.stalls.filter (fun x => x.1 % 16 != 1)

/-- What the instruction with opcode `opc` and fields `f` counts (spec/16 R446, log entry 96): a non-vector issue, or 64 lanes; macro
cycles and page rows; tile-store accesses of 16 bytes. -/
def weftActs (s : State) (t opc : Nat) (f : WFields) : List (Nat × Nat) :=
  if 0x50 ≤ opc ∧ opc < 0x80 then [(if 0x60 ≤ opc ∧ opc < 0x70 ∧ f.imm % 4 = 1 then 3 else 2, 64)]
  else if 0x40 ≤ opc ∧ opc < 0x4B then [(4, 1), (5, 1)]
  else if 0x4B ≤ opc ∧ opc < 0x50 then [(4, 1), (5, 16)]
  else if opc = 0x90 then [(4, 1), (1, 96), (5, 192)]
  else if opc = 0x91 then [(4, 1), (1, 384), (5, 768)]
  else if opc = 0x93 then
    let d := stepDesc (tsRead s t ((((getS s t f.ra : Nat) : Int) + immS f) % 2 ^ 64).toNat 32)
    (4, 1) :: (stepMacros d).flatMap (fun m =>
      stepActs 1 (setPages ((sget (fun _ => none) s.weft.sel (16 * t + m)).getD (0, 0)).2 * (actBits d.afmt / 2)) d.afmt)
  else [(4, 1)]

/-- The activity of the instruction at PC counted, and the issues that bubbles held back. -/
def noteActivity (s : State) (t : Nat) : State :=
  let i := decodeWeft (sget dDWord s.tile.pick (8192 * t + (core s t).pc)).toNat
  let s := countAct s t (weftActs s t i.1 i.2)
  { s with tile := { s.tile with held := sset dNat t (sget dNat s.tile.held t + bubblesDue s t) s.tile.held } }

/-- The cycles of an instruction counted: those in which nothing issued, by reason, and its own (R513, R241), with its activity. -/
def spendCycles (s : State) (t : Nat) (e : WEnv) : State :=
  let idle := idleCycles s t e
  let s := idle.foldl (fun s x => countCycles s t (x.1 % 16) x.2) (noteActivity s t)
  let c := core s t
  let n := 1 + (idle.map (·.2)).sum
  countCycles (setCore s t { c with cycle := (c.cycle + n) % 2 ^ 64, opp := (c.opp + bubblesDue s t + 1) % 64 }) t 16 1

/-- The core of tile `t` issues: it runs a job and is not halted, the tile is a weft tile, and the weft PLL is locked
(R54). -/
def coreIssues (s : State) (t : Nat) : Bool :=
  let c := core s t
  (c.state == coreRunning || c.state == coreStopping) && !c.halted && c.raiseTo.isNone && planeOf s t == 2
    && regBit s rTbStatus 4

/-- The pick store of weft tile `t` holds the instruction at PC (R212, R213): opcode `opc` with fields `f`. An uncorrectable word
and a PC past the pick store hold whatever instruction the trap meets. -/
def fetches (s : State) (t opc : Nat) (f : WFields) (e : WEnv) : Bool :=
  let pc := (core s t).pc
  decide (8191 < pc) || e.pickBad || decodeWeft (sget dDWord s.tile.pick (8192 * t + pc)).toNat == (opc, f)

/-- The retirement of an instruction: PC and RETIRED, then a stop that has been asked for (R216, R265). -/
def retire (s : State) (t : Nat) (pc : Option Nat) : State :=
  let c := core s t
  let s := setCore s t { c with pc := pc.getD (c.pc + 1), retired := (c.retired + 1) % 2 ^ 64, waiting := none }
  if stopDue s t then takeStop s t else s

/-- The reason of R513 for a cycle in which an instruction waits (R218): channel credit or entry, shuttle queue or ticket,
slot ring pair, energy grant; a FENCE or JEND waits for tickets. -/
def stallReason (kind : Nat) : Nat := [9, 10, 12, 13, 11, 14, 13].getD kind 13

/-- The cycle of an instruction that did not issue counted under its reason in place of an issue (R513). A count that has
saturated stays. -/
def waitCycle (s : State) (t k : Nat) : State :=
  let n := sget dCnt s.weft.cycles (32 * t + 16)
  let s := { s with weft := { s.weft with
    cycles := sset dCnt (32 * t + 16) (if n = 2 ^ 32 - 1 then n else n - 1) s.weft.cycles } }
  countCycles s t k 1

/-- The result of an instruction made the core's state. -/
def settle (t : Nat) (r : WRes) : State :=
  match r with
  | .done s pc => retire s t pc
  | .trap s x => takeTrap s t x
  | .wait s w => waitCycle (setCore s t { core s t with waiting := some w }) t (stallReason w.kind)

/-- One instruction of tile `t`, where the pick store holds it at PC (R213, R214, R215, R245, R246): fetch and decode traps first; then, unless the guard of an
instruction that is no lane instruction is false, `op` with the guard. -/
def weftInstr (t : Nat) (f : WFields) (e : WEnv) (h : Shape) (lane : Bool) (s : State) (op : State → Nat → WRes) :
    Host.Outcome State Fault Refusal :=
  onUnit 256 (tileCount s) t s fun s =>
    if !coreIssues s t || allBubbles s || !fetches s t h.opc f e then s
    else
      let s := spendCycles s t e
      if 8191 < (core s t).pc then takeTrap s t { cause := 0x0302, unit := 9 }
      else if e.pickBad then takeTrap s t { cause := 0x0303, unit := 9 }
      else if !legalFields f h then takeTrap s t { cause := 0x0301, unit := 9 }
      else
        let g := guardOf s t f
        if !lane && !bitN g 0 then retire s t none
        else settle t (op s g)

/-- An instruction without a trap of its own. -/
def weftSimple (t : Nat) (f : WFields) (e : WEnv) (h : Shape) (lane : Bool) (s : State) (op : State → Nat → State) :
    Host.Outcome State Fault Refusal :=
  weftInstr t f e h lane s fun s g => .done (op s g) none

/-! ### Tile-store access (R224, R225) -/

/-- EA = s[r] + IMM, computed in 64 bits. -/
def effAddr (s : State) (t r : Nat) (f : WFields) : Nat := wrap64 (getS s t r + immS f)

/-- The trap of an access of `n` bytes at `a` aligned to `al`, if it has one: range, alignment, then an uncorrectable
word of `bad` (none for a write). -/
def accessTrap (unit a n al : Nat) (bad : List Nat) : Option Trap :=
  if 0 < n ∧ tsSize < a + n then some { cause := 0x0304, unit := unit, addr := a }
  else if a % al ≠ 0 then some { cause := 0x0305, unit := unit, addr := a }
  else if hitsBad bad a n then some { cause := 0x0306, unit := unit, addr := a }
  else none

/-- The instruction goes on with `k` unless the access traps. -/
def withAccess (s : State) (unit a n al : Nat) (bad : List Nat) (k : Unit → WRes) : WRes :=
  match accessTrap unit a n al bad with
  | some x => .trap s x
  | none => k ()

/-! ### Floating-point flags (R121, R245, R263) -/

/-- FP flags set: sticky in TILE_ARITH and for the job. -/
def weftFlags (s : State) (t fl : Nat) : State :=
  if fl = 0 then s
  else
    let s := setF s (rTileArith t) 4 0 (regF s (rTileArith t) 4 0 ||| fl)
    setCore s t { core s t with jobFlags := (core s t).jobFlags ||| (fl % 32) * 2 }

/-- An instruction that raises flags `fl` (R245): with an enabled one it traps 0x0307 and writes no destination, else
`write`. The flags are set in both cases. `addr` is its effective address, 0 for an instruction without one (R248). -/
def flagged (s : State) (t unit fl : Nat) (write : State → State) (addr : Nat := 0) : WRes :=
  let s1 := weftFlags s t fl
  if fl &&& (core s t).fpctl % 32 ≠ 0 then .trap s1 { cause := 0x0307, unit := unit, detail := fl, addr := addr }
  else .done (write s1) none

end Sys2Proof.Machine
end

