-- ==== Sys2Proof/Machine/WeftMem.lean ====
section
/-! DEFINITION. Uahomer-D tile-store instructions (spec/08 R224, R225). -/

namespace Sys2Proof.Machine

/-! ### Scalar loads and stores -/

/-- A load of `n` bytes into s[RD]; `conv` extends it. -/
def scalarLoad (opc : Nat) (n : Nat) (conv : Nat → Nat) (t : Nat) (f : WFields) (e : WEnv) (s : State) :
    Host.Outcome State Fault Refusal :=
  weftInstr t f e { opc := opc, rd := 32, ra := 32, imm := immAny } false s fun s _ =>
    let a := effAddr s t f.ra f
    withAccess s 2 a n n e.bad fun _ => .done (setS s t f.rd (conv (ofLe (tsRead s t a n)))) none

/-- A store of the low `n` bytes of s[RB]. -/
def scalarStore (opc : Nat) (n : Nat) (t : Nat) (f : WFields) (e : WEnv) (s : State) : Host.Outcome State Fault Refusal :=
  weftInstr t f e { opc := opc, ra := 32, rb := 32, imm := immAny } false s fun s _ =>
    let a := effAddr s t f.ra f
    withAccess s 2 a n n [] fun _ => .done (tsWrite s t a (leBytes n (getS s t f.rb))) none

/-- LD64. -/
def execLd64 (t : Nat) (f : WFields) (e : WEnv) (s : State) : Host.Outcome State Fault Refusal :=
  scalarLoad 0x40 8 id t f e s
/-- LD32. -/
def execLd32 (t : Nat) (f : WFields) (e : WEnv) (s : State) : Host.Outcome State Fault Refusal :=
  scalarLoad 0x41 4 (fun v => wrap64 (sextI 32 v)) t f e s
/-- LD32U. -/
def execLd32u (t : Nat) (f : WFields) (e : WEnv) (s : State) : Host.Outcome State Fault Refusal :=
  scalarLoad 0x42 4 id t f e s
/-- LD16. -/
def execLd16 (t : Nat) (f : WFields) (e : WEnv) (s : State) : Host.Outcome State Fault Refusal :=
  scalarLoad 0x43 2 (fun v => wrap64 (sextI 16 v)) t f e s
/-- LD16U. -/
def execLd16u (t : Nat) (f : WFields) (e : WEnv) (s : State) : Host.Outcome State Fault Refusal :=
  scalarLoad 0x44 2 id t f e s
/-- LD8. -/
def execLd8 (t : Nat) (f : WFields) (e : WEnv) (s : State) : Host.Outcome State Fault Refusal :=
  scalarLoad 0x45 1 (fun v => wrap64 (sextI 8 v)) t f e s
/-- LD8U. -/
def execLd8u (t : Nat) (f : WFields) (e : WEnv) (s : State) : Host.Outcome State Fault Refusal :=
  scalarLoad 0x46 1 id t f e s
/-- ST64. -/
def execSt64 (t : Nat) (f : WFields) (e : WEnv) (s : State) : Host.Outcome State Fault Refusal :=
  scalarStore 0x47 8 t f e s
/-- ST32. -/
def execSt32 (t : Nat) (f : WFields) (e : WEnv) (s : State) : Host.Outcome State Fault Refusal :=
  scalarStore 0x48 4 t f e s
/-- ST16. -/
def execSt16 (t : Nat) (f : WFields) (e : WEnv) (s : State) : Host.Outcome State Fault Refusal :=
  scalarStore 0x49 2 t f e s
/-- ST8. -/
def execSt8 (t : Nat) (f : WFields) (e : WEnv) (s : State) : Host.Outcome State Fault Refusal :=
  scalarStore 0x4A 1 t f e s

/-! ### Lane accesses -/

/-- The first trap of the accesses of enabled lanes: lane i takes `n i` bytes at `a i`; `base` and `al` are the address
whose alignment counts. Range comes first over all lanes, then alignment, then uncorrectable words (R246). -/
def laneTrap (g : Nat) (unit : Nat) (a n : Nat → Nat) (base : Nat → Nat) (al : Nat) (bad : List Nat) : Option Trap :=
  let on := (List.range 64).filter (bitN g)
  match on.find? (fun i => decide (tsSize < a i + n i)) with
  | some i => some { cause := 0x0304, unit := unit, addr := base i }
  | none => match on.find? (fun i => base i % al != 0) with
    | some i => some { cause := 0x0305, unit := unit, addr := base i }
    | none => match on.find? (fun i => hitsBad bad (a i) (n i)) with
      | some i => some { cause := 0x0306, unit := unit, addr := base i }
      | none => none

/-- The instruction goes on unless an enabled lane traps. -/
def withLanes (s : State) (x : Option Trap) (k : Unit → WRes) : WRes :=
  match x with
  | some x => .trap s x
  | none => k ()

/-- VLD: lane i from EA + 4i. -/
def execVld (t : Nat) (f : WFields) (e : WEnv) (s : State) : Host.Outcome State Fault Refusal :=
  weftInstr t f e { opc := 0x4B, rd := 32, ra := 32, imm := immAny } true s fun s g =>
    let a := effAddr s t f.ra f
    withLanes s (laneTrap g 2 (fun i => a + 4 * i) (fun _ => 4) (fun _ => a) 32 e.bad) fun _ =>
      .done (setV s t f.rd g (unpackElems 32 64 (tsRead s t a 256))) none

/-- VST: v[RB] lane i to EA + 4i. -/
def execVst (t : Nat) (f : WFields) (e : WEnv) (s : State) : Host.Outcome State Fault Refusal :=
  weftInstr t f e { opc := 0x4C, ra := 32, rb := 32, imm := immAny } true s fun s g =>
    let a := effAddr s t f.ra f
    let v := getV s t f.rb
    withLanes s (laneTrap g 2 (fun i => a + 4 * i) (fun _ => 4) (fun _ => a) 32 []) fun _ =>
      .done ((List.range 64).foldl (fun s i =>
        if bitN g i then tsWrite s t (a + 4 * i) (leBytes 4 (v.getD i 0)) else s) s) none

/-- Bits of a packed element by the format codes of VLDP and VSTP: D2, I4, I8, U8, E4M3, E5M2, BF16. -/
def packBits (fmt : Nat) : Nat := [2, 4, 8, 8, 8, 8, 16].getD fmt 16

/-- A packed element widened: sign extension, zero extension for U8, exact conversion to FP32 (R117). -/
def widen (fmt v : Nat) : Nat :=
  match fmt with
  | 0 => encI 32 (sextI 2 v)
  | 1 => encI 32 (sextI 4 v)
  | 2 => encI 32 (sextI 8 v)
  | 3 => v
  | 4 => toF32 e4m3 v
  | 5 => toF32 e5m2 v
  | _ => toF32 bf16 v

/-- The first byte and the number of bytes that hold element `i` of `w` bits from `a`. -/
def elemByte (a w i : Nat) : Nat := a + w * i / 8

/-- VLDP: 64 elements packed under R95, widened. -/
def execVldp (t : Nat) (f : WFields) (e : WEnv) (s : State) : Host.Outcome State Fault Refusal :=
  weftInstr t f e { opc := 0x4D, rd := 32, ra := 32, rc := 7, imm := immAny } true s fun s g =>
    let a := effAddr s t f.ra f
    let w := packBits f.rc
    withLanes s (laneTrap g 2 (elemByte a w) (fun _ => ceilDiv w 8) (fun _ => a) 16 e.bad) fun _ =>
      .done (setV s t f.rd g ((tsElems s t [] a w 64).map (widen f.rc))) none

/-- VSTP: the low bits of each enabled lane of v[RB], packed; the field of a disabled lane stays. -/
def execVstp (t : Nat) (f : WFields) (e : WEnv) (s : State) : Host.Outcome State Fault Refusal :=
  weftInstr t f e { opc := 0x4E, ra := 32, rb := 32, rc := 7, imm := immAny } true s fun s g =>
    let a := effAddr s t f.ra f
    let w := packBits f.rc
    let v := getV s t f.rb
    withLanes s (laneTrap g 2 (elemByte a w) (fun _ => ceilDiv w 8) (fun _ => a) 16 []) fun _ =>
      if g = 0 then .done s none
      else
        let old := tsElems s t [] a w 64
        .done (tsWrite s t a (packElems w ((List.range 64).map (fun i =>
          if bitN g i then v.getD i 0 else old.getD i 0)))) none

/-- VLDX: lane i from EA + 4 × v[RB][i]. -/
def execVldx (t : Nat) (f : WFields) (e : WEnv) (s : State) : Host.Outcome State Fault Refusal :=
  weftInstr t f e { opc := 0x4F, rd := 32, ra := 32, rb := 32, imm := immAny } true s fun s g =>
    let ix := getV s t f.rb
    let a := fun i => (effAddr s t f.ra f + 4 * ix.getD i 0) % 2 ^ 64
    withLanes s (laneTrap g 2 a (fun _ => 4) a 4 e.bad) fun _ =>
      .done (setV s t f.rd g ((List.range 64).map (fun i =>
        if bitN g i then ofLe (tsRead s t (a i) 4) else 0))) none

end Sys2Proof.Machine
end

