-- ==== Sys2Proof/Machine/WeftChan.lean ====
section
/-! DEFINITION. Channels (spec/07 R205) and sync sequences (R206, spec/08 R239). -/

namespace Sys2Proof.Machine

/-! ### Channels (R205) -/

/-- No entry. -/
abbrev dChan : Nat → Chan := fun _ => {}
/-- Channel `c` of program `p`. -/
def chanSt (s : State) (p c : Nat) : Chan := sget dChan s.weft.chans (256 * p + c)
/-- The channel set. -/
def setChanSt (s : State) (p c : Nat) (x : Chan) : State :=
  { s with weft := { s.weft with chans := sset dChan (256 * p + c) x s.weft.chans } }

/-- The declaration of channel `c` of program `p`. -/
def chanDecl (s : State) (p c : Nat) : Option ChanDecl :=
  s.jobs.chans.find? (fun d => d.prog == p && d.chan == c)

/-- Where entry number `n` of a channel lies in its buffer. -/
def entryAddr (d : ChanDecl) (n : Nat) : Nat := d.addr + n % max 1 d.depth * Config.entryBytes d.prog d.chan

/-! ### Sync sequences (R206, R239) -/

/-- The sync sequence of tile `t` in program `p`. -/
def syncSeq (s : State) (p t : Nat) : List SyncEv :=
  match s.jobs.seqs.find? (fun q => q.1 == p && q.2.1 == t) with
  | some q => q.2.2
  | none => []

/-- The trap of a sync event that is not allowed (R239): detail 0 wrong channel, 1 wrong direction, 2 entry held. -/
def syncTrap (detail c exp obs : Nat) : Trap :=
  { cause := 0x0308, unit := 7, detail := detail, addr := c, exp := exp, obs := obs }

/-- An event on channel `c` that is not the next of the sequence (R206). -/
def notNext (s : State) (t c : Nat) (recv : Bool) : Option Trap :=
  let k := core s t
  match (syncSeq s k.prog t)[k.seqPos]? with
  | none => some (syncTrap 0 c 0 c)
  | some e => if e.chan ≠ c then some (syncTrap 0 c e.chan c)
    else if e.recv ≠ recv then some (syncTrap 1 c e.chan c) else none

/-- The sequence after one event (R206): counted entries stand for many, and the sequence is cyclic. -/
def seqAdvance (s : State) (t : Nat) : State :=
  let k := core s t
  let seq := syncSeq s k.prog t
  match seq[k.seqPos]? with
  | none => s
  | some e =>
    if k.seqDone + 1 < max 1 e.count then setCore s t { k with seqDone := k.seqDone + 1 }
    else setCore s t { k with seqDone := 0, seqPos := if k.seqPos + 1 < seq.length then k.seqPos + 1 else 0 }

/-- `n` events of one channel and direction, all next in turn; the first trap among them. -/
def notNextMany (t c : Nat) (recv : Bool) : Nat → State → Option Trap
  | 0, _ => none
  | n + 1, s => match notNext s t c recv with
    | some x => some x
    | none => notNextMany t c recv n (seqAdvance s t)

/-- A sync event while an entry is held and not released (R239). -/
def heldTrap (s : State) (t c : Nat) : Option Trap :=
  match (core s t).held with
  | [] => none
  | h :: _ => some (syncTrap 2 c c h)

/-- The first block of a block-mode step whose pair does not match (R136): the block and what its slots show. -/
def latePair (s : State) (t : Nat) (d : StepDesc) (n : Nat) : Option (Nat × Nat) :=
  match (List.range n).find? (fun i =>
      !pairOk s t (blockSlot d.ring d.ringlen (d.bseq + i)) (scaleSlot d.sring d.ringlen (d.bseq + i)) (d.bseq + i)) with
  | some i => some ((d.bseq + i) % 16,
      slotsObserved s t (blockSlot d.ring d.ringlen (d.bseq + i)) (scaleSlot d.sring d.ringlen (d.bseq + i)))
  | none => none

/-- One entry or block taken by its receiver: the CREDIT goes back to the source (R204, R205). -/
def returnCredit (s : State) (t : Nat) (d : ChanDecl) : State :=
  inject s { dst := d.src, src := t, vc := 1, kind := kCredit, rtag := 0, addr := 0, chan := d.chan, payload := [] }

/-- The TOKEN of an entry (R204). -/
def sendToken (s : State) (t : Nat) (d : ChanDecl) : State :=
  inject s { dst := d.dst, src := t, vc := 0, kind := kToken, rtag := 0, addr := 0, chan := d.chan, payload := [] }

/-- One credit used and one entry counted at the source. -/
def takeCredit (s : State) (d : ChanDecl) : State :=
  let x := chanSt s d.prog d.chan
  setChanSt s d.prog d.chan { x with credits := x.credits - 1, sent := x.sent + 1 }

end Sys2Proof.Machine
end

