-- ==== Sys2Proof/Machine/WeftScalar.lean ====
section
/-! DEFINITION. Uahomer-D system, scalar and branch instructions (spec/08 R220-R223, R241). -/

namespace Sys2Proof.Machine

/-! ### System (R220) -/

/-- NOP (`opc` 0), and a word whose opcode is reserved, which traps at decode (R215). A listed opcode is another
command's and does nothing here. -/
def execNop (t opc : Nat) (f : WFields) (e : WEnv) (s : State) : Host.Outcome State Fault Refusal :=
  if opc ≠ 0 ∧ opcodeListed opc then onUnit 256 (tileCount s) t s fun s => s
  else weftSimple t f e { opc := opc, rd := if opc = 0 then 1 else 0 } false s fun s _ => s

/-- Shuttle tickets of tile `t` that are not complete. -/
def openTickets (s : State) (t : Nat) : List Ticket :=
  s.weft.tickets.filter (fun k => k.tile == t && k.status.isNone)

/-- FENCE: accesses, steps, page writes and packets of older instructions are already done; tickets may not be. -/
def execFence (t : Nat) (f : WFields) (e : WEnv) (s : State) : Host.Outcome State Fault Refusal :=
  weftInstr t f e { opc := 0x01, imm := immLt 16 } false s fun s _ =>
    if bitN f.imm 2 && !(openTickets s t).isEmpty then .wait s ⟨6, 0, 0, 0⟩ else .done s none

/-- TRAP. -/
def execTrap (t : Nat) (f : WFields) (e : WEnv) (s : State) : Host.Outcome State Fault Refusal :=
  weftInstr t f e { opc := 0x02, imm := immLt (2 ^ 16) } false s fun s _ =>
    .trap s { cause := 0x030D, unit := 8, exp := f.imm % 2 ^ 16 }

/-- JEND: FENCE 0xF, then the tile's part of the job has ended with STATUS (R262). -/
def execJend (t : Nat) (f : WFields) (e : WEnv) (s : State) : Host.Outcome State Fault Refusal :=
  weftInstr t f e { opc := 0x03, imm := immLt (2 ^ 16) } false s fun s _ =>
    if !(openTickets s t).isEmpty then .wait s ⟨6, 0, 0, 0⟩
    else .done (setCore s t { core s t with state := coreEnded, jend := some (f.imm % 2 ^ 16) }) none

/-- BRK: halts the core at debug level 2 or above (R500), else a NOP. -/
def execBrk (t : Nat) (f : WFields) (e : WEnv) (s : State) : Host.Outcome State Fault Refusal :=
  weftSimple t f e { opc := 0x04 } false s fun s _ =>
    if 2 ≤ regF s rKpDebug 1 0 then setCore s t { core s t with halted := true } else s

/-- A control register read (R241); none for an index not listed. -/
def readCr (s : State) (t i : Nat) : Option Nat :=
  let c := core s t
  match i with
  | 0x00 => some c.cycle
  | 0x01 => some c.retired
  | 0x02 => some c.jobid
  | 0x03 => some c.stream
  | 0x04 => some t
  | 0x05 => some c.frame
  | 0x08 => some c.fpctl
  | 0x09 => some c.waittmo
  | 0x0A => some c.rngk0
  | 0x0B => some c.rngk1
  | 0x0C => some c.eclass
  | _ => none

/-- A control register written (R241); none for an index not listed or read-only. Reserved bits stay 0. -/
def writeCr (c : Core) (i v : Nat) : Option Core :=
  match i with
  | 0x08 => some { c with fpctl := v % 32 }
  | 0x09 => some { c with waittmo := v % 2 ^ 64 }
  | 0x0A => some { c with rngk0 := v % 2 ^ 32 }
  | 0x0B => some { c with rngk1 := v % 2 ^ 32 }
  | _ => none

/-- MFC. -/
def execMfc (t : Nat) (f : WFields) (e : WEnv) (s : State) : Host.Outcome State Fault Refusal :=
  weftInstr t f e { opc := 0x05, rd := 32, imm := immLt 256 } false s fun s _ =>
    match readCr s t f.imm with
    | some v => .done (setS s t f.rd v) none
    | none => .trap s { cause := 0x030C, unit := 8, addr := f.imm }

/-- MTC. -/
def execMtc (t : Nat) (f : WFields) (e : WEnv) (s : State) : Host.Outcome State Fault Refusal :=
  weftInstr t f e { opc := 0x06, ra := 32, imm := immLt 256 } false s fun s _ =>
    match writeCr (core s t) f.imm (getS s t f.ra) with
    | some c => .done (setCore s t c) none
    | none => .trap s { cause := 0x030C, unit := 8, addr := f.imm }

/-! ### Scalar (R221) -/

/-- A scalar operation on s[RA] and s[RB] into s[RD], modulo 2^64. -/
def scalarOp (opc : Nat) (t : Nat) (f : WFields) (e : WEnv) (s : State) (op : Nat → Nat → Int) :
    Host.Outcome State Fault Refusal :=
  weftSimple t f e { opc := opc, rd := 32, ra := 32, rb := 32 } false s fun s _ =>
    setS s t f.rd (wrap64 (op (getS s t f.ra) (getS s t f.rb)))

/-- A scalar operation on s[RA] and IMM into s[RD], modulo 2^64. -/
def scalarImm (opc : Nat) (t : Nat) (f : WFields) (e : WEnv) (ok : Nat → Bool) (s : State) (op : Nat → Int → Int) :
    Host.Outcome State Fault Refusal :=
  weftSimple t f e { opc := opc, rd := 32, ra := 32, imm := ok } false s fun s _ =>
    setS s t f.rd (wrap64 (op (getS s t f.ra) (immS f)))

/-- The signed value of a scalar. -/
abbrev sg (v : Nat) : Int := sextI 64 v

/-- A condition code on scalars (R221): EQ, NE, LT, LE, LTU, LEU. -/
def condS (cond a b : Nat) : Bool :=
  match cond with
  | 0 => a == b
  | 1 => a != b
  | 2 => decide (sg a < sg b)
  | 3 => decide (sg a ≤ sg b)
  | 4 => decide (a < b)
  | _ => decide (a ≤ b)

/-- A 1-bit result in all 64 bits of a predicate. -/
def allBits (b : Bool) : Nat := if b then ones64 else 0

/-- ADD. -/
def execAdd (t : Nat) (f : WFields) (e : WEnv) (s : State) : Host.Outcome State Fault Refusal :=
  scalarOp 0x10 t f e s fun a b => a + b
/-- SUB. -/
def execSub (t : Nat) (f : WFields) (e : WEnv) (s : State) : Host.Outcome State Fault Refusal :=
  scalarOp 0x11 t f e s fun a b => (a : Int) - b
/-- MUL: the low 64 bits. -/
def execMul (t : Nat) (f : WFields) (e : WEnv) (s : State) : Host.Outcome State Fault Refusal :=
  scalarOp 0x12 t f e s fun a b => a * b
/-- MULH: the high 64 bits of the signed product. -/
def execMulh (t : Nat) (f : WFields) (e : WEnv) (s : State) : Host.Outcome State Fault Refusal :=
  scalarOp 0x13 t f e s fun a b => sg a * sg b / 2 ^ 64
/-- MULHU: the high 64 bits of the unsigned product. -/
def execMulhu (t : Nat) (f : WFields) (e : WEnv) (s : State) : Host.Outcome State Fault Refusal :=
  scalarOp 0x14 t f e s fun a b => (a * b / 2 ^ 64 : Nat)
/-- AND. -/
def execAnd (t : Nat) (f : WFields) (e : WEnv) (s : State) : Host.Outcome State Fault Refusal :=
  scalarOp 0x15 t f e s fun a b => (a &&& b : Nat)
/-- OR. -/
def execOr (t : Nat) (f : WFields) (e : WEnv) (s : State) : Host.Outcome State Fault Refusal :=
  scalarOp 0x16 t f e s fun a b => (a ||| b : Nat)
/-- XOR. -/
def execXor (t : Nat) (f : WFields) (e : WEnv) (s : State) : Host.Outcome State Fault Refusal :=
  scalarOp 0x17 t f e s fun a b => (a ^^^ b : Nat)
/-- SHL. -/
def execShl (t : Nat) (f : WFields) (e : WEnv) (s : State) : Host.Outcome State Fault Refusal :=
  scalarOp 0x18 t f e s fun a b => (a * 2 ^ (b % 64) : Nat)
/-- SHR. -/
def execShr (t : Nat) (f : WFields) (e : WEnv) (s : State) : Host.Outcome State Fault Refusal :=
  scalarOp 0x19 t f e s fun a b => (a / 2 ^ (b % 64) : Nat)
/-- SRA. -/
def execSra (t : Nat) (f : WFields) (e : WEnv) (s : State) : Host.Outcome State Fault Refusal :=
  scalarOp 0x1A t f e s fun a b => sg a / 2 ^ (b % 64)
/-- MIN. -/
def execMin (t : Nat) (f : WFields) (e : WEnv) (s : State) : Host.Outcome State Fault Refusal :=
  scalarOp 0x1B t f e s fun a b => min (sg a) (sg b)
/-- MAX. -/
def execMax (t : Nat) (f : WFields) (e : WEnv) (s : State) : Host.Outcome State Fault Refusal :=
  scalarOp 0x1C t f e s fun a b => max (sg a) (sg b)
/-- MINU. -/
def execMinu (t : Nat) (f : WFields) (e : WEnv) (s : State) : Host.Outcome State Fault Refusal :=
  scalarOp 0x1D t f e s fun a b => (min a b : Nat)
/-- MAXU. -/
def execMaxu (t : Nat) (f : WFields) (e : WEnv) (s : State) : Host.Outcome State Fault Refusal :=
  scalarOp 0x1E t f e s fun a b => (max a b : Nat)
/-- CMP. -/
def execCmp (t : Nat) (f : WFields) (e : WEnv) (s : State) : Host.Outcome State Fault Refusal :=
  weftSimple t f e { opc := 0x1F, rd := 8, ra := 32, rb := 32, rc := 6 } false s fun s _ =>
    setP s t f.rd (allBits (condS f.rc (getS s t f.ra) (getS s t f.rb)))
/-- ADDI. -/
def execAddi (t : Nat) (f : WFields) (e : WEnv) (s : State) : Host.Outcome State Fault Refusal :=
  scalarImm 0x20 t f e immAny s fun a i => a + i
/-- LI. -/
def execLi (t : Nat) (f : WFields) (e : WEnv) (s : State) : Host.Outcome State Fault Refusal :=
  weftSimple t f e { opc := 0x21, rd := 32, imm := immAny } false s fun s _ => setS s t f.rd (wrap64 (immS f))
/-- LIH: bits 63-32. -/
def execLih (t : Nat) (f : WFields) (e : WEnv) (s : State) : Host.Outcome State Fault Refusal :=
  weftSimple t f e { opc := 0x22, rd := 32, imm := immAny } false s fun s _ =>
    setS s t f.rd (getS s t f.rd % 2 ^ 32 + f.imm * 2 ^ 32)
/-- ANDI. -/
def execAndi (t : Nat) (f : WFields) (e : WEnv) (s : State) : Host.Outcome State Fault Refusal :=
  scalarImm 0x23 t f e immAny s fun a i => (a &&& wrap64 i : Nat)
/-- ORI. -/
def execOri (t : Nat) (f : WFields) (e : WEnv) (s : State) : Host.Outcome State Fault Refusal :=
  scalarImm 0x24 t f e immAny s fun a i => (a ||| wrap64 i : Nat)
/-- XORI. -/
def execXori (t : Nat) (f : WFields) (e : WEnv) (s : State) : Host.Outcome State Fault Refusal :=
  scalarImm 0x25 t f e immAny s fun a i => (a ^^^ wrap64 i : Nat)
/-- SHLI. -/
def execShli (t : Nat) (f : WFields) (e : WEnv) (s : State) : Host.Outcome State Fault Refusal :=
  scalarImm 0x26 t f e (immLt 64) s fun a _ => (a * 2 ^ (f.imm % 64) : Nat)
/-- SHRI. -/
def execShri (t : Nat) (f : WFields) (e : WEnv) (s : State) : Host.Outcome State Fault Refusal :=
  scalarImm 0x27 t f e (immLt 64) s fun a _ => (a / 2 ^ (f.imm % 64) : Nat)
/-- SRAI. -/
def execSrai (t : Nat) (f : WFields) (e : WEnv) (s : State) : Host.Outcome State Fault Refusal :=
  scalarImm 0x28 t f e (immLt 64) s fun a _ => sg a / 2 ^ (f.imm % 64)
/-- CMPI. -/
def execCmpi (t : Nat) (f : WFields) (e : WEnv) (s : State) : Host.Outcome State Fault Refusal :=
  weftSimple t f e { opc := 0x29, rd := 8, ra := 32, rc := 6, imm := immAny } false s fun s _ =>
    setP s t f.rd (allBits (condS f.rc (getS s t f.ra) (wrap64 (immS f))))
/-- The operation of PLOG: AND, OR, XOR, AND NOT. -/
def plogOp (op a b : Nat) : Nat :=
  match op with
  | 0 => a &&& b
  | 1 => a ||| b
  | 2 => a ^^^ b
  | _ => a &&& (ones64 - b)

/-- PLOG. -/
def execPlog (t : Nat) (f : WFields) (e : WEnv) (s : State) : Host.Outcome State Fault Refusal :=
  weftSimple t f e { opc := 0x2A, rd := 8, ra := 8, rb := 8, imm := immLt 4 } false s fun s _ =>
    setP s t f.rd (plogOp (f.imm % 4) (getP s t f.ra) (getP s t f.rb))
/-- PMOV. -/
def execPmov (t : Nat) (f : WFields) (e : WEnv) (s : State) : Host.Outcome State Fault Refusal :=
  weftSimple t f e { opc := 0x2B, rd := 8, ra := 32 } false s fun s _ => setP s t f.rd (getS s t f.ra)
/-- PRD. -/
def execPrd (t : Nat) (f : WFields) (e : WEnv) (s : State) : Host.Outcome State Fault Refusal :=
  weftSimple t f e { opc := 0x2C, rd := 32, ra := 8 } false s fun s _ => setS s t f.rd (getP s t f.ra)

/-! ### Branches (R222, R223) -/

/-- A taken branch to `target`, with `s` the state it leaves; outside the pick store it traps at the branch. -/
def branchTo (s0 s : State) (target : Nat) : WRes :=
  if 8191 < target then .trap s0 { cause := 0x0302, unit := 1 } else .done s (some target)

/-- PC + IMM. -/
def branchTarget (s : State) (t : Nat) (f : WFields) : Nat := wrap64 ((core s t).pc + immS f)

/-- BR. -/
def execBr (t : Nat) (f : WFields) (e : WEnv) (s : State) : Host.Outcome State Fault Refusal :=
  weftInstr t f e { opc := 0x30, imm := immAny } false s fun s _ => branchTo s s (branchTarget s t f)
/-- BANY. -/
def execBany (t : Nat) (f : WFields) (e : WEnv) (s : State) : Host.Outcome State Fault Refusal :=
  weftInstr t f e { opc := 0x31, ra := 8, imm := immAny } false s fun s _ =>
    if getP s t f.ra = 0 then .done s none else branchTo s s (branchTarget s t f)
/-- BALL. -/
def execBall (t : Nat) (f : WFields) (e : WEnv) (s : State) : Host.Outcome State Fault Refusal :=
  weftInstr t f e { opc := 0x32, ra := 8, imm := immAny } false s fun s _ =>
    if getP s t f.ra = ones64 then branchTo s s (branchTarget s t f) else .done s none
/-- JAL. -/
def execJal (t : Nat) (f : WFields) (e : WEnv) (s : State) : Host.Outcome State Fault Refusal :=
  weftInstr t f e { opc := 0x33, rd := 32, imm := immAny } false s fun s _ =>
    branchTo s (setS s t f.rd ((core s t).pc + 1)) (branchTarget s t f)
/-- JR. -/
def execJr (t : Nat) (f : WFields) (e : WEnv) (s : State) : Host.Outcome State Fault Refusal :=
  weftInstr t f e { opc := 0x34, ra := 32, imm := immAny } false s fun s _ => branchTo s s (effAddr s t f.ra f)

end Sys2Proof.Machine
end

