-- ==== Sys2Proof/Machine/WeftSync.lean ====
section
/-! DEFINITION. Uahomer-D shuttle requests (spec/08 R237), sync instructions (R238, R239), ENERGY (R240), and the ends of
bounded waits (R218, R136). -/

namespace Sys2Proof.Machine

/-! ### Shuttle descriptors (spec/09 R268-R270) -/

/-- A shuttle descriptor. -/
structure ShDesc where
  op : Nat
  count : Nat
  len : Nat
  src : Nat
  dst : Nat
  idx : Nat
  stride : Nat
deriving DecidableEq, Repr

/-- A shuttle descriptor from its 32 bytes. -/
def shDesc (b : List Byte) : ShDesc :=
  ⟨leAt b 0 1 % 8, leAt b 2 2, leAt b 4 4, leAt b 8 8, leAt b 16 8, leAt b 24 4, leAt b 28 4⟩

/-- SPACE of a shuttle address (R268): 0 tile store, 1 DDR4, 2 host, 3 peer. -/
def shSpace (a : Nat) : Nat := a / 2 ^ 60

/-- The address bits that SPACE leaves reserved are 0 (R268). -/
def shAddrOk (a : Nat) : Bool :=
  match shSpace a with
  | 0 => decide (a < 2 ^ 19)
  | 1 => decide (a % 2 ^ 60 < 2 ^ 41)
  | 2 => true
  | 3 => a / 2 ^ 56 % 16 == 0 && a / 2 ^ 41 % 8 == 0
  | _ => false

/-- Index `k` of a GATHER or SCATTER, from the tile store of tile `t`. -/
def shIndex (s : State) (t : Nat) (d : ShDesc) (k : Nat) : Nat := ofLe (tsRead s t (d.idx + 4 * k) 4)

/-- The elements of a descriptor as (source, destination), each LEN bytes (R269). -/
def shElems (s : State) (t : Nat) (d : ShDesc) : List (Nat × Nat) :=
  match d.op with
  | 0 => [(d.src, d.dst)]
  | 1 => (List.range d.count).map (fun k => (d.src + shIndex s t d k * d.stride, d.dst + k * d.len))
  | _ => (List.range d.count).map (fun k => (d.src + k * d.len, d.dst + shIndex s t d k * d.stride))

/-- The 64-byte units of a descriptor as (source, destination). -/
def shUnits (s : State) (t : Nat) (d : ShDesc) : List (Nat × Nat) :=
  ((shElems s t d).map (fun e => (List.range (d.len / 64)).map (fun i => (e.1 + 64 * i, e.2 + 64 * i)))).flatten

/-- The descriptor keeps R269. -/
def shDescOk (s : State) (t : Nat) (b : List Byte) : Bool :=
  let d := shDesc b
  let many := d.op == 1 || d.op == 2
  leAt b 0 1 / 8 == 0 && leAt b 1 1 == 0 && decide (d.op ≤ 2)
    && (if many then decide (1 ≤ d.count) && decide (d.count ≤ 64) && decide (d.len ≤ 65536) && d.idx % 4 == 0
          && decide (d.idx + 4 * d.count ≤ tsSize)
        else d.count == 0 && decide (d.len ≤ 2 ^ 24))
    && decide (64 ≤ d.len) && d.len % 64 == 0 && d.stride % 64 == 0 && d.src % 64 == 0 && d.dst % 64 == 0
    && (shElems s t d).all (fun e =>
        shAddrOk e.1 && shAddrOk e.2 && shSpace e.1 == shSpace d.src && shSpace e.2 == shSpace d.dst
          && (shSpace e.1 != 0 || decide (e.1 + d.len ≤ tsSize))
          && (shSpace e.2 != 0 || decide (e.2 + d.len ≤ tsSize)))

/-- A region of kind `k` grants weft the access (R340): capture and record regions reading, weft data and HDM both. -/
def kindGrants (k : Nat) (write : Bool) : Bool := ((k == 1 || k == 2) && !write) || k == 3 || k == 4

/-- Weft access to the DDR4 bytes [a, a + n): every byte lies in a region that grants it (R270, R343). -/
def weftMay (s : State) (a n : Nat) (write : Bool) : Bool := everyBlock s a n (fun k => kindGrants k write)

/-- The pair of spaces is permitted (R270). -/
def shSpaces (d : ShDesc) : Bool :=
  let a := shSpace d.src
  let b := shSpace d.dst
  ((a == 0 && b != 0) || (b == 0 && a != 0) || (a == 1 && b != 0) || (b == 1 && a != 0))
    && (d.op != 2 || b != 0) && (d.op != 1 || a != 0)

/-- Every DDR4 byte lies in a region that grants the access (R270, R340). -/
def shRegions (s : State) (t : Nat) (d : ShDesc) : Bool :=
  (shElems s t d).all (fun e =>
    (shSpace d.src != 1 || weftMay s (e.1 % 2 ^ 60) d.len false)
      && (shSpace d.dst != 1 || weftMay s (e.2 % 2 ^ 60) d.len true))

/-! ### Tickets (R237) -/

/-- Ticket `n` of tile `t`. -/
def ticket (s : State) (t n : Nat) : Option Ticket := s.weft.tickets.find? (fun k => k.tile == t && k.num == n)

/-- Ticket `n` of tile `t` changed. -/
def mapTicket (s : State) (t n : Nat) (f : Ticket → Ticket) : State :=
  { s with weft := { s.weft with
      tickets := s.weft.tickets.map (fun k => if k.tile = t ∧ k.num = n then f k else k) } }

/-- A ticket created for a descriptor; a malformed or refused one completes at once with nothing transferred (R270). `aligned`
says that it lies at a multiple of 32 bytes (R269). Before READY an access to DDR4 is refused with 0x060B (spec/12 R334). -/
def newTicket (s : State) (t : Nat) (aligned : Bool) (b : List Byte) : State :=
  let n := (core s t).nextTicket
  let add := fun (s : State) (st : Option Nat) =>
    setCore { s with weft := { s.weft with
      tickets := s.weft.tickets ++ [{ tile := t, num := n, job := (core s t).job, desc := b, status := st }] } } t
      { core s t with nextTicket := n + 1 }
  if !aligned || !shDescOk s t b then add (raise s 0x0342 t 0) (some 0x0342)
  else if !shSpaces (shDesc b) then add (raise s 0x0343 t 0) (some 0x0343)
  else if (shSpace (shDesc b).src == 1 || shSpace (shDesc b).dst == 1) && !regBit s rBbMemStatus 31 then
    add (raise s 0x060B t 0) (some 0x0343)
  else if !shRegions s t (shDesc b) then add (raise (refuseAccess s) 0x0343 t 0) (some 0x0343)
  else
    inject (add s none) { dst := engineNode t, src := t, vc := 0, kind := kShReq, rtag := n % 2 ^ 16, addr := n % 2 ^ 32,
                          chan := 0, payload := b }

/-- SHQ. -/
def execShq (t : Nat) (f : WFields) (e : WEnv) (s : State) : Host.Outcome State Fault Refusal :=
  weftInstr t f e { opc := 0xA0, rd := 32, ra := 32, imm := immAny } false s fun s _ =>
    let a := effAddr s t f.ra f
    withAccess s 6 a 32 1 [] fun _ =>
      if 16 ≤ (openTickets s t).length then .wait s ⟨2, (core s t).nextTicket, 0, 0⟩
      else if hitsBad e.bad a 32 then .trap s { cause := 0x0306, unit := 6, addr := a }
      else .done (setS (newTicket s t (a % 32 == 0) (tsRead s t a 32)) t f.rd (core s t).nextTicket) none

/-- SHW: waits for ticket s[RA]; a ticket never issued reports 0x030A. -/
def execShw (t : Nat) (f : WFields) (e : WEnv) (s : State) : Host.Outcome State Fault Refusal :=
  weftInstr t f e { opc := 0xA1, rd := 32, ra := 32, imm := immLt 2 } false s fun s _ =>
    let n := getS s t f.ra
    let end_ := fun (st : Nat) =>
      if st ≠ 0 ∧ f.imm % 2 = 0 then WRes.trap s { cause := 0x030A, unit := 6, addr := n % 2 ^ 32, obs := st }
      else .done (setS s t f.rd st) none
    match ticket s t n with
    | none => end_ 0x030A
    | some k => match k.status with
      | some st => end_ st
      | none => .wait s ⟨3, n % 2 ^ 32, 0, 0⟩

/-- SHT: never waits; a ticket never issued has a status (0x030A) and counts as completed (log entry 23). -/
def execSht (t : Nat) (f : WFields) (e : WEnv) (s : State) : Host.Outcome State Fault Refusal :=
  weftSimple t f e { opc := 0xA2, rd := 8, ra := 32 } false s fun s _ =>
    setP s t f.rd (match ticket s t (getS s t f.ra) with
      | none => ones64
      | some k => if k.status.isSome then ones64 else 0)

/-! ### Sync (R238, R239) -/

/-- A send or receive on channel IMM[7:0] that is in order and not a slot ring's. -/
def withEvent (s : State) (t c : Nat) (recv : Bool) (k : ChanDecl → WRes) : WRes :=
  match heldTrap s t c, notNext s t c recv, chanDecl s (core s t).prog c with
  | some x, _, _ => .trap s x
  | none, some x, _ => .trap s x
  | none, none, some d => if d.ring then .trap s (syncTrap 0 c c c) else k d
  | none, none, none => .trap s (syncTrap 0 c c c)

/-- CHSEND: the entry at EA goes out as WRITE packets and one TOKEN. -/
def execChsend (t : Nat) (f : WFields) (e : WEnv) (s : State) : Host.Outcome State Fault Refusal :=
  weftInstr t f e { opc := 0xB0, ra := 32, imm := immLt 256 } false s fun s _ =>
    let a := getS s t f.ra
    let c := f.imm % 256
    let n := Config.entryBytes (core s t).prog c
    withAccess s 7 a n 1 [] fun _ => withEvent s t c false fun d =>
      let x := chanSt s d.prog d.chan
      if x.credits = 0 then .wait s ⟨0, c, 0, 0⟩
      else if hitsBad e.bad a n then .trap s { cause := 0x0306, unit := 7, addr := a }
      else
        let s := injectWrites s t d.dst (entryAddr d (d.init + x.sent)) (tsRead s t a n) none
        .done (seqAdvance (sendToken (takeCredit s d) t d) t) none

/-- CHRECV: s[RD] takes the buffer address of the oldest entry. -/
def execChrecv (t : Nat) (f : WFields) (e : WEnv) (s : State) : Host.Outcome State Fault Refusal :=
  weftInstr t f e { opc := 0xB1, rd := 32, imm := immLt 256 } false s fun s _ =>
    let c := f.imm % 256
    withEvent s t c true fun d =>
      let x := chanSt s d.prog d.chan
      if x.waiting = 0 then .wait s ⟨1, c, 0, 0⟩
      else
        let s := setChanSt s d.prog d.chan { x with waiting := x.waiting - 1, recvd := x.recvd + 1 }
        let s := seqAdvance (setS s t f.rd (entryAddr d x.recvd)) t
        .done (setCore s t { core s t with held := [c] }) none

/-- CHREL: the CREDIT of the held entry. While another channel's entry is held it traps (R239); with none held it
returns nothing (log entry 24). -/
def execChrel (t : Nat) (f : WFields) (e : WEnv) (s : State) : Host.Outcome State Fault Refusal :=
  weftInstr t f e { opc := 0xB2, imm := immLt 256 } false s fun s _ =>
    let c := f.imm % 256
    if (core s t).held.contains c then
      let s1 := match chanDecl s (core s t).prog c with
        | some d => returnCredit s t d
        | none => s
      .done (setCore s1 t { core s1 t with held := (core s1 t).held.erase c }) none
    else match heldTrap s t c with
      | some x => .trap s x
      | none => .done s none

/-- CHPOLL. -/
def execChpoll (t : Nat) (f : WFields) (e : WEnv) (s : State) : Host.Outcome State Fault Refusal :=
  weftInstr t f e { opc := 0xB3, rd := 8, imm := immLt 256 } false s fun s _ =>
    let c := f.imm % 256
    match heldTrap s t c with
    | some x => .trap s x
    | none => .done (setP s t f.rd (allBits (decide (0 < (chanSt s (core s t).prog c).waiting)))) none

/-! ### ENERGY (R240, spec/09 R257, R260) -/

/-- W_c in mW (R257). -/
def classMw (s : State) (c : Nat) : Nat := regF s (rWfEclass (c % 16)) 15 0

/-- WF_GRANTED. -/
def granted (s : State) : Nat := regF s rWfGranted 23 0

/-- The grant of tile `t` changed from class `a` to class `b`, with WF_GRANTED (R260). -/
def regrant (s : State) (t a b : Nat) : State :=
  let s := setF s rWfGranted 23 0 (granted s + classMw s b - classMw s a)
  { s with sched := { s.sched with running := s.sched.running.map (fun r =>
      if r.num = (core s t).job then
        { r with grant := r.grant.map (fun g => if g.1 = t then (t, g.2 + classMw s b - classMw s a) else g) }
      else r) } }

/-- ENERGY: lowering the class takes effect at once; raising it waits for ENERGY_GRANT. -/
def execEnergy (t : Nat) (f : WFields) (e : WEnv) (s : State) : Host.Outcome State Fault Refusal :=
  weftInstr t f e { opc := 0xC0, imm := immLt 16 } false s fun s _ =>
    let c := core s t
    if c.eclassMax < f.imm then .trap s { cause := 0x030B, unit := 8 }
    else if c.eclass < f.imm then .wait (setCore s t { c with raiseTo := some f.imm }) ⟨5, 0, 0, 0⟩
    else
      let s := regrant s t c.eclass f.imm
      .done (setCore s t { core s t with eclass := f.imm }) none

/-! ### Waits that end (R218, R136) -/

/-- What the core of tile `t` waits for has come (R218): credit, entry, place in the shuttle queue, completion of the ticket. -/
def waitMet (s : State) (t : Nat) (w : WaitOn) : Bool :=
  match w.kind with
  | 0 => decide (0 < (chanSt s (core s t).prog w.addr).credits)
  | 1 => decide (0 < (chanSt s (core s t).prog w.addr).waiting)
  | 2 => decide ((openTickets s t).length < 16)
  | 3 => match ticket s t w.addr with
    | some k => k.status.isSome
    | none => false
  | _ => false

/-- WAIT_TIMEOUT: the wait for a credit, an entry, a queue entry or a ticket reaches WAITTMO; 0 is no bound (R241). A wait that is
over does not time out: the instruction goes on with its next command. -/
def execWaitTimeout (t : Nat) (s : State) : Host.Outcome State Fault Refusal :=
  onUnit 256 (tileCount s) t s fun s =>
    match (core s t).waiting with
    | some w =>
      if w.kind ≤ 3 ∧ (core s t).waittmo ≠ 0 ∧ coreIssues s t ∧ !waitMet s t w then
        takeTrap s t { cause := 0x0309, unit := if w.kind ≤ 1 then 7 else 6, detail := w.kind, addr := w.addr }
      else s
    | none => s

/-- What the slots of tile `t` show at the bound of a wait for the pair of the block with tag `exp`, under the step descriptor at
`a`: none when that pair has come (R133, R136). -/
def pairAtBound (s : State) (t a exp : Nat) : Option Nat :=
  let d := stepDesc (tsRead s t a 32)
  match latePair s t d (3 * (stepMacros d).length) with
  | some w => if w.1 = exp then some w.2 else none
  | none => none

/-- SCALE_TAG_TIMEOUT (R136): the wait of a step for a block's pair reaches TILE_SCALE_TMO. A pair that has come completes the
wait; else the record carries what the slots show at the bound. -/
def execScaleTagTimeout (t : Nat) (s : State) : Host.Outcome State Fault Refusal :=
  onUnit 256 (tileCount s) t s fun s =>
    match (core s t).waiting with
    | some w =>
      if w.kind = 4 ∧ coreIssues s t then
        match pairAtBound s t w.addr w.exp with
        | some obs => takeTrap s t { cause := 0x0328, unit := 10, addr := w.addr, exp := w.exp, obs := obs }
        | none => s
      else s
    | none => s

end Sys2Proof.Machine
end

