-- ==== Sys2Proof/Machine/Shuttle.lean ====
section
/-! DEFINITION. Shuttle engines (spec/09 R271-R273): the units of a ticket, one 64-byte unit a request, and the commands
SHUTTLE_REQ, SHUTTLE_RESP and SHUTTLE_TICKET_COMPLETE. -/

namespace Sys2Proof.Machine

/-- What reading the source of a unit gives: bytes and whether they are poisoned; a failing status; or a request on its
way to a peer. -/
inductive UnitRead where
  | data (bs : List Byte) (poison : Bool)
  | fail (cause : Nat)
  | peer

/-- A unit is finished with status `c`: its response goes to the tile (R197). -/
def unitDone (s : State) (t n u c : Nat) : State :=
  inject (mapTicket s t n (fun k => { k with units := k.units ++ [(u, c)] }))
    { dst := t, src := engineNode t, vc := 1, kind := kShResp, rtag := n % 2 ^ 16, addr := u, chan := 0, payload := [] }

/-- A unit that goes to a peer: MEM_RD or MEM_WR on the port to it (R395); 0x0346 without one. -/
def peerUnit (s : State) (t n u : Nat) (addr : Nat) (dst : Nat) (data : Option (List Byte)) : State :=
  match portTo s (fld addr 55 44) with
  | none => unitDone s t n u 0x0346
  | some p =>
    let r := s.kw.rtag
    let rest := leBytes 6 (addr % 2 ^ 41) ++ leBytes 2 r
    let s := { s with kw := { s.kw with
      rtag := (r + 1) % 2 ^ 16, waits := s.kw.waits ++ [⟨p, r, t, n, u, dst, data.isNone⟩] } }
    match data with
    | none => portSend s p 2 (msgHead 0x21 0 16 (devId s) (partner s p) rest)
    | some bs => portSend s p 2 (msgHead 0x20 0 80 (devId s) (partner s p) rest ++ padTo 64 bs)

/-- The source of a unit read (R268, R273, R425, R429). -/
def readUnit (s : State) (t a : Nat) (x : UnitEnv) : State × UnitRead :=
  match shSpace a with
  | 0 => (s, .data (tsRead s t a 64) false)
  | 1 =>
    let d := a % 2 ^ 60
    match resolveBias s d x with
    | none => (s, .fail 0x0345)
    | some s =>
      let r := readLine s (d / 64) x.errs
      (r.1, .data r.2.bytes r.2.bad)
  | 2 =>
    let r := hostRead s (a % 2 ^ 60) 64 x
    match r.2 with
    | .inl c => (r.1, .fail c)
    | .inr (bs, p) => (r.1, .data bs p)
  | _ => (s, .peer)

/-- The destination of a unit written, and the unit finished (R271, R273): poison becomes zeros in tile store and a
poisoned line in DDR4 or at the host, with status 0x0344; a poisoned unit is not sent to a peer. -/
def writeUnit (s : State) (t n u a : Nat) (bs : List Byte) (poison : Bool) (x : UnitEnv) : State :=
  let st := if poison then 0x0344 else 0
  match shSpace a with
  | 0 => unitDone (tsWrite s t a (if poison then zeros 64 else bs)) t n u st
  | 1 =>
    let d := a % 2 ^ 60
    match resolveBias s d x with
    | none => unitDone s t n u 0x0345
    | some s => unitDone (setBad (memPut s d bs) (d / 64) poison) t n u st
  | 2 =>
    let r := hostWrite s (a % 2 ^ 60) bs poison x
    unitDone r.1 t n u (if r.2 then st else 0x0345)
  | _ => if poison then unitDone s t n u 0x0344 else peerUnit s t n u a 0 (some bs)

/-- The unit of a ticket is still to be requested. -/
def unitOpen (s : State) (k : Ticket) (u : Nat) : Bool :=
  k.status.isNone && !(k.units.any (fun e => e.1 == u))
    && !(s.kw.waits.any (fun w => w.tile == k.tile && w.num == k.num && w.unit == u))

/-! ### The order of service (R272) -/

/-- The server of a unit: DDR4 channel 0-15, CXL 16, Kwengo 17; that of its source unless the source is tile store (DESIGN CHOICE, log
entry 91). -/
def unitServer (s : State) (src dst : Nat) : Option Nat :=
  let a := if shSpace src = 0 then dst else src
  match shSpace a with
  | 1 => (dpaChannel s (a % 2 ^ 60)).map Prod.fst
  | 2 => some 16
  | 3 => some 17
  | _ => none

/-- The flow of a job's requests and its weight: the stream with WF_Q_CFG.WEIGHT, 0 taken as 1; of a batch, 16 + its first stream
with the sum of the members' weights. -/
def flowOf (s : State) (job : Nat) : Nat × Nat :=
  let weight := fun n => max 1 (regF s (rWfQCfg n) 27 24)
  match s.sched.running.find? (fun r => r.num == job) with
  | some r => match r.members.map (·.stream) with
    | [] => (0, 1)
    | [n] => (n, weight n)
    | n :: ns => (16 + n, ((n :: ns).map weight).sum)
  | none => (0, 1)

/-- The flows that have requests waiting at server `v`. -/
def waitingFlows (s : State) (v : Nat) : List Nat :=
  (s.weft.tickets.filter (fun k => k.started && k.status.isNone &&
    (let us := shUnits s k.tile (shDesc k.desc)
     (List.range us.length).any (fun u =>
       unitOpen s k u && unitServer s (us.getD u (0, 0)).1 (us.getD u (0, 0)).2 == some v)))).map (fun k => (flowOf s k.job).1)

/-- The turn of server `v`: its flow and the requests served in it. -/
def turnOf (s : State) (v : Nat) : Nat × Nat := sget (fun _ => (0, 0)) s.weft.turns v

/-- The first flow after `f` in cyclic order among `fs`. -/
def nextFlow (f : Nat) (fs : List Nat) : Nat :=
  match (List.range 33).find? (fun i => fs.contains ((f + 1 + i) % 33)) with
  | some i => (f + 1 + i) % 33
  | none => f

/-- The weight of flow `f`. -/
def flowWeight (s : State) (f : Nat) : Nat :=
  match s.sched.running.find? (fun r => (flowOf s r.num).1 == f) with
  | some r => (flowOf s r.num).2
  | none => 1

/-- Capture bytes wait at DDR4 channel `v` (R26): they are served first. -/
def captureWaits (s : State) (v : Nat) : Bool :=
  (List.range 16).any (fun n => match (capSt s n).unwritten with
    | u :: _ => (dpaChannel s ((bobbinRegion s n).base + u.offset)).map Prod.fst == some v
    | [] => false)

/-- The turn of server `v` after a request of flow `f`, if it may be served now (R272). -/
def serveTurn (s : State) (v f : Nat) : Option (Nat × Nat) :=
  let t := turnOf s v
  let fs := waitingFlows s v
  if captureWaits s v then none
  else if fs.contains t.1 && decide (t.2 < flowWeight s t.1) then (if t.1 = f then some (f, t.2 + 1) else none)
  else if nextFlow t.1 fs = f then some (f, 1) else none

/-- Server turn set. -/
def setTurn (s : State) (v : Nat) (t : Nat × Nat) : State :=
  { s with weft := { s.weft with turns := sset (fun _ => (0, 0)) v t s.weft.turns } }

/-! ### Commands -/

/-- The ticket's request is accepted by its engine, which has room for a response (R202): the packet leaves Reed. A poisoned request
ends its ticket as a Reed error completion (R273; DESIGN CHOICE, log entry 90). -/
def startTicket (s : State) (t n ecc : Nat) : State :=
  match arriving s t (engineNode t) 0 kShReq with
  | some p =>
    if p.addr ≠ n ∨ queuedAt s (engineNode t) kShResp ≠ 0 then s
    else
      let r := takePacket s p ecc
      mapTicket r.1 t n (fun k => if r.2.poison then { k with started := true, status := some 0x0404 }
        else { k with started := true })
  | none => s

/-- Unit `u` of a ticket performed: read from its source and written to its destination. -/
def performUnit (s : State) (t n u src dst : Nat) (x : UnitEnv) : State :=
  let r := readUnit s t src x
  match r.2 with
  | .data bs p => writeUnit r.1 t n u dst bs p x
  | .fail c => unitDone r.1 t n u c
  | .peer => peerUnit r.1 t n u src dst none

/-- SHUTTLE_REQ (R197, R271, R272): the request of ticket `n` of tile `t` has reached its engine, which performs unit `u` when it is
the turn of the job's flow. -/
def execShuttleReq (t n u : Nat) (x : UnitEnv) (s : State) : Host.Outcome State Fault Refusal :=
  onUnit 256 (tileCount s) t s fun s =>
    let s := startTicket s t n x.flit
    match ticket s t n with
    | none => s
    | some k =>
      match (shUnits s t (shDesc k.desc))[u]? with
      | none => s
      | some (src, dst) =>
        if !k.started || !unitOpen s k u || !operating s then s
        else match unitServer s src dst with
          | none => performUnit s t n u src dst x
          | some v => match serveTurn s v (flowOf s k.job).1 with
            | some q => performUnit (setTurn s v q) t n u src dst x
            | none => s

/-- SHUTTLE_RESP (R197, R204): the oldest response of its engine to tile `t` is that of unit `u` of ticket `n`. -/
def execShuttleResp (t : Arrival) (n u : Nat) (s : State) : Host.Outcome State Fault Refusal :=
  onUnit 256 (tileCount s) t.node s fun s =>
    match arriving s (engineNode t.node) t.node 1 kShResp with
    | some p =>
      if p.rtag = n % 2 ^ 16 ∧ p.addr = u then
        mapTicket (takePacket s p t.ecc).1 t.node n (fun k => { k with acked := k.acked ++ [u] })
      else s
    | none => s

/-- The status of a ticket whose units are all done: the error of the failed unit of lowest destination (R273). -/
def ticketStatus (us : List (Nat × Nat)) (done : List (Nat × Nat)) : Nat :=
  let bad := (done.filter (fun e => e.2 != 0)).map (fun e => ((us.getD e.1 (0, 0)).2, e.2))
  match bad with
  | [] => 0
  | b :: bs => (bs.foldl (fun m e => if e.1 < m.1 then e else m) b).2

/-- A ticket completed: an error raises its cause (R280). -/
def completeTicket (s : State) (t n st : Nat) : State :=
  mapTicket (if st = 0 then s else raise s st t 0) t n (fun k => { k with status := some st })

/-- SHUTTLE_TICKET_COMPLETE (R271): every unit's response has come. -/
def execShuttleTicketComplete (t n : Nat) (s : State) : Host.Outcome State Fault Refusal :=
  onUnit 256 (tileCount s) t s fun s =>
    match ticket s t n with
    | none => s
    | some k =>
      let us := shUnits s t (shDesc k.desc)
      if k.status.isSome || !k.started || !operating s || !((List.range us.length).all (fun u => k.acked.contains u)) then s
      else completeTicket s t n (ticketStatus us k.units)

end Sys2Proof.Machine
end

