-- ==== Sys2Proof/Machine/Sched.lean ====
section
/-! DEFINITION. The job scheduler (spec/09 R250-R267, R274, R281): rings, admission, the life of a job, completion
records. -/

namespace Sys2Proof.Machine

/-! ### Rings (R252, R264) -/

/-- SQ_LOG2 of stream `n`. -/
def sqLog2 (s : State) (n : Nat) : Nat := regF s (rWfQCfg n) 12 8
/-- CQ_LOG2. -/
def cqLog2 (s : State) (n : Nat) : Nat := regF s (rWfQCfg n) 20 16
/-- WF_Q_CFG.EN. -/
def queueEn (s : State) (n : Nat) : Bool := regBit s (rWfQCfg n) 31

/-- WF_SQ_PROD. -/
def sqProd (s : State) (n : Nat) : Nat := regF s (rWfSqProd n) 15 0
/-- WF_SQ_CONS. -/
def sqCons (s : State) (n : Nat) : Nat := regF s (rWfSqCons n) 15 0
/-- WF_CQ_PROD. -/
def cqProd (s : State) (n : Nat) : Nat := regF s (rWfCqProd n) 15 0
/-- WF_CQ_CONS. -/
def cqCons (s : State) (n : Nat) : Nat := regF s (rWfCqCons n) 15 0

/-- An index of a ring of 2^k entries advanced (log entry 25). -/
def ringNext (k i : Nat) : Nat := (i + 1) % 2 ^ k

/-- Records in the completion ring of stream `n` that the host has not released. -/
def cqHeld (s : State) (n : Nat) : Nat := sget dNat s.sched.cqHeld n
/-- Their number set. -/
def setCqHeld (s : State) (n v : Nat) : State := { s with sched := { s.sched with cqHeld := sset dNat n v s.sched.cqHeld } }

/-- The completion ring of stream `n` is full: it holds 2^CQ_LOG2 records. -/
def cqFull (s : State) (n : Nat) : Bool := decide (2 ^ cqLog2 s n ≤ cqHeld s n)

/-- CQ_FULL made to agree with the ring: it is 1 while records wait for a full ring. -/
def noteCq (s : State) (n : Nat) : State := setRegBit s (rWfQStatus n) 29 (cqFull s n)

/-- A ring access fails (R280): the stream is HALTED. -/
def ringError (s : State) (n : Nat) : State := setHalted (raise s 0x0348 n 0) n true

/-- 64 bytes of a descriptor from a submission ring: DDR4 in a region that weft may read, or host memory. -/
def ringRead (s : State) (a : Nat) (x : UnitEnv) : State × Option (List Byte) :=
  match shSpace a with
  | 1 =>
    let d := a % 2 ^ 60
    if !weftMay s d 64 false then (refuseAccess s, none)
    else match resolveBias s d x with
      | none => (s, none)
      | some s =>
        let r := readLine s (d / 64) x.errs
        (r.1, if r.2.bad then none else some r.2.bytes)
  | 2 =>
    let r := hostRead s (a % 2 ^ 60) 64 x
    match r.2 with
    | .inl _ => (r.1, none)
    | .inr (bs, p) => (r.1, if p then none else some bs)
  | _ => (s, none)

/-- 32 bytes of a completion record written to a completion ring; false when the access fails. -/
def ringWrite (s : State) (a : Nat) (bs : List Byte) (x : UnitEnv) : State × Bool :=
  match shSpace a with
  | 1 =>
    let d := a % 2 ^ 60
    if !weftMay s d bs.length true then (refuseAccess s, false)
    else match resolveBias s d x with
      | none => (s, false)
      | some s => (memWrite s d bs x.errs, true)
  | 2 => hostWrite s (a % 2 ^ 60) bs false x
  | _ => (s, false)

/-- WF_SQ_PROD (R252), directly or through the doorbell (R436). -/
def execWfSqProd (n v : Nat) (s : State) : Host.Outcome State Fault Refusal :=
  onUnit 16 16 n s fun s => onBlock 3 s fun s => setF s (rWfSqProd n) 15 0 v

/-- The consumer index of a completion ring: the records from it to the producer index stay held (log entry 25). -/
def cqRelease (s : State) (n v : Nat) : State :=
  let k := cqLog2 s n
  let s := setF s (rWfCqCons n) 15 0 v
  noteCq (setCqHeld s n ((cqProd s n % 2 ^ k + 2 ^ k - v % 2 ^ k) % 2 ^ k)) n

/-- WF_CQ_CONS (R264). -/
def execWfCqCons (n v : Nat) (s : State) : Host.Outcome State Fault Refusal :=
  onUnit 16 16 n s fun s => onBlock 3 s fun s => cqRelease s n v

/-- WF_POS (R274): only while no ADVANCE job of the stream runs. -/
def execWfPos (n v : Nat) (s : State) : Host.Outcome State Fault Refusal :=
  onUnit 16 16 n s fun s => onBlock 3 s fun s =>
    if s.sched.running.any (fun r => r.members.any (fun j => j.stream == n && descAdvance j.desc)) then s
    else setF s (rWfPos n) 20 0 v

/-- The address of descriptor `i` of the submission ring of stream `n`. -/
def sqAddr (s : State) (n i : Nat) : Nat := reg64 s (rWfSqBase n) + 64 * (i % 2 ^ sqLog2 s n)

/-- One descriptor fetched (R252, R280); with `done` it completes without running. -/
def fetchOne (s : State) (n : Nat) (x : UnitEnv) (done : Option Nat) : State :=
  let r := ringRead s (sqAddr s n (sqCons s n)) x
  match r.2 with
  | none => ringError r.1 n
  | some d => enqueue (setF r.1 (rWfSqCons n) 15 0 (ringNext (sqLog2 s n) (sqCons s n))) n d false done

/-- The producer index at the write of an ABORT that is not done (R266). -/
def abortTo (s : State) (n : Nat) : Option Nat := (s.sched.aborts.find? (fun a => a.1 == n)).map (·.2)

/-- The streams being aborted with stream `n` taken out. -/
def dropAbort (s : State) (n : Nat) : State :=
  { s with sched := { s.sched with aborts := s.sched.aborts.filter (fun a => a.1 != n) } }

/-- An ABORT is done: its bit clears and the stream is HALTED (R266). -/
def endAbort (s : State) (n : Nat) : State := setHalted (setRegBit (dropAbort s n) (rWfQCtrl n) 0 false) n true

/-- One descriptor of the ring fetched to complete with 0x030E without running (R266); an access that fails ends the ABORT. -/
def abortFetch (s : State) (n : Nat) (x : UnitEnv) : State :=
  match abortTo s n with
  | none => s
  | some p =>
    if sqCons s n = p then s
    else
      let s' := fetchOne s n x (some 0x030E)
      if sqCons s' n = sqCons s n then endAbort s' n else s'

/-- An ABORT whose last descriptor has been fetched is done. -/
def abortSettle (s : State) (n : Nat) : State := if abortTo s n = some (sqCons s n) then endAbort s n else s

/-- DESCRIPTOR_FETCH (R252, R253); while the stream is being aborted its descriptors complete without running (R266). -/
def execDescriptorFetch (n : Nat) (x : UnitEnv) (s : State) : Host.Outcome State Fault Refusal :=
  onUnit 16 16 n s fun s =>
    if !operating s then s
    else if (abortTo s n).isSome then abortSettle (abortFetch s n x) n
    else if queueEn s n && sqProd s n != sqCons s n && decide (jobsQueued s n < 64) then fetchOne s n x none else s

/-! ### Completion (R262-R264) -/

/-- The status of a job that ends without running: its record, with END, CYCLES and tags 0. -/
def idleRecord (j : Job) (st : Nat) : List Byte :=
  slice j.desc 0 4 ++ leBytes 2 st ++ leBytes 2 0 ++ leBytes 2 (2 ^ 8 * b2n j.auto) ++ leBytes 1 (descProg j.desc)
    ++ leBytes 1 1 ++ zeros 20

/-- LASTERR of stream `n`. -/
def noteError (s : State) (n st : Nat) : State := setF s (rWfQStatus n) 15 0 st

/-- A record waits for its place in the completion ring (R264). -/
def addCompletion (s : State) (c : Completion) : State :=
  { s with sched := { s.sched with completions := s.sched.completions ++ [c] } }

/-- A job of the queue completes without running. -/
def completeIdle (s : State) (j : Job) (st : Nat) : State :=
  let s := { s with sched := { s.sched with queue := s.sched.queue.filter (fun k => k.num != j.num) } }
  noteError (noteQueue (addCompletion s ⟨j.num, j.stream, idleRecord j st, descIrq j.desc⟩) j.stream) j.stream st

/-- Heads that are not to run leave their queues (R253, R256); an ADVANCE job that reaches admission at the position
limit does so too (R274). -/
def dropDone : Nat → State → Nat → State
  | 0, s, _ => s
  | k + 1, s, n => match streamQueue s n with
    | [] => s
    | j :: _ => match j.done with
      | some st => dropDone k (completeIdle s j st) n
      | none =>
        if descAdvance j.desc && regF s (rWfPos n) 20 0 == 2 ^ 20 && regBit s rWfCtrl 0 && queueEn s n && !halted s n then
          dropDone k (completeIdle (raise s 0x0349 n 0) j 0x0349) n
        else s

/-- COMPLETION_RECORD (R264): the oldest record of stream `n` is written once every earlier job of the stream has one
and the ring has room. -/
def execCompletionRecord (n : Nat) (x : UnitEnv) (s : State) : Host.Outcome State Fault Refusal :=
  onUnit 16 16 n s fun s =>
    let cs := s.sched.completions.filter (fun c => c.stream == n)
    match cs with
    | [] => s
    | c0 :: _ =>
      let c := cs.foldl (fun m c => if c.num < m.num then c else m) c0
      let earlier := s.sched.queue.any (fun j => j.stream == n && decide (j.num < c.num))
        || s.sched.running.any (fun r => r.members.any (fun j => j.stream == n && decide (j.num < c.num)))
      if earlier || cqFull s n || !operating s then s
      else
        let r := ringWrite s (reg64 s (rWfCqBase n) + 32 * (cqProd s n % 2 ^ cqLog2 s n)) c.bytes x
        if !r.2 then ringError r.1 n
        else
          let s := { r.1 with sched := { r.1.sched with
            completions := r.1.sched.completions.filter (fun d => d.num != c.num) } }
          let s := setCqHeld (setF s (rWfCqProd n) 15 0 (ringNext (cqLog2 s n) (cqProd s n))) n (cqHeld s n + 1)
          let s := noteCq (countUp s (rWfQDone n) 1) n
          if c.irq then msix s (0x20 + n) else s

/-! ### Admission (R257-R259, R267) -/

/-- The group of a job's program. -/
def jobTiles (s : State) (j : Job) : List Nat := match progOf s (descProg j.desc) with | some p => p.tiles | none => []

/-- A job of stream `n` runs. -/
def streamRuns (s : State) (n : Nat) : Bool := s.sched.running.any (fun r => r.members.any (fun j => j.stream == n))

/-- Tile `t` holds no job. -/
def tileIdle (s : State) (t : Nat) : Bool := !(s.sched.running.any (fun r => r.tiles.contains t))

/-- The head of a queue. -/
def queueHead (s : State) (n : Nat) : Option Job := (streamQueue s n).head?

/-- The reserved job, while it waits. -/
def reservedJob (s : State) : Option Job :=
  match s.sched.reserved with
  | none => none
  | some k => s.sched.queue.find? (fun j => j.num == k)

/-- The energy a job needs in mW at class `c` (R257). -/
def needMw (s : State) (j : Job) (c : Nat) : Nat := (jobTiles s j).length * classMw s c

/-- The reason for which the head of stream `n` cannot start, but for energy (R258, R514): HALTED (or to be, by an ABORT that is not
done; log entry 91), ring full, SERIAL or ADVANCE, tiles. -/
def blockedBy (s : State) (n : Nat) (j : Job) : Option Nat :=
  if halted s n || (abortTo s n).isSome then some 5
  else if cqFull s n then some 2
  else if (descSerial j.desc || descAdvance j.desc) && streamRuns s n then some 3
  else if !(jobTiles s j).all (tileIdle s) then some 1
  else none

/-- The other members of the batch that job `j` of stream `n` leads (R267). -/
def batchWith (s : State) (n : Nat) (j : Job) : List Job :=
  match progOf s (descProg j.desc) with
  | some p =>
    if !p.batch then []
    else (List.range 16).filterMap (fun m =>
      if m = n then none
      else match queueHead s m with
        | some k => if k.done.isNone && descProg k.desc == p.num && queueEn s m && (blockedBy s m k).isNone then some k
                    else none
        | none => none)
  | none => []

/-- The reserved job withholds tiles or energy from job `j` (R258, R259). -/
def withheld (s : State) (j : Job) (need : Nat) : Bool :=
  match reservedJob s with
  | none => false
  | some r =>
    r.num != j.num && ((jobTiles s r).any (fun t => (jobTiles s j).contains t)
      || decide (regF s rWfBudget 23 0 < granted s + need + needMw s r (descClass r.desc)))

/-! ### The start of a job (R212, R254, R261) -/

/-- Bytes 0-63 of an argument block (R254). -/
def argBlock (s : State) (j : Job) : List Byte :=
  slice j.desc 16 48 ++ slice j.desc 8 6 ++ leBytes 1 j.stream ++ [0] ++ slice j.desc 0 4
    ++ leBytes 4 (regF s (rWfPos j.stream) 20 0)

/-- The bytes at ARGBASE: an argument block, or the batch area of 1,032 bytes (R254). -/
def argArea (s : State) (p : Prog) (members : List Job) : List Byte :=
  if p.batch then
    ((List.range 16).map (fun n => match members.find? (fun j => j.stream == n) with
      | some j => argBlock s j
      | none => zeros 64)).flatten
      ++ leBytes 2 ((members.map (fun j => 2 ^ j.stream)).sum) ++ zeros 6
  else match members with
    | j :: _ => argBlock s j
    | [] => []

/-- The registers of a core cleared at the start of a job (R212), with s1 set. -/
def clearCore (s : State) (t arg : Nat) : State :=
  let s := { s with weft := { s.weft with
    sreg := sclear (32 * t) 32 s.weft.sreg
    preg := sclear (8 * t) 8 s.weft.preg
    vreg := sclear (2048 * t) 2048 s.weft.vreg
    xa := sclear (256 * t) 256 s.weft.xa
    tickets := s.weft.tickets.filter (fun k => k.tile != t) } }
  setS s t 1 arg

/-- One tile of a job started (R212, R241, R254, R261). -/
def startTile (s : State) (p : Prog) (num c : Nat) (lead : Job) (area : List Byte) (t : Nat) : State :=
  let s := clearCore (tsWrite s t p.argBase area) t p.argBase
  setCore s t { state := coreRunning, pc := p.entry, job := num, prog := p.num, jobid := leAt lead.desc 0 4
                stream := lead.stream, frame := leAt lead.desc 8 6, eclass := c, eclassMax := c }

/-- The slots of a ring channel at the start of its job (R164, R230, R261): the pairs of the INIT entries are VALID with the TAGs of
blocks 0, 1, ...; the rest are empty. The bytes stay as they are (log entry 91). -/
def startSlots (s : State) (d : ChanDecl) : State :=
  (List.range d.depth).foldl (fun s i =>
    let sa := Config.scaleRing d.prog d.chan + 2 * i
    let full := decide (i < d.init)
    setSide (setSide s d.dst (d.addr + 32 * i) ⟨full, i % 16⟩) d.dst sa ⟨full, fld (scaleEntry s d.dst sa) 11 8⟩) s

/-- The channels of a program at the start of its job (R205, R261). -/
def startChans (s : State) (p : Prog) : State :=
  (s.jobs.chans.filter (fun d => d.prog == p.num)).foldl (fun s d =>
    let s := setChanSt s d.prog d.chan { credits := d.depth - d.init, waiting := d.init }
    if d.ring then startSlots s d else s) s

/-- The member of lowest stream number (R254). -/
def leadMember (ms : List Job) (j : Job) : Job := ms.foldl (fun m k => if k.stream < m.stream then k else m) j

/-- RUNNING of stream `n` made to agree with the jobs that run. -/
def noteRunning (s : State) (n : Nat) : State := setRegBit s (rWfQStatus n) 30 (streamRuns s n)

/-- A job, with the members of its batch, is admitted at class `c` (R258, R261, R267). -/
def admitNow (s : State) (j : Job) (members : List Job) (p : Prog) (c : Nat) : State :=
  let s := { s with sched := { s.sched with
    queue := s.sched.queue.filter (fun k => !(members.any (fun m => m.num == k.num)))
    reserved := match s.sched.reserved with
      | some r => if members.any (fun m => m.num == r) then none else some r
      | none => none
    last := j.stream
    running := s.sched.running ++ [{ num := j.num, prog := p.num, members := members, tiles := p.tiles
                                     grant := p.tiles.map (fun t => (t, classMw s c)), start := nowTag s }] } }
  let s := setF s rWfGranted 23 0 (granted s + p.tiles.length * classMw s c)
  let s := startChans s p
  let area := argArea s p members
  let s := p.tiles.foldl (fun s t => startTile s p j.num c (leadMember members j) area t) s
  members.foldl (fun s m => noteRunning (noteQueue s m.stream) m.stream) s

/-- Some core waits for the energy of a raise, which takes precedence over admissions (R260, log entry 91). -/
def raiseWaits (s : State) : Bool := s.weft.cores.any (fun c => c.2.raiseTo.isSome)

/-- The head of stream `n` is admitted if every condition of R258 holds; a failure is counted by its reason (R514). -/
def tryAdmit (s : State) (n : Nat) : State :=
  match queueHead s n with
  | none => s
  | some j =>
    if !queueEn s n || j.done.isSome then s
    else match progOf s (descProg j.desc), blockedBy s n j with
      | none, _ => s
      | some _, some k => countUp s (rObQstall n k) 1
      | some p, none =>
        let members := j :: batchWith s n j
        let c := members.foldl (fun m k => max m (descClass k.desc)) 0
        let need := needMw s j c
        if regBit s rWfBudget 31 || raiseWaits s || decide (regF s rWfBudget 23 0 < granted s + need) then
          countUp s (rObQstall n 0) 1
        else if withheld s j need then countUp s (rObQstall n 4) 1
        else admitNow s j members p c

/-- JOB_ADMISSION (R258): one evaluation over the streams, from the one after the last admitted; `last` moves within the
evaluation as the spec's listing has it. -/
def execJobAdmission (s : State) : Host.Outcome State Fault Refusal :=
  .next (
    let s := (List.range 16).foldl (fun s n => dropDone (streamQueue s n).length s n) s
    if !regBit s rWfCtrl 0 || !operating s then s
    else (List.range 16).foldl (fun s k => tryAdmit s ((s.sched.last + 1 + k) % 16)) s)

/-- RESERVED_JOB (R259): the head of stream `n` has waited longer than WF_AGE_LIMIT; only one job is reserved at a
time. -/
def execReservedJob (n : Nat) (s : State) : Host.Outcome State Fault Refusal :=
  onUnit 16 16 n s fun s =>
    if regF s rWfAgeLimit 15 0 = 0 || (reservedJob s).isSome then s
    else match queueHead s n with
      | some j => { s with sched := { s.sched with reserved := some j.num } }
      | none => s

/-- ENERGY_GRANT (R260): the raise that tile `t` waits for fits the budget; its ENERGY retires. -/
def execEnergyGrant (t : Nat) (s : State) : Host.Outcome State Fault Refusal :=
  onUnit 256 (tileCount s) t s fun s =>
    let c := core s t
    match c.raiseTo with
    | none => s
    | some k =>
      if regBit s rWfBudget 31 || decide (regF s rWfBudget 23 0 < granted s + classMw s k - classMw s c.eclass) then s
      else
        let s := regrant s t c.eclass k
        retire (setCore s t { core s t with eclass := k, raiseTo := none }) t none

/-! ### The end of a job (R262-R266) -/

/-- The running job that holds tile `t`. -/
def runningOn (s : State) (t : Nat) : Option RunJob := s.sched.running.find? (fun r => r.tiles.contains t)

/-- Every tile of the job has retired JEND. -/
def allEnded (s : State) (r : RunJob) : Bool := r.tiles.all (fun t => (core s t).state == coreEnded)

/-- The completion record of a member of job `r` that ends with status `st` (R263). -/
def jobRecord (s : State) (r : RunJob) (j : Job) (st : Nat) : List Byte :=
  let lead := r.tiles.headD 0
  let e := (core s lead).jend.getD 0
  let mixed := r.tiles.any (fun t => (core s t).jend.getD 0 != e)
  let fl := r.tiles.foldl (fun a t => a ||| (core s t).jobFlags % 128) 0
  let batch := match progOf s r.prog with | some p => p.batch | none => false
  leBytes 4 (leAt j.desc 0 4) ++ leBytes 2 st ++ leBytes 2 (if st = 0 then e else 0)
    ++ leBytes 2 (fl + 2 ^ 7 * b2n batch + 2 ^ 8 * b2n j.auto + 2 ^ 9 * b2n (decide (st = 0) && mixed))
    ++ leBytes 1 r.prog ++ leBytes 1 r.members.length ++ leBytes 4 (satN 32 (core s lead).cycle)
    ++ leBytes 8 r.start ++ leBytes 8 (nowTag s)

/-- What the end of job `r` with status `st` does for a member: its record, position, LASTERR, HALTED (R262, R265). -/
def endMember (s : State) (r : RunJob) (st : Nat) (j : Job) : State :=
  let n := j.stream
  let s := addCompletion s ⟨j.num, n, jobRecord s r j st, descIrq j.desc⟩
  let s := noteRunning s n
  if st = 0 then
    if descAdvance j.desc then setF s (rWfPos n) 20 0 (regF s (rWfPos n) 20 0 + 1) else s
  else
    let s := noteError s n st
    if regBit s (rWfQCfg n) 29 then s else setHalted s n true

/-- Job `r` ends with status `st`: tiles and energy are released (R262). -/
def endJob (s : State) (r : RunJob) (st : Nat) : State :=
  let s := { s with sched := { s.sched with running := s.sched.running.filter (fun q => q.num != r.num) } }
  let s := setF s rWfGranted 23 0 (granted s - (r.grant.map (·.2)).sum)
  r.members.foldl (fun s j => endMember s r st j) s

/-- JOB_END (R262): every tile of the job that holds tile `t` has retired JEND. -/
def execJobEnd (t : Nat) (s : State) : Host.Outcome State Fault Refusal :=
  onUnit 256 (tileCount s) t s fun s =>
    match runningOn s t with
    | some r => if allEnded s r then endJob s r 0 else s
    | none => s

/-- The tiles of a job that is stopped take the stop (R265). -/
def stopTiles (s : State) (r : RunJob) : State :=
  r.tiles.foldl (fun s t => if (core s t).state = coreStopping then takeStop s t else s) s

/-- Channel packets of the tiles of job `r` are on their way (R249, R265). -/
def sendsOpen (s : State) (r : RunJob) : Bool :=
  s.rd.packets.any (fun p => decide (kWrite ≤ p.kind ∧ p.kind ≤ kCredit) && r.tiles.contains p.src)

/-- JOB_TRAP_END (R265, R266): a stopped job ends once every tile has stopped, its tickets are complete and its channel packets are
delivered (R249); a tile that is still waiting at an instruction takes the stop now (log entry 26). -/
def execJobTrapEnd (t : Nat) (s : State) : Host.Outcome State Fault Refusal :=
  onUnit 256 (tileCount s) t s fun s =>
    match runningOn s t with
    | none => s
    | some r => match r.stop with
      | none => s
      | some st =>
        if r.tiles.any (fun t => !(openTickets s t).isEmpty) || sendsOpen s r then s
        else if allEnded s r then endJob s r 0
        else endJob (stopTiles s r) r st

/-- JOB_TIME_LIMIT (R266): TLIM × 16 µs have passed since the start of the job that holds tile `t`. -/
def execJobTimeLimit (t : Nat) (s : State) : Host.Outcome State Fault Refusal :=
  onUnit 256 (tileCount s) t s fun s =>
    match runningOn s t with
    | none => s
    | some r =>
      if r.stop.isSome || (r.members.all (fun j => leAt j.desc 6 2 == 0)) then s
      else stopJob (raise s 0x0341 ((r.members.map (·.stream)).headD 0) 0) r.num 0x0341

/-- ABORT (R266): the stream's running jobs stop with 0x030E; its queue and every descriptor up to WF_SQ_PROD at the write complete
with 0x030E without running; then the stream is HALTED. `xs` brings the fetches that come at once; further ones are
DESCRIPTOR_FETCH commands, and WF_Q_CTRL.ABORT reads 1 until the last. -/
def abortStream (n : Nat) (xs : List UnitEnv) (s : State) : State :=
  let s := (s.sched.running.filter (fun r => r.members.any (fun j => j.stream == n))).foldl
    (fun s r => stopJob s r.num 0x030E) s
  let s := (streamQueue s n).foldl (fun s j => completeIdle s j (j.done.getD 0x030E)) s
  let s := setRegBit (dropAbort s n) (rWfQCtrl n) 0 true
  let s := { s with sched := { s.sched with aborts := (n, sqProd s n) :: s.sched.aborts } }
  abortSettle (xs.foldl (fun s x => abortFetch s n x) s) n

/-- ABORT (R266). -/
def execAbort (n : Nat) (xs : List UnitEnv) (s : State) : Host.Outcome State Fault Refusal :=
  onUnit 16 16 n s fun s => onBlock 3 s fun s => abortStream n xs s

/-- RESUME (R265): HALTED is cleared. -/
def execResume (n : Nat) (s : State) : Host.Outcome State Fault Refusal :=
  onUnit 16 16 n s fun s => onBlock 3 s fun s => setHalted s n false

/-- PERST_N and link loss (R281): streams with a ring in host memory are HALTED with 0x0348. -/
def hostRingsLost (s : State) : State :=
  ((List.range 16).filter (fun n =>
      shSpace (reg64 s (rWfSqBase n)) == 2 || shSpace (reg64 s (rWfCqBase n)) == 2)).foldl ringError s

end Sys2Proof.Machine
end

