-- ==== Sys2Proof/Machine/Timebase.lean ====
section
/-! DEFINITION. Timebase (spec/02): tick lock, AVS readiness, arming, the edges of runs, holdover, droop stretches and
tick overrun, the weft operating point. -/

namespace Sys2Proof.Machine

/-! ### Tick lock (R35, R36) -/

/-- The declared tick configuration keeps R35. -/
def tickCfgOk (s : State) : Bool :=
  let n := tbN s
  let f := n * tickKhz s
  4 ≤ n && n ≤ 500 && 100000 ≤ f && f ≤ 250000

/-- AVS starts: AVS_READY falls (R444). -/
def avsStart (s : State) : State := setRegBit s rTbStatus 5 false

/-- The end of lock outside a run: ARM and its locks clear. -/
def lockEnds (s : State) (st : Nat) : State := clearArm (setTbState s st)

/-- LOCK_EN_SET (R35, R36): lock starts from IDLE with a configuration in range; in FAILED, or after SYSCLK loss
(R54), the write starts nothing. -/
def execLockEnSet (s : State) : Host.Outcome State Fault Refusal :=
  .next (onBlock 9 s fun s =>
    if s.tb.sysclkLost then s
    else
      let s := setRegBit s rTbCtrl 0 true
      if tbState s ≠ stIdle then s
      else if tickCfgOk s then setTbState s stLocking
      else raise s 0x0903 noSource 0)

/-- The boundary at which a run that stops now ends: the first start of a frame period after tick `t` (R53). -/
def nextBoundary (s : State) (t : Nat) : Nat :=
  let m := tbM s
  if t < tbSlot s then tbSlot s else tbSlot s + ((t - tbSlot s) / m + 1) * m

/-- A run ends at a frame-period boundary without a tick (R53): cause 0x0908, the state that LOCK_EN names. -/
def runLapses (s : State) : State :=
  endRun (raise s 0x0908 noSource 0) (if regBit s rTbCtrl 0 then stLocking else stIdle) (some 0x0908)

/-- The run will end at the next frame-period boundary (R53). -/
def lapseDue (s : State) : State := { s with tb := { s.tb with lapse := true } }

/-- LOCK_EN_CLEAR (R36, R53): outside a run the tick PLL stops and STATE returns to IDLE; a run ends as in R53 with
LIMIT 0, at the next frame-period boundary. -/
def execLockEnClear (s : State) : Host.Outcome State Fault Refusal :=
  .next (onBlock 9 s fun s =>
    if s.tb.sysclkLost then s
    else
      let s := setRegBit s rTbCtrl 0 false
      if runActive s then lapseDue s else lockEnds s stIdle)

/-- TICK_LOCKED (R36): the PLL has measured a tick of `hz` Hz. A tick more than 0.5 % from the declared one is refused;
else LOCKED, and AVS starts (R444). -/
def execTickLocked (hz : Nat) (s : State) : Host.Outcome State Fault Refusal :=
  .next (
    if tbState s ≠ stLocking then s
    else
      let want := tickKhz s * 1000
      let off := if hz < want then want - hz else hz - want
      if want < 200 * off then raise (setTbState s stFailed) 0x0902 noSource 0
      else avsStart (setTbState s stLocked))

/-- TICK_LOCK_FAIL (R36): lock is not reached in its time. -/
def execTickLockFail (s : State) : Host.Outcome State Fault Refusal :=
  .next (if tbState s ≠ stLocking then s else raise (setTbState s stFailed) 0x0901 noSource 0)

/-- The lowest voltage of the search of R444 in mV: 750 less 5 for each further voltage with margin. `ok` says for
750, 745, ..., 550 mV in turn whether min_margin is at least 0. -/
def avsSearch (ok : List Bool) : Nat := 750 - 5 * min 40 ((ok.drop 1).takeWhile id).length

/-- AVS_DONE (R444): the voltage search ends with the margins that the speed monitors showed. -/
def execAvsDone (ok : List Bool) (s : State) : Host.Outcome State Fault Refusal :=
  .next (
    if tbState s ≠ stLocked || regBit s rTbStatus 5 then s
    else if !ok.headD false then raise (setRegN s rPmAvsResult 750) 0x0A05 noSource 0
    else
      let v := min 750 (avsSearch ok + regF s rPmAvsCfg 15 8)
      setRegBit (setF s rPmAvsResult 9 0 v) rTbStatus 5 true)

/-! ### Runs (R39-R42, R61) -/

/-- An ARM write that Keep handles (R40, R291, R293, R301, R309, R353, R373, R453): every condition is checked; when one fails
the write is ignored. -/
def armNow (s : State) : State :=
  if s.tb.sysclkLost then s
  else
    let (s1, ok) := armChecks s
    if ok then armAccepted s1 else s1

/-- ARM (R40): Keep handles the write after what arrived before it (spec/15 R435). -/
def execArm (s : State) : Host.Outcome State Fault Refusal :=
  .next (onBlock 9 s fun s => if s.kp.wiping || !s.kp.waiting.isEmpty then keepLater s .arm else armNow s)

/-- STOP (R41): from the next frame-period boundary no frame is accepted. Outside a run STOP clears at once. -/
def execStop (s : State) : Host.Outcome State Fault Refusal :=
  .next (onBlock 9 s fun s =>
    if !runActive s then setRegBit s rTbCtrl 2 false
    else if s.tb.stopAt.isSome then s
    else { setRegBit s rTbCtrl 2 true with tb := { s.tb with stopAt := some (nextBoundary s s.tb.tick) } })

/-- The decision latency that the image declares, in frame periods: the largest D_s of the streams that take part (R41,
R346; DEDUCED, log entry 15). -/
def imageLatency (s : State) : Nat :=
  ((List.range 16).filter (streamOn s)).foldl (fun m n => max m (decisionLatency s n)) 0

/-- The tick at which a stopped run ends (R41): the STOP boundary, the decision latency and two frame periods. -/
def stopEnd (s : State) (b : Nat) : Nat := b + (imageLatency s + 2) * tbM s

/-- RUN_STOP_END (R41): the decision latency plus two frame periods after the STOP boundary have passed. -/
def execRunStopEnd (s : State) : Host.Outcome State Fault Refusal :=
  .next (match s.tb.stopAt with
    | some b => if runActive s && decide (stopEnd s b ≤ s.tb.tick) then endRun s stLocked none else s
    | none => s)

/-- RUN_SYNC_EDGE (R39, R41, R42): an edge begins a run while ARM is 1, restarts an active run when it is armed, and is
ignored in an active run otherwise. -/
def execRunSyncEdge (s : State) : Host.Outcome State Fault Refusal :=
  .next (
    if s.tb.sysclkLost then s
    else if runActive s then
      if regBit s rTbCtrl 1 then restartRun s
      else
        let first := reg s rTbFault == 0
        let s := raise s 0x0909 noSource 0
        if first then setReg64 s rTbFaultTag (nowTag s) else s
    else if regBit s rTbCtrl 1 && tbState s == stArmed then beginRun s
    else s)

/-! ### Loss of tick (R52, R53) and of clocks (R54) -/

/-- TICK_LOST (R52): a run enters holdover; LOCKED and ARMED end lock. -/
def execTickLost (s : State) : Host.Outcome State Fault Refusal :=
  .next (
    let st := tbState s
    if st == stRunning then
      let s := raise (setTbState s stHoldover) 0x0907 noSource 0
      { s with tb := { s.tb with holdTicks := 0, holds := s.tb.holds ++ [(s.tb.tick, none)] } }
    else if st == stLocked || st == stArmed then lockEnds (raise s 0x090B noSource 0) stLocking
    else s)

/-- HOLDOVER_EXIT (R53): four good ticks in a row returned within LIMIT ticks. -/
def execHoldoverExit (s : State) : Host.Outcome State Fault Refusal :=
  .next (
    if tbState s == stHoldover && !s.tb.lapse && decide (s.tb.holdTicks ≤ regF s rTbHoldover 11 0) then
      let holds := s.tb.holds.map (fun h => match h.2 with | none => (h.1, some s.tb.tick) | some _ => h)
      { setTbState s stRunning with tb := { s.tb with holds := holds } }
    else s)

/-- HOLDOVER_EXPIRED (R53): LIMIT ticks have passed in holdover, and the run ends at the next frame-period boundary. -/
def execHoldoverExpired (s : State) : Host.Outcome State Fault Refusal :=
  .next (if tbState s == stHoldover && decide (regF s rTbHoldover 11 0 ≤ s.tb.holdTicks) then lapseDue s else s)

/-- SYSCLK_LOST (R54): any run ends at once, the loss enters the boot ledger, FAILED until warm reset; the weft clock stops,
so that the weft PLL is out of lock. -/
def execSysclkLost (s : State) : Host.Outcome State Fault Refusal :=
  .next (
    let s := ledgerEvent (raise s 0x090C noSource 0) 1 0x090C
    let s := if runActive s then abortRun s stFailed else lockEnds s stFailed
    let s := setRegBit s rTbStatus 4 false
    { s with tb := { s.tb with sysclkLost := true } })

/-- WEFT_PLL_UNLOCK (R54): weft issue stops. -/
def execWeftPllUnlock (s : State) : Host.Outcome State Fault Refusal :=
  .next (raise (setRegBit s rTbStatus 4 false) 0x090D noSource 0)

/-! ### Stretches (R46-R51) and tick overrun (R48) -/

/-- The period of weft operating point `k` in ps (R49). -/
def opPeriod (k : Nat) : Nat := [4000, 4500, 5000, 5500, 6000, 6500, 7000, 8000].getD k 8000

/-- The pending operating-point step takes effect (R49, R51). -/
def applyOpStep (s : State) : State :=
  if regBit s rTbWeftOp 8 then setRegBit (setF s rTbWeftOp 2 0 (regF s rTbWeftOp 6 4)) rTbWeftOp 8 false else s

/-- DROOP_DETECTED (R46, R50, R51): VDD_CORE of die `die` stands `mv` mV below its set point. The second warp pulse from now
will be stretched, once however many dies detect; the weft pulse of number `weft` is stretched by a quarter of the period in
effect, unless it has been. -/
def execDroopDetected (die mv weft : Nat) (s : State) : Host.Outcome State Fault Refusal :=
  onUnit 4 (dieCount s) die s fun s =>
    if mv ≤ 5 * max 1 (regF s rTbDroopCfg 5 0) then s
    else
      let s := if runActive s then { s with tb := { s.tb with late2 := true } } else s
      if s.tb.weftPulse = some weft then s
      else
        let s := { s with tb := { s.tb with weftPulse := some weft } }
        let quarter := opPeriod (regF s rTbWeftOp 2 0) / 4
        applyOpStep (setReg64 s rTbWeftStretchPs (reg64 s rTbWeftStretchPs + quarter))

/-- Frame IDs whose networks run in the frame period that begins at tick `t` (R154): t - (δ + k) M for each lag k < L. -/
def framesInNetwork (s : State) (t : Nat) : List Nat :=
  (List.range (imageL s)).filterMap (fun k =>
    let back := (imageDelta s + k) * tbM s
    if tbSlot s + back ≤ t then some (t - back) else none)

/-- A tick overrun of the frame period that now ends (R48): cause, count, marks. -/
def tickOverrun (s : State) : State :=
  let s := countUp (raise s 0x0906 noSource 0) rTbOverrunCnt 1
  match periodStart s s.tb.tick with
  | some t => (framesInNetwork s t).foldl (fun s f => markFrame s f 1) s
  | none => s

/-- The end of a frame period: the overrun when q > 4 S, the largest q kept, q begins anew (R47, R48); routers discard
the warp flits they still hold (R191). -/
def periodEnd (s : State) : State :=
  let q := s.tb.q
  let s := cutFlits (if 4 * tbSelvage s < q then tickOverrun s else s)
  let s := setRegN s rTbStretchMax (max q (reg s rTbStretchMax).toNat)
  { s with tb := { s.tb with q := 0 } }

/-- The next internal tick edge is a frame-period boundary (R43). -/
def lastTick (s : State) : Bool := periodStart s (s.tb.tick + 1) == some (s.tb.tick + 1)

/-- One internal tick edge (R38): at a frame-period boundary the period ends and the warp clock begins a new one, whatever
pulses of the old one are left (R47, R48), with the slot tables active (R210); then the tick count, the ticks of a holdover and the Treadle timers advance
(R316). A snapshot latches at its tick (R507, R510). -/
def tickEdge (s : State) : State :=
  let b := lastTick s
  let s := if b then periodEnd s else s
  let hold := if tbState s == stHoldover then s.tb.holdTicks + 1 else s.tb.holdTicks
  let tb := { s.tb with tick := s.tb.tick + 1, holdTicks := hold, cyc := if b then 0 else s.tb.cyc
                        eighth := if b then 0 else s.tb.eighth - 8 * tbN s }
  let s := tickTimers { s with tb := tb }
  let s := if b then setRegBit s rRdStatus 16 true else s
  let s := snapOutFalls s
  snapLatch (if b && s.tb.lapse then runLapses s else s)

/-- TICK_OVERRUN (R48): the frame-period boundary comes with q > 4 S; the pick words that have not issued do not issue. -/
def execTickOverrun (s : State) : Host.Outcome State Fault Refusal :=
  .next (if runActive s && lastTick s && decide (4 * tbSelvage s < s.tb.q) then tickEdge s else s)

/-- The tick edge that ends the running tick has come (R44, R47): 8 N eighths of a warp period have passed, or the next
pulse of the selvage would end after the frame-period boundary and is omitted. -/
def edgeDue (s : State) : Bool :=
  decide (8 * tbN s ≤ s.tb.eighth)
    || (lastTick s && s.tb.cyc % 2 == 0 && decide (framePulses s - tbSelvage s ≤ s.tb.cyc / 2)
        && decide (8 * tbN s < s.tb.eighth + 8 + 2 * b2n s.tb.late1))

/-- A warp pulse begins (R46, R47): it is stretched when a droop has asked for it, and a stretched working pulse counts in q
of the frame period in which it begins. The slots of a new pick word have not issued (R152). -/
def warpEdge (s : State) : State :=
  let slow := s.tb.late1
  let work := slow && (periodStart s s.tb.tick).isSome && decide (s.tb.cyc / 2 < framePulses s - tbSelvage s)
  { s with tb := { s.tb with slow := slow, late1 := s.tb.late2, late2 := false, q := s.tb.q + b2n work }
           warp := { s.warp with issued := [], badWords := [] } }

/-- A REED cycle of a run ends and the next one begins (R44): its eighths of a warp period have passed, one more when its
pulse is stretched (R46). -/
def reedCycle (s : State) : State :=
  if !runActive s then s
  else
    let s := { s with tb := { s.tb with cyc := s.tb.cyc + 1, eighth := s.tb.eighth + 4 + b2n s.tb.slow } }
    let s := if edgeDue s then tickEdge s else s
    let s := landDue s
    if s.tb.cyc % 2 = 0 then warpEdge s else s

end Sys2Proof.Machine
end

