-- ==== Sys2Proof/Machine/RegAccess.lean ====
section
/-! DEFINITION. Register accesses from outside the blocks (spec/00 R11-R15, spec/01 R28-R33): what a read returns,
what a write stores, 64-bit registers, indirect table windows. A bit that starts an action with a row of its own is
acted on by that row (HostAccess). -/

namespace Sys2Proof.Machine

/-! ### Which addresses answer (R28, R30, R31, R5) -/

/-- The subsystem number of the block that holds BAR0 address `a`; a tile window waits for the warp plane. -/
def blockOf (a : Nat) : Nat :=
  match a / 0x100000 with
  | 0 => 11
  | 1 => 9
  | 2 => 1
  | 3 => 2
  | 4 => 3
  | 5 => 4
  | 6 => 5
  | 7 => 6
  | 8 => 7
  | 9 => 8
  | 10 => 10
  | _ => 2

/-- `a` lies at or past unit `from` of an array of `count` units of `stride` bytes at `base`. -/
def inUnits (a base stride count lo : Nat) : Bool :=
  decide (base ≤ a) && decide (a < base + stride * count) && decide (lo ≤ (a - base) / stride)

/-- The address belongs to a unit that the 192-tile grade lacks (R5, R31). -/
def absentAddr (s : State) (a : Nat) : Bool :=
  s.fuse.grade192 && (
    inUnits a 0xC00000 0x4000 256 192
      || inUnits a (rBmLaneCfg 0) 0x40 96 72
      || inUnits a (rBmGroupCfg 0) 4 6 5
      || inUnits a (rBbChStatus 0) 0x20 16 12
      || (inUnits a (rPmTemp 0) 4 72 48 && !inUnits a (rPmTemp 0) 4 72 64)
      || (inUnits a (rEyCtrl 0) 0x10 144 72 && !inUnits a (rEyCtrl 0) 0x10 144 96)
      || (inUnits a (rEyBase 0) 4 144 72 && !inUnits a (rEyBase 0) 4 144 96))

/-- The window of tile `t` has a register at offset `o` (R32): identification and ports in every tile, the fault ring in a tile of either
plane, the rest by the tile's plane. -/
def tileHas (s : State) (t o : Nat) : Bool :=
  let p := planeOf s t
  decide (o < 0x100) || decide (0x3000 ≤ o)
    || ((p == 1 || p == 2) && (decide (0x2000 ≤ o) || o == 0x110 || o == 0x114 || o == 0x118))
    || (p == 1 && (o == 0x104 || (decide (0x120 ≤ o) && decide (o < 0x2000))))
    || (p == 2 && (o == 0x100 || o == 0x104 || o == 0x108 || (decide (0x1000 ≤ o) && decide (o ≤ 0x1040))))

/-- An access at `a` reaches a register. -/
def reachable (s : State) (a : Nat) : Bool :=
  released s (blockOf a) && !absentAddr s a
    && (decide (a < 0xC00000) || tileHas s ((a - 0xC00000) / 0x4000) (a % 0x4000))

/-! ### Indirect tables: RD_IA, TR_IA, BB_MAP (R188, R193, R313, R347) -/

/-- The key that RD_IA_SEL selects: false for the slot table, true for the delivery map; none for a reserved one. -/
def rdSel (s : State) : Option (Bool × Nat) :=
  let r := regF s rRdIaSel 9 0
  let i := regF s rRdIaSel 29 13
  match regF s rRdIaSel 31 30 with
  | 0 => if r ≤ 256 && i < slotCount r && (r == 256 || r < tileCount s) then some (false, 8192 * r + i) else none
  | 1 => if r < tileCount s && i < 16 then some (true, 16 * r + i) else none
  | _ => none

/-- The key that TR_IA_SEL selects; none for a reserved table or word. -/
def trSel (s : State) : Option Nat :=
  let w := regF s rTrIaSel 3 0
  let n := regF s rTrIaSel 29 26
  let m := regF s rTrIaSel 25 23
  match regF s rTrIaSel 31 30 with
  | 0 => if w ≤ 8 then some (trKey 0 n m (regF s rTrIaSel 22 18) (regF s rTrIaSel 17 16) w) else none
  | 1 => some (trKey 1 n m 0 0 w)
  | 2 => if w ≤ 5 then some (trKey 2 n m 0 0 w) else none
  | _ => none

/-- The key that BB_MAP_SEL selects; none on a die that the device lacks. -/
def mapSel (s : State) : Option Nat :=
  let d := regF s rBbMapSel 13 12
  if d < dieCount s then some (4096 * d + regF s rBbMapSel 11 0) else none

/-- The selected entry behind a 64-bit window; none where `a` is no window. -/
def windowRead (s : State) (a : Nat) : Option Nat :=
  if a = rRdIaData then
    match rdSel s with
    | some (false, k) => some (sget dDWord s.rd.slots k).toNat
    | some (true, k) => some (sget dDWord s.dmap k).toNat
    | none => some 0
  else if a = rTrIaData then
    match trSel s with
    | some k => some (trWord s k)
    | none => some 0
  else if a = rBbMapData then
    match mapSel s with
    | some k => some (sget dDWord s.bb.chmap k).toNat
    | none => some 0
  else none

/-- Bits of a Treadle table word that are not reserved (R314, TR_IA_SEL). -/
def trMask (s : State) : Nat :=
  match regF s rTrIaSel 31 30, regF s rTrIaSel 3 0 with
  | 0, 8 => 2 ^ 46 - 1 - 2 ^ 15
  | 2, 0 => 1
  | 2, 5 => 0x00FFFFFF00FFFFFF
  | _, _ => 2 ^ 64 - 1

/-- An entry without its reserved bits (R12). -/
def entryOf (mask v : Nat) : DWord := BitVec.ofNat 64 (v &&& mask)

/-- The entry behind a window written, its reserved bits 0 (R12, R188, R193, R347); ignored while a run is active. -/
def windowWrite (s : State) (a v : Nat) : State :=
  if runActive s then s
  else if a = rRdIaData then
    match rdSel s with
    | some (false, k) => { s with rd := { s.rd with slots := sset dDWord k (entryOf 0xFFFFFFFFFF800000 v) s.rd.slots } }
    | some (true, k) => { s with dmap := sset dDWord k (entryOf 0xFFFFFFFF80007FFF v) s.dmap }
    | none => s
  else if a = rTrIaData then
    match trSel s with
    | some k => { s with tr := { s.tr with tables := sset dDWord k (entryOf (trMask s) v) s.tr.tables } }
    | none => s
  else
    match mapSel s with
    | some k => { s with bb := { s.bb with chmap := sset dDWord k (entryOf 0x8000FFFF03FFFFFF v) s.bb.chmap } }
    | none => s

/-! ### Values that are not stored -/

/-- KP_DEBUG: the debug level. -/
def debugLevel (s : State) : Nat := regF s rKpDebug 1 0

/-- KP_ID. -/
def kpId (s : State) : Nat :=
  0x0E20 * 2 ^ 16 + b2n s.fuse.grade192 * 2 ^ 8 + (if s.fuse.stepA0 then 0 else 1) * 16 + s.fuse.metal % 16

/-- A tile executes its plane's engine: a run is active and the image assigned the tile to a plane (spec/01, "Worked
example: finding a tile"). -/
def tileRuns (s : State) (t : Nat) : Bool := runActive s && (planeOf s t == 1 || planeOf s t == 2)

/-- TILE_ID of tile `t`. -/
def tileId (s : State) (t : Nat) : Nat :=
  2 ^ 31 + b2n (tileRuns s t) * 2 ^ 20 + planeOf s t * 2 ^ 16 + t % 256 * 2 ^ 8 + t % 256

/-- Record bytes of the fault ring of tile `t` at offset `o`. -/
def ringWord (s : State) (t o : Nat) : Nat :=
  let r := faultRing s t
  let k := (o / 32 + 128 - sget dNat s.tile.fltOldest t % 128) % 128
  match r[k]? with
  | some bs => leAt bs (o % 32) 4
  | none => 0

/-- WT_FLT_PTR of tile `t`. -/
def fltPtr (s : State) (t : Nat) : Nat :=
  let n := (faultRing s t).length
  b2n (decide (n = 128)) * 2 ^ 31 + n * 2 ^ 16 + sget dNat s.tile.fltOldest t % 128

/-- WT_SKEIN_STAT of skein `k` of tile `t`. -/
def skeinStat (s : State) (t k : Nat) : Nat :=
  let x := sget (fun _ => ({} : Skein)) s.warp.skeins (8 * t + k)
  x.maxFill * 2 ^ 16 + x.frames.length

/-- DT_STATE of tile `t`. -/
def dtState (s : State) (t : Nat) : Nat :=
  let c := core s t
  c.prog % 64 * 2 ^ 16 + c.eclass % 16 * 2 ^ 8 + c.state % 8

/-- The indirect ports answer a read: outside a run, or with debug level 1 (R33). -/
def portsReadable (s : State) : Bool := !runActive s || decide (1 ≤ debugLevel s)

/-- What a tile window shows at offset `o` where it is no stored register; none where it is one. -/
def tileView (s : State) (t o : Nat) : Option Nat :=
  let warp := planeOf s t == 1
  if o = 0 then some (tileId s t)
  else if o = 0x110 then some (fltPtr s t)
  else if 0x2000 ≤ o && o < 0x3000 then some (ringWord s t (o - 0x2000))
  else if 0x3000 ≤ o then
    if !portsReadable s then some 0
    else if 0x3400 ≤ o then some (ofLe (sgetMany dByte s.tile.pageBuf (3072 * t + (o - 0x3400)) 4))
    else if o = 0x3008 then some 0
    else none
  else if warp then
    if o = 0x128 then some (ofBitsLsb ((List.range 8).map (fun i => i == 0 || sget dFalse s.warp.preds (8 * t + i))))
    else if 0x160 ≤ o && o < 0x180 then some (skeinStat s t ((o - 0x160) / 4))
    else none
  else
    if o = 0x100 then some (dtState s t)
    else if o = 0x104 then some (core s t).jobid
    else if o = 0x108 then some ((core s t).pc % 8192)
    else if 0x1000 ≤ o && o ≤ 0x1040 then some (sget dNat s.weft.cycles (32 * t + (o - 0x1000) / 4))
    else none

/-- The entry of the error log that stands at ring index `i` (R518). -/
def logAt (s : State) (i : Nat) : Option LogEntry :=
  let back := (s.ob.logCount + 4096 - 1 - i) % 4096
  s.ob.log[back]?

/-- The 16 bytes of an error log entry (R518). -/
def logBytes (e : LogEntry) : List Byte :=
  leBytes 2 e.cause ++ leBytes 2 e.source ++ leBytes 2 e.reps ++ leBytes 2 e.detail ++ leBytes 8 e.tag

/-- Bridges that the grade has: (ring, Spindle) masks of RD_STATUS. -/
def bridgeMask (s : State) : Nat := if s.fuse.grade192 then 0x37 else 0xFF

/-- TR_MSTATE r of stream `n`. -/
def machineStates (s : State) (n r : Nat) : Nat :=
  ((List.range 4).map (fun q => (sget (fun _ => ({} : Machine)) s.tr.machines (8 * n + 4 * r + q)).st % 32 * 2 ^ (8 * q))).sum

/-- The score: jobs queued and descriptors not yet fetched of every stream (R402). -/
def weftScore (s : State) : Nat :=
  satN 16 (((List.range 16).map (fun n =>
    jobsQueued s n + (sqProd s n + 2 ^ 16 - sqCons s n) % 2 ^ sqLog2 s n)).sum)

/-- What a global register shows where it is no stored register; none where it is one. -/
def globalView (s : State) (a : Nat) : Option Nat :=
  if a = rTbTime then some (nowTag s % 2 ^ 32)
  else if a = rTbTime + 4 then some (nowTag s / 2 ^ 32)
  else if a = rKpId then some (kpId s)
  else if a = rKpUid then some (s.fuse.uid % 2 ^ 32)
  else if a = rKpUid + 4 then some (s.fuse.uid / 2 ^ 32)
  else if a = rRdStatus then some ((reg s rRdStatus).toNat / 2 ^ 8 * 2 ^ 8 + bridgeMask s)
  else if a = rRdCnt then some (sget dNat s.rd.stalls (8 * regF s rRdCntSel 9 0 + regF s rRdCntSel 12 10))
  else if a = rWfStatus then
    some (((List.range 256).filter (fun t => planeOf s t == 2 && !tileIdle s t)).length * 2 ^ 16
      + ((List.range 256).filter (fun t => planeOf s t == 2)).length)
  else if a = rTrHmin then some (hMin s % 2 ^ 10)
  else if a = rObLogHead then
    if s.ob.log.isEmpty then some (2 ^ 31) else some ((s.ob.logCount + 4095) % 4096)
  else if rObLogData 0 ≤ a && a < rObLogData 4 then
    match logAt s (regF s rObLogSel 11 0) with
    | some e => some (leAt (logBytes e) (a - rObLogData 0) 4)
    | none => some 0
  else if a = rSnData then some 0
  else if a = rKwScore then some (weftScore s)
  else if rTrEval 0 ≤ a && a < 0x602000 && a % 0x100 = 0x0C then some (evalPulse s ((a - 0x601000) / 0x100))
  else if rTrEval 0 ≤ a && a < 0x602000 && a % 0x100 = 0x10 then some (decisionLatency s ((a - 0x601000) / 0x100))
  else if rTrEval 0 ≤ a && a < 0x602000 && (a % 0x100 = 0x40 || a % 0x100 = 0x44) then
    some (machineStates s ((a - 0x601000) / 0x100) (a % 0x100 / 4 % 2))
  else if rBmStreamCfg 0 ≤ a && a < 0x203400 && a % 0x40 = 8 then some (streamRec s ((a - 0x203000) / 0x40)).deliv
  else if rBbStCfg 0 ≤ a && a < 0x702800 && a % 0x80 = 0x10 then
    let n := (a - 0x702000) / 0x80
    some (setFldN (reg s a).toNat 31 31 (b2n (runActive s && captures s n && !regBit s a 30)))
  else match windowRead s a with
    | some v => some (v % 2 ^ 32)
    | none => match windowRead s (a - 4) with
      | some v => some (v / 2 ^ 32)
      | none => none

/-- The fields of the register at `a`. -/
def fieldsAt (a : Nat) : List RegField :=
  match regLookup a with
  | some (r, half) => halfFields r half
  | none => []

/-- The bits of a register that a read returns: WO bits read 0 (R11, R12). -/
def readMask (fs : List RegField) : Nat := fieldsMask (fun a => a != .wo) fs

/-- What a read of BAR0 address `a` returns, side effects aside. -/
def regView (s : State) (a : Nat) : Word :=
  if !reachable s a then 0
  else
    let v := if 0xC00000 ≤ a then tileView s ((a - 0xC00000) / 0x4000) (a % 0x4000) else globalView s a
    match v with
    | some x => BitVec.ofNat 32 x
    | none => reg s a &&& BitVec.ofNat 32 (readMask (fieldsAt a))

/-! ### Writes (R11, R12) -/

/-- One field of a word under a write of `v`, by its access type. -/
def writeField (locked : Bool) (v : Word) (w : Word) (f : RegField) : Word :=
  match f.acc with
  | .rw => setFld w f.hi f.lo (wfld v f.hi f.lo)
  | .rwl => if locked then w else setFld w f.hi f.lo (wfld v f.hi f.lo)
  | .w1c => w &&& ~~~(setFld 0 f.hi f.lo (wfld v f.hi f.lo))
  | .ro | .wo | .w1s | .rc => w

/-- The word that a write of `v` leaves in a register (R11, R12). -/
def writeFields (locked : Bool) (fs : List RegField) (w v : Word) : Word := fs.foldl (writeField locked v) w

/-- Writes that the rows of their own perform, or that the register never takes: TB_CTRL (R36, R40, R41), the producer,
consumer and position registers of streams (R252, R264, R274), region entry 0 and the setting of VALID (R341), energy classes
while a job runs (R257), KW_DEVID while a port is not OFF, the enables of peer ports (R385, R390), the placement of a scan
point that runs (R516). -/
def writeRefused (s : State) (a : Nat) (v : Word) : Bool :=
  a == rTbCtrl
    || (inUnits a (rWfQCfg 0) 0x80 16 0 && (a % 0x80 == 0x18 || a % 0x80 == 0x2C || a % 0x80 == 0x30))
    || (inUnits a (rBbRgBase 0) 0x20 32 0 && (decide (a < rBbRgBase 1) || (a % 0x20 == 0x10 && wbit v 31)))
    || (inUnits a (rWfEclass 0) 4 16 0 && !s.sched.running.isEmpty)
    || (a == rKwDevid && (List.range 8).any (fun p => portState s p != 0))
    || (inUnits a (rKwPortCfg 0) 0x80 8 0 && a % 0x80 == 0 && wbit v 31 != regBit s a 31)
    || (inUnits a (rEyCtrl 0) 0x10 144 0 && a % 0x10 == 0 && regBit s (a + 4) 31)
    || (decide (0xC00000 ≤ a) && decide (a % 0x4000 = 0x104) && planeOf s ((a - 0xC00000) / 0x4000) != 1)

/-- What a stored write brings about in its block (R444, R180, R105, R64, R438, R255, R398). `old` is the word before it. A write that
toggles BM_LANE_CFG.EN puts the lane at its reset state, scramblers included (DESIGN CHOICE, log entry 93). -/
def writeEffect (s : State) (a : Nat) (old : Word) : State :=
  if a = rTbTickCfg ∨ a = rPmAvsCfg then (if tbState s == stLocked then avsStart s else s)
  else if a = rKpEvent ∨ a = rKpEventEn then noteSmb s
  else if a = rWpFault then
    (if reg s a = 0 then { s with tile := { s.tile with firstHeld := false } } else s)
  else if inUnits a (rBmLaneCfg 0) 0x40 96 0 && a % 0x40 == 0 then
    let i := (a - rBmLaneCfg 0) / 0x40
    if wbit old 31 == regBit s a 31 then s
    else
      let s := setRegN (eyeLost s i) (rBmLaneStatus i) (if regBit s a 31 then 1 else 0)
      { s with bm := { s.bm with lanes := sset (fun _ => {}) i {} s.bm.lanes } }
  else if 0xC00000 ≤ a && a % 0x4000 == 0x10 then
    (if wbit old 8 && !regBit s a 8 then setReg s (a + 4) 0 else s)
  else if inUnits a (rMsixTable 0) 4 8192 0 && a % 16 == 12 then msixUnmask s ((a - rMsixTable 0) / 16)
  else if inUnits a (rWfQCfg 0) 0x80 16 0 && a % 0x80 == 0 then
    let bad := !(decide (4 ≤ regF s a 12 8) && decide (regF s a 12 8 ≤ 16) && decide (4 ≤ regF s a 20 16)
      && decide (regF s a 20 16 ≤ 16))
    if bad && !wbit old 31 then setRegBit s a 31 false else s
  else if inUnits a (rKwPortCfg 0) 0x80 8 0 && a % 0x80 == 0x28 then
    let ring := regionOf s (reg64 s (a - 8)) (64 * 2 ^ regF s a 4 0)
    if !regBit s a 31 || wbit old 31 || ring.any (fun r => (region s r).kind == 3) then s
    else raise (setRegBit s a 31 false) 0x0707 ((a - rKwPortCfg 0) / 0x80) 0
  else s

/-- A write to a peer port's configuration with EN as it stands takes AUTO alone (KW_PORT_CFG). -/
def writePortAuto (s : State) (a : Nat) (v : Word) : State := setRegBit s a 30 (wbit v 30)

/-- A 32-bit register written from outside. -/
def storeWord (s : State) (a : Nat) (v : Word) : State :=
  if writeRefused s a v then s
  else if inUnits a (rKwPortCfg 0) 0x80 8 0 && a % 0x80 == 0 then writePortAuto s a v
  else
    let old := reg s a
    writeEffect (setReg s a (writeFields s.rwlLock (fieldsAt a) old v)) a old

/-! ### The indirect ports of a tile (R33, R298) -/

/-- A write to a port is ignored: DENIED. -/
def portDenied (s : State) (t : Nat) : State := setRegBit s (rTileIaStatus t) 1 true

/-- A write to the ports that changes a tile is accepted: outside a run with debug level 2. DENIED clears, MODIFIED sets. -/
def portAccepted (s : State) (t : Nat) : State :=
  setRegBit (setRegBit s (rTileIaStatus t) 1 false) rLdStatus 28 true

/-- Host writes that change tiles are accepted (R298, R500). -/
def portWritable (s : State) : Bool := !runActive s && decide (2 ≤ debugLevel s)

/-- A write at offset `o` of the port area of tile `t`: TILE_IA_SEL and TILE_IA_ADDR between runs, the page buffer under
R298 while no page command runs. TILE_IA_DATA and TILE_IA_CMD have rows of their own. -/
def portWrite (s : State) (t o : Nat) (v : Word) : State :=
  if o = 0x3000 ∨ o = 0x3004 then
    if runActive s then portDenied s t
    else
      let a := 0xC00000 + 0x4000 * t + o
      setRegBit (setReg s a (writeFields false (fieldsAt a) (reg s a) v)) (rTileIaStatus t) 1 false
  else if 0x3400 ≤ o then
    if !portWritable s || regBit s (rTileIaStatus t) 0 then portDenied s t
    else
      let s := portAccepted s t
      { s with tile := { s.tile with pageBuf := ssetMany dByte (3072 * t + (o - 0x3400) / 4 * 4) (leBytes 4 v.toNat) s.tile.pageBuf } }
  else s

/-! ### Whole accesses -/

/-- The low-half address of the 64-bit register that `a` belongs to, and whether `a` is its high half. -/
def wide (a : Nat) : Option (Nat × Bool) :=
  match regLookup a with
  | some (r, half) => if r.w64 then some (a - 4 * half, half == 1) else none
  | none => none

/-- A 64-bit register committed whole (R14). -/
def commitWide (s : State) (a : Nat) (lo hi : Word) : State :=
  if (windowRead s a).isSome then windowWrite s a (lo.toNat + 2 ^ 32 * hi.toNat)
  else if writeRefused s a lo then s
  else
    let s := setReg s a (writeFields s.rwlLock (fieldsAt a) (reg s a) lo)
    setReg s (a + 4) (writeFields s.rwlLock (fieldsAt (a + 4)) (reg s (a + 4)) hi)

/-- A 32-bit write at BAR0 address `a` (R11-R14, R30, R31, R33). -/
def bar0Write (s : State) (a : Nat) (v : Word) : State :=
  if !reachable s a then s
  else match wide a with
    | some (l, false) => { s with staging := sset regReset l v s.staging }
    | some (l, true) => commitWide s l (sget regReset s.staging l) v
    | none =>
      if 0xC00000 ≤ a && 0x3000 ≤ a % 0x4000 then portWrite s ((a - 0xC00000) / 0x4000) (a % 0x4000) v
      else storeWord s a v

/-- No value latched. -/
abbrev dNone : Nat → Option Word := fun _ => none

/-- RC bits of a register cleared, with the counters that stand elsewhere (R13, R200, R513). -/
def clearRc (s : State) (a : Nat) : State :=
  let s := setReg s a (reg s a &&& ~~~(BitVec.ofNat 32 (fieldsMask (fun x => x == .rc) (fieldsAt a))))
  if a = rRdCnt then
    { s with rd := { s.rd with stalls := sset dNat (8 * regF s rRdCntSel 9 0 + regF s rRdCntSel 12 10) 0 s.rd.stalls } }
  else if 0xC00000 ≤ a && 0x1000 ≤ a % 0x4000 && a % 0x4000 ≤ 0x1040 then
    let t := (a - 0xC00000) / 0x4000
    if planeOf s t == 1 then s
    else { s with weft := { s.weft with cycles := sset dNat (32 * t + (a % 0x4000 - 0x1000) / 4) 0 s.weft.cycles } }
  else s

/-- A 32-bit read at BAR0 address `a` with its side effects (R11, R13, R14). A tag that TB_TIME shows is a tag taken (R38). -/
def bar0Read (s : State) (a : Nat) : State × Word :=
  if !reachable s a then (s, 0)
  else match wide a with
    | some (l, false) =>
      let q := { s with latch := sset dNone l (some (regView s (l + 4))) s.latch }
      (if l = rTbTime then tagTaken q else q, regView s a)
    | some (l, true) =>
      match sget dNone s.latch l with
      | some w => ({ s with latch := sset dNone l none s.latch }, w)
      | none => (s, regView s a)
    | none => (clearRc s a, regView s a)

/-! ### BAR2, configuration space, HDM decoders -/

/-- A 32-bit write to the mailbox in BAR2 (R432, R433): IRQ_EN, the W1C bits of MB_STATUS, the command buffer while no command
runs. -/
def bar2Write (s : State) (a : Nat) (v : Word) : State :=
  if !released s 11 then s
  else if a = 0 then { s with cx := { s.cx with mbCtrl := setFld s.cx.mbCtrl 1 1 (wfld v 1 1) } }
  else if a = 4 then { s with cx := { s.cx with mbStatus := s.cx.mbStatus &&& ~~~(v &&& 0x60000000#32) } }
  else if 0x1000 ≤ a && a < 0x40000 then
    if wbit s.cx.mbStatus 31 then s
    else { s with cx := { s.cx with cmdBuf := ssetMany dByte (a - 0x1000) (leBytes 4 v.toNat) s.cx.cmdBuf } }
  else s

/-- A 32-bit word of the mailbox in BAR2 (R432); the rest of BAR2 but the doorbells reads 0. -/
def bar2View (s : State) (a : Nat) : Word :=
  if !released s 11 then 0
  else if a = 0 then s.cx.mbCtrl
  else if a = 4 then s.cx.mbStatus
  else if 0x1000 ≤ a && a < 0x40000 then BitVec.ofNat 32 (ofLe (sgetMany dByte s.cx.cmdBuf (a - 0x1000) 4))
  else if 0x40000 ≤ a && a < 0x80000 then BitVec.ofNat 32 (ofLe (sgetMany dByte s.cx.respBuf (a - 0x40000) 4))
  else 0

/-- A field of configuration space as it reads (R408, R413-R415, R439). Volatile memory is code 0 of Media_Type and of
Memory_Class (PRESUMED: CXL 2.0, log entry 98). -/
def cfgView (s : State) (f : CfgField) : Nat :=
  match f with
  | .vendorId => 0x1F6A
  | .deviceId => 0x0E20
  | .classCode => 0x120000
  | .revisionId => if s.fuse.stepA0 then 0x00 else 0x10
  | .subsystemVendorId => 0x1F6A
  | .subsystemId => if s.fuse.grade192 then 0x0E21 else 0x0E20
  | .bar0Size => 16 * 2 ^ 20
  | .bar2Size => 2 ^ 20
  | .msixVectors => 2048
  | .msixTable => 0x980000
  | .msixPba => 0x988000
  | .atsQueueDepth => 32
  | .dvsecVendor => 0x1E98
  | .cacheCapable | .ioCapable | .memCapable | .flit68Capable | .hdmCount => 1
  | .memHwInitMode | .mediaType | .memoryClass => 0
  | .range1Size => s.cx.range1
  | .range1Base => 0
  | .memActiveTimeout => 2
  | .memInfoValid => b2n (memInfoValid s)
  | .memActive => b2n (memActive s)
  | .locator0Id => 1
  | .locator0Bar => 0
  | .locator0Offset => 0x900000
  | .locator1Id => 0xFF
  | .locator1Bar => 2
  | .locator1Offset => 0
  | .internalError => b2n s.cx.internalErr
  | .memEnable => b2n (regBit s rCxMemStatus 29)
  | .cacheEnable => b2n (regBit s rCxMemStatus 28)
  | .atsEnable => b2n (regBit s rCxMemStatus 27)
  | .msixEnable => b2n s.cx.msixEn
  | .msixMask => b2n s.cx.msixFMask

/-- A field of configuration space written (R412, R413, R438); the rest takes no write, and a 1 clears Internal Error
(PRESUMED: CXL 2.0, log entry 98). -/
def cfgWrite (s : State) (f : CfgField) (v : Nat) : State :=
  let on := v % 2 == 1
  let cxl := regBit s rCxLinkStatus 30
  if !released s 8 then s
  else match f with
    | .memEnable => setRegBit s rCxMemStatus 29 (on && cxl)
    | .cacheEnable => setRegBit s rCxMemStatus 28 (on && cxl)
    | .atsEnable => setRegBit s rCxMemStatus 27 on
    | .msixEnable => { s with cx := { s.cx with msixEn := on } }
    | .msixMask => (List.range 2048).foldl msixUnmask { s with cx := { s.cx with msixFMask := on } }
    | .internalError => if on then { s with cx := { s.cx with internalErr := false } } else s
    | .vendorId | .deviceId | .classCode | .revisionId | .subsystemVendorId | .subsystemId | .bar0Size | .bar2Size | .msixVectors
    | .msixTable | .msixPba | .atsQueueDepth | .dvsecVendor | .cacheCapable | .ioCapable | .memCapable | .flit68Capable
    | .memHwInitMode | .hdmCount | .range1Size | .range1Base | .mediaType | .memoryClass | .memActiveTimeout | .memInfoValid
    | .memActive | .locator0Id | .locator0Bar | .locator0Offset | .locator1Id | .locator1Bar | .locator1Offset => s

/-- Decoder `i`. -/
def decoder (s : State) (i : Nat) : Decoder := if i = 0 then s.cx.dec0 else s.cx.dec1

/-- Decoder `i` set, with its bit of CX_MEM_STATUS.COMMITTED. -/
def setDecoder (s : State) (i : Nat) (d : Decoder) : State :=
  let s := setRegBit s rCxMemStatus (i % 2) d.committed
  if i = 0 then { s with cx := { s.cx with dec0 := d } } else { s with cx := { s.cx with dec1 := d } }

/-- A field of decoder `i` as it reads. -/
def hdmView (s : State) (i : Nat) (f : HdmField) : Nat :=
  let d := decoder s i
  match f with
  | .base => d.base
  | .size => d.size
  | .skip => d.skip
  | .ig => d.ig
  | .iw => d.iw
  | .lockOnCommit => b2n d.lockOnCommit
  | .uncommit => b2n (!d.committed)
  | .committed => b2n d.committed
  | .errorNotCommitted => b2n d.error

/-- A field of decoder `i` written; a locked decoder takes no write (R417). -/
def hdmWrite (s : State) (i : Nat) (f : HdmField) (v : Nat) : State :=
  let d := decoder s i
  if d.locked || !released s 8 then s
  else setDecoder s i (match f with
    | .base => { d with base := v % 2 ^ 64 }
    | .size => { d with size := v % 2 ^ 64 }
    | .skip => { d with skip := v % 2 ^ 64 }
    | .ig => { d with ig := v % 16 }
    | .iw => { d with iw := v % 16 }
    | .lockOnCommit => { d with lockOnCommit := v % 2 == 1 }
    | .uncommit => { d with committed := false }
    | .committed | .errorNotCommitted => d)

end Sys2Proof.Machine
end

