-- ==== Sys2Proof/Machine/Cxl.lean ====
section
/-! DEFINITION. The host interface (spec/15): link, PERST_N, HDM decoders, host accesses to DDR4, bias flips, snoops and
ATS invalidations. -/

namespace Sys2Proof.Machine

/-! ### The link (R410-R412, R438, R440, R442) -/

/-- A bias flip stops (R427): FAILED, BUSY and GO fall. -/
def flipFails (s : State) : State :=
  let s := setRegBit (setRegBit (setRegBit s rCxBiasStatus 31 false) rCxBiasStatus 30 true) rCxBiasCtrl 31 false
  raise { s with cx := { s.cx with flip := none } } 0x080B noSource 0

/-- What goes with the link (R440, R442): enables and MSI-X at reset values, decoders uncommitted, caches invalidated, a
flip and scan points stopped (spec/18 R516), streams with a ring in host memory HALTED. -/
def linkLost (s : State) : State :=
  let s := setReg (setF (setF s rCxMemStatus 29 27 0) rCxMemStatus 1 0 0) rCxLinkStatus 0
  let s := resetRegs s (rMsixTable 0) 0x8100
  let s := { s with cx := { s.cx with msixEn := false, msixFMask := false, dec0 := {}, dec1 := {}, cache := [], atc := [] } }
  let s := if s.cx.flip.isSome then flipFails s else s
  hostRingsLost ((List.range 16).foldl (fun s k => eyeLost s (128 + k)) s)

/-- LINK_UP (R410-R412): the link reaches L0 with or without CXL, at speed code `speed` and `width` lanes. After a failed S4
it runs as in R412 (R484). -/
def execLinkUp (cxl : Bool) (speed width : Nat) (s : State) : Host.Outcome State Fault Refusal :=
  .next (
    if !s.pins.perstN || !s.pins.sysRstN || cxUp s || s.ob.testMode then s
    else
      let cxl := cxl && stepOutcome s 4 != 5
      let s := setRegN s rCxLinkStatus (2 ^ 31 + b2n cxl * 2 ^ 30 + speed % 16 * 2 ^ 8 + width % 32)
      let s := if width < 16 ∨ speed < 5 then raise s 0x0804 noSource 0 else s
      if cxl then s else raise s 0x080A noSource 0)

/-- LINK_DOWN (R440): the link leaves L0 without PERST_N. -/
def execLinkDown (s : State) : Host.Outcome State Fault Refusal :=
  .next (if cxUp s then linkLost (raise s 0x0803 noSource 0) else s)

/-- PERST_N (R440): asserted. -/
def execPerstN (s : State) : Host.Outcome State Fault Refusal :=
  .next (linkLost { s with pins := { s.pins with perstN := false } })

/-- PERST_N_DEASSERTION (R538): the CXL PHY trains once SYS_RST_N is high too. -/
def execPerstNDeassertion (s : State) : Host.Outcome State Fault Refusal :=
  .next { s with pins := { s.pins with perstN := true } }

/-! ### HDM decoders (R416, R417) -/

/-- DPAs that decoder `i` takes, from its first (R416). -/
def decoderDpa (s : State) (i : Nat) : Nat :=
  if i = 0 then s.cx.dec0.skip else s.cx.dec0.skip + s.cx.dec0.size / 2 ^ s.cx.dec0.iw + s.cx.dec1.skip

/-- The commit of decoder `i` fails (R417). -/
def commitBad (s : State) (i : Nat) : Bool :=
  let d := decoder s i
  !memInfoValid s || d.base % 2 ^ 28 != 0 || d.size % 2 ^ 28 != 0 || decide (6 < d.ig) || decide (3 < d.iw)
    || decide (s.cx.range1 < decoderDpa s i + d.size / 2 ^ d.iw) || (i == 1 && !s.cx.dec0.committed)

/-- HDM_DECODER_COMMIT (R417): decoder `i` is committed, locked when Lock On Commit asks for it, or refused. -/
def execHdmDecoderCommit (i : Nat) (s : State) : Host.Outcome State Fault Refusal :=
  onUnit 2 2 i s fun s =>
    let d := decoder s i
    if !cxUp s || !released s 8 || d.committed then s
    else if commitBad s i then raise (setDecoder s i { d with error := true }) 0x0802 noSource i
    else setDecoder s i { d with committed := true, error := false, locked := d.lockOnCommit }

/-- The DPA of a host address in a committed decoder (R416). -/
def hpaToDpa (s : State) (hpa : Nat) : Option Nat :=
  match [0, 1].find? (fun i => (decoder s i).committed && decide ((decoder s i).base ≤ hpa)
      && decide (hpa < (decoder s i).base + (decoder s i).size)) with
  | none => none
  | some i =>
    let d := decoder s i
    let off := hpa - d.base
    let g := 8 + d.ig
    some (decoderDpa s i + (off / 2 ^ (g + d.iw) * 2 ^ g + off % 2 ^ g))

/-! ### Host accesses (R418, R422, R426, R431) -/

/-- The answer to a host access. -/
def hostAnswer (s : State) (bs : List Byte) (poison : Bool) : State := { s with cx := { s.cx with memAnswer := some (bs, poison) } }

/-- The host may reach DDR4: the link carries CXL and Mem_Enable is 1. -/
def hostMem (s : State) : Bool := cxUp s && regBit s rCxLinkStatus 30 && memEn s

/-- A host access to a device-bias page of a WEFT or HDM region flips the page to host bias (R426). -/
def hostFlips (s : State) (a : Nat) : State :=
  if biased s a && pageBias s (a / 4096) then countUp (setPageBias s (a / 4096) false) rCxFlipCnt 1 else s

/-- A host access before Memory_Active (R422). -/
def tooEarly (s : State) : State := countUp (raise s 0x0801 noSource 0) rCxEarlyCnt 1

/-- HOST_MEM_READ (R418, R422, R426): the 64-byte line at `hpa`; `errs` are the symbol errors of the DDR4 line. -/
def execHostMemRead (hpa : Nat) (errs : List SymErr) (s : State) : Host.Outcome State Fault Refusal :=
  .next (
    match hpaToDpa s hpa with
    | none => s
    | some d =>
      let a := d / 64 * 64
      if !hostMem s then s
      else if !memActive s then hostAnswer (tooEarly s) (zeros 64) true
      else match kindAt s a 64 with
        | some 1 | some 2 | some 3 | some 4 =>
          let r := readLine (hostFlips s a) (a / 64) errs
          hostAnswer r.1 (padTo 64 r.2.bytes) r.2.bad
        | _ => hostAnswer (refuseAccess s) (zeros 64) true)

/-- Old bytes with the enabled new ones. -/
def mergeBytes (mask : Nat) (old new : List Byte) : List Byte :=
  (List.range 64).map (fun i => if bitN mask i then new.getD i 0 else old.getD i 0)

/-- A host write that is allowed (R337, R431): poison makes the line uncorrectable; a write of the whole line makes it good;
a write of part of it is merged, and an uncorrectable line stays so. -/
def hostStore (s : State) (a mask : Nat) (bs : List Byte) (poison : Bool) (errs : List SymErr) : State :=
  if poison then
    setBad (memPut (countUp (raise s 0x0805 noSource 0) rCxPoisonCnt 1) a (mergeBytes mask (memBytes s a 64) bs)) (a / 64) true
  else if mask % 2 ^ 64 = 2 ^ 64 - 1 then memWrite s a (padTo 64 bs)
  else
    let r := readLine s (a / 64) errs
    memPut r.1 a (mergeBytes mask r.2.bytes bs)

/-- HOST_MEM_WRITE (R418, R422, R426, R431): bytes of the line at `hpa`, enabled by `mask`. -/
def execHostMemWrite (hpa mask : Nat) (bs : List Byte) (poison : Bool) (errs : List SymErr) (s : State) :
    Host.Outcome State Fault Refusal :=
  .next (
    match hpaToDpa s hpa with
    | none => s
    | some d =>
      let a := d / 64 * 64
      if !hostMem s then s
      else if !memActive s then hostAnswer (tooEarly s) [] false
      else match kindAt s a 64 with
        | some 3 | some 4 => hostAnswer (hostStore (hostFlips s a) a mask bs poison errs) [] false
        | _ => hostAnswer (refuseAccess s) [] false)

/-! ### Bias flips (R427, R428) -/

/-- BIAS_FLIP (R427): GO with TARGET (true: device bias). Ignored while BUSY; a flip to device bias without Cache_Enable
stops at once. -/
def execBiasFlip (target : Bool) (s : State) : Host.Outcome State Fault Refusal :=
  .next (onBlock 8 s fun s =>
    if regBit s rCxBiasStatus 31 then s
    else
      let s := setRegBit (setRegBit s rCxBiasCtrl 0 target) rCxBiasCtrl 31 true
      let s := setReg s rCxBiasStatus 0x80000000#32
      if target && !cacheEn s then flipFails s
      else
        let f : Flip := { page := reg64 s rCxBiasBase / 4096, left := regF s rCxBiasCount 20 0, toDevice := target }
        { s with cx := { s.cx with flip := some f } })

/-- One page of a flip processed, or skipped outside WEFT and HDM regions. -/
def flipPage (s : State) (f : Flip) : State :=
  let s := if biased s (4096 * f.page) then setPageBias s f.page f.toDevice else s
  let s := countUpF s rCxBiasStatus 20 0 1
  { s with cx := { s.cx with flip := some { f with page := f.page + 1, left := f.left - 1 } } }

/-- At most `n` further pages of the flip. -/
def flipPages : Nat → State → State
  | 0, s => s
  | n + 1, s => match s.cx.flip with
    | some f => if f.left = 0 then s else flipPages n (flipPage s f)
    | none => s

/-- The flip ends when no page is left: BUSY and GO fall. -/
def flipEnd (s : State) : State :=
  match s.cx.flip with
  | some f =>
    if f.left = 0 then
      let s := setRegBit (setRegBit s rCxBiasStatus 31 false) rCxBiasCtrl 31 false
      { s with cx := { s.cx with flip := none } }
    else s
  | none => s

/-- BIAS_FLIP_DONE (R427): the flip processes its next `n` pages, after the lines that the host held modified were written
back as `dirty`; BUSY falls with the last page, or when Cache_Enable has fallen. -/
def execBiasFlipDone (n : Nat) (dirty : List (Nat × List Byte)) (s : State) : Host.Outcome State Fault Refusal :=
  .next (
    match s.cx.flip with
    | none => s
    | some f =>
      if f.toDevice && !cacheEn s then flipFails s
      else
        let s := if f.toDevice then dirty.foldl (fun s e =>
            if f.page ≤ e.1 / 64 && e.1 / 64 < f.page + n && biased s (64 * e.1) then memWrite s (64 * e.1) (padTo 64 e.2) else s) s
          else s
        flipEnd (flipPages n s))

/-! ### Caches (R429, R430) -/

/-- HOST_SNOOP (R429): the host snoops line `l`; SnpInv invalidates it. -/
def execHostSnoop (l : Nat) (inv : Bool) (s : State) : Host.Outcome State Fault Refusal :=
  .next (if inv && cxUp s then { s with cx := { s.cx with cache := s.cx.cache.erase l } } else s)

/-- ATS_INVALIDATION (R430): translations of `n` pages from `pg` go. A unit of a ticket is one command here, so none is in
flight. -/
def execAtsInvalidation (pg n : Nat) (s : State) : Host.Outcome State Fault Refusal :=
  .next { s with cx := { s.cx with atc := s.cx.atc.filter (fun q => !(decide (pg ≤ q) && decide (q < pg + n))) } }

end Sys2Proof.Machine
end

