-- ==== Sys2Proof/Machine/Image.lean ====
section
/-! DEFINITION. The `.azp` container (spec/10 R284-R288): header, section table, sections, the format errors of 0x0B81,
and the digests. An image is its list of bytes. -/

namespace Sys2Proof.Machine

/-- A load error (R297): cause, section table index, tile, detail. -/
structure LoadErr where
  cause : Nat
  sect : Nat
  tile : Nat
  detail : Nat
deriving DecidableEq, Repr

/-- No section, or no tile. -/
abbrev noSect : Nat := 0xFFFF

/-- A section table entry (R285). -/
structure Sect where
  idx : Nat
  typ : Nat
  tile : Nat
  off : Nat
  len : Nat
deriving DecidableEq, Repr

/-! ### Header (R284) -/

/-- LT. -/
def imgLt (b : List Byte) : Nat := leAt b 6 1
/-- FLAGS.WEIGHTS_ONLY. -/
def imgWeightsOnly (b : List Byte) : Bool := bitN (leAt b 7 1) 0
/-- FLAGS.SIGNED. -/
def imgSigned (b : List Byte) : Bool := bitN (leAt b 7 1) 1
/-- TILES. -/
def imgTiles (b : List Byte) : Nat := leAt b 8 2
/-- NSECT. -/
def imgNsect (b : List Byte) : Nat := leAt b 10 2
/-- TOTAL_LEN. -/
def imgTotalLen (b : List Byte) : Nat := leAt b 12 4
/-- FRAME_PULSES. -/
def imgFramePulses (b : List Byte) : Nat := leAt b 16 4
/-- SELVAGE. -/
def imgSelvage (b : List Byte) : Nat := leAt b 20 4
/-- P. -/
def imgP (b : List Byte) : Nat := leAt b 24 2
/-- H. -/
def imgH (b : List Byte) : Nat := leAt b 26 1
/-- L. -/
def imgL (b : List Byte) : Nat := leAt b 27 1
/-- DELTA. -/
def imgDelta (b : List Byte) : Nat := leAt b 28 1
/-- SECT_OFS. -/
def imgSectOfs (b : List Byte) : Nat := leAt b 40 4
/-- PROG_DIGEST. -/
def imgProgDigest (b : List Byte) : List Byte := slice b 64 32
/-- WEIGHT_DIGEST. -/
def imgWeightDigest (b : List Byte) : List Byte := slice b 96 32

/-- The detail of the first entry whose test fails. -/
def firstBad : List (Bool × Nat) → Option Nat
  | [] => none
  | (ok, d) :: r => if ok then firstBad r else some d

/-- The byte offset of the first header field that breaks R284 or R282; `cmdLen` is the TOTAL_LEN that the command names
(R294). -/
def headerErr (b : List Byte) (cmdLen : Nat) : Option Nat :=
  let f := imgFramePulses b
  let sv := imgSelvage b
  firstBad
    [ (slice b 0 4 == [0x41, 0x5A, 0x50, 0x00], 0), (leAt b 4 2 == 1, 4), (imgLt b == 1 || imgLt b == 2, 6)
    , (leAt b 7 1 / 4 == 0, 7), (imgTiles b == 192 || imgTiles b == 256, 8)
    , (decide (1 ≤ imgNsect b) && decide (imgNsect b ≤ 4096), 10)
    , (imgTotalLen b % 64 == 0 && imgTotalLen b == cmdLen, 12)
    , (decide (4 ≤ f) && decide (f ≤ 2048000), 16)
    , (decide (sv < 2 ^ 21) && decide (ceilDiv f 8 ≤ sv) && decide (sv + 1 ≤ f), 20)
    , (leAt b 29 3 == 0, 29)
    , (imgSectOfs b % 64 == 0 && decide (128 ≤ imgSectOfs b)
        && decide (imgSectOfs b + 16 * imgNsect b ≤ imgTotalLen b), 40)
    , (leAt b 44 20 == 0, 44) ]

/-! ### The section table (R285, R286) -/

/-- Entry `i`. -/
def imgSect (b : List Byte) (i : Nat) : Sect :=
  let e := imgSectOfs b + 16 * i
  ⟨i, leAt b e 1, leAt b (e + 2) 2, leAt b (e + 8) 4, leAt b (e + 12) 4⟩

/-- The sections in table order. -/
def imgSects (b : List Byte) : List Sect := (List.range (imgNsect b)).map (imgSect b)

/-- The content of a section. -/
def sectData (b : List Byte) (x : Sect) : List Byte := slice b x.off x.len

/-- The section of a type and tile. -/
def imgFind (b : List Byte) (typ tile : Nat) : Option Sect :=
  (imgSects b).find? (fun x => x.typ == typ && x.tile == tile)

/-- The types that an image may hold (R286, R296). -/
def typeAllowed (weightsOnly : Bool) (typ : Nat) : Bool :=
  decide (0x80 ≤ typ) || (if weightsOnly then typ == 4 || typ == 10 else decide (1 ≤ typ) && decide (typ ≤ 10))

/-- The TILE that a section of the type may name (R285). -/
def scopeOk (tiles typ tile : Nat) : Bool :=
  if 0x80 ≤ typ then true
  else if typ = 7 then decide (tile < tiles) || tile == 256
  else if 2 ≤ typ ∧ typ ≤ 6 then decide (tile < tiles)
  else tile == 0xFFFF

/-- Two byte ranges share no byte. -/
def apart (a n b m : Nat) : Bool := n == 0 || m == 0 || decide (a + n ≤ b) || decide (b + m ≤ a)

/-- Entry `x` keeps R285 beside the entries `before` it. -/
def sectEntryOk (b : List Byte) (before : List Sect) (x : Sect) : Bool :=
  let e := imgSectOfs b + 16 * x.idx
  leAt b (e + 1) 1 == 0 && leAt b (e + 4) 4 == 0 && typeAllowed (imgWeightsOnly b) x.typ
    && scopeOk (imgTiles b) x.typ x.tile
    && x.off % 64 == 0 && decide (x.off + x.len ≤ imgTotalLen b) && apart x.off x.len 0 128
    && apart x.off x.len (imgSectOfs b) (16 * imgNsect b)
    && before.all (fun y => apart x.off x.len y.off y.len
        && (decide (y.typ < x.typ) || (y.typ == x.typ && decide (y.tile < x.tile))))

/-- The first table entry that breaks R285. -/
def tableErr (b : List Byte) : Option Sect :=
  let l := imgSects b
  l.find? (fun x => !sectEntryOk b (l.take x.idx) x)

/-- The table as a whole (R286, R288): PLANES and STREAMS present unless WEIGHTS_ONLY, FLAGS.SIGNED as the SIGNATURE section
is; the byte offset at fault. -/
def tableWholeErr (b : List Byte) : Option Nat :=
  firstBad
    [ ((imgFind b 10 0xFFFF).isSome == imgSigned b, 7)
    , (imgWeightsOnly b || ((imgFind b 1 0xFFFF).isSome && (imgFind b 8 0xFFFF).isSome), imgSectOfs b) ]

/-! ### Extents and page records (R286) -/

/-- The extents of `bs` as (place of the data, ADDR, LEN), and the place of the first bad head; `pos` is the place of
`bs` in its section. -/
def extentsAux : Nat → Nat → List Byte → List (Nat × Nat × Nat) × Option Nat
  | 0, _, _ => ([], none)
  | fuel + 1, pos, bs =>
    if bs.isEmpty then ([], none)
    else
      let a := leAt bs 0 4
      let n := leAt bs 4 4
      if bs.length < 8 + n || a % 16 != 0 || n % 16 != 0 || tsSize < a + n then ([], some pos)
      else
        let r := extentsAux fuel (pos + 8 + n) (bs.drop (8 + n))
        ((pos + 8, a, n) :: r.1, r.2)

/-- The extents of bytes that stand at `pos` of their section. -/
def extents (pos : Nat) (bs : List Byte) : List (Nat × Nat × Nat) × Option Nat := extentsAux (bs.length + 1) pos bs

/-- The bytes that follow the head of a page record. -/
def recordSize (head : Nat) : Nat := if 2 ≤ fld head 9 8 then 12288 else 3072

/-- `n` page records from `pos` as (place of the data, head), the place after them, and the place of the first bad head. -/
def recordsAux (bs : List Byte) : Nat → Nat → List (Nat × Nat) × Nat × Option Nat
  | 0, pos => ([], pos, none)
  | n + 1, pos =>
    let h := leAt bs pos 4
    if bs.length < pos + 4 + recordSize h || bitN h 7 || 1024 ≤ h then ([], pos, some pos)
    else
      let r := recordsAux bs n (pos + 4 + recordSize h)
      ((pos + 4, h) :: r.1, r.2)

/-- What a WEIGHTS section holds: page records, scale-table extents, the place of its first format error. -/
structure WeightsSect where
  records : List (Nat × Nat)
  exts : List (Nat × Nat × Nat)
  err : Option Nat
deriving DecidableEq, Repr

/-- A WEIGHTS section. -/
def weightsSect (bs : List Byte) : WeightsSect :=
  if bs.length < 4 then ⟨[], [], some 0⟩
  else
  let r := recordsAux bs (min (leAt bs 0 4) (bs.length / 3072 + 1)) 4
  match r.2.2 with
  | some p => ⟨r.1, [], some p⟩
  | none =>
    if r.1.length ≠ leAt bs 0 4 then ⟨r.1, [], some 0⟩
    else
      let e := extents r.2.1 (bs.drop r.2.1)
      ⟨r.1, e.1, e.2⟩

/-- The heads of a WEIGHTS section (R296). -/
def weightHeads (bs : List Byte) : List Byte :=
  let w := weightsSect bs
  (w.records.map (fun r => leBytes 4 r.2)).flatten ++ (w.exts.map (fun e => leBytes 4 e.2.1 ++ leBytes 4 e.2.2)).flatten

/-! ### JOBS (R286, R250) -/

/-- The 64 entries of the job program table, valid or not. -/
def jobEntry (bs : List Byte) (k : Nat) : List Byte := slice bs (32 * k) 32

/-- Job program `k` of the table; none when it is not VALID. -/
def jobProg (bs : List Byte) (k : Nat) : Option Prog :=
  let e := jobEntry bs k
  let f := leAt e 2 1
  if !bitN f 0 then none
  else some
    { num := k, entry := leAt e 0 2, batch := bitN f 1, resident := bitN f 2, maxClass := leAt e 3 1
      argBase := leAt e 4 4
      tiles := (List.range (leAt e 8 2)).map (fun i => leAt bs (leAt e 10 2 + 2 * i) 2) }

/-- The channels of the table. -/
def jobChans (bs : List Byte) : List ChanDecl :=
  (List.range (leAt bs 2048 4)).map (fun i =>
    let e := slice bs (2052 + 16 * i) 16
    ⟨leAt e 0 1, leAt e 1 1, leAt e 2 2, leAt e 4 2, leAt e 6 1, leAt e 7 1, bitN (leAt e 8 1) 0, leAt e 12 4⟩)

/-- The channel entry keeps its layout. -/
def chanEntryOk (e : List Byte) : Bool :=
  decide (leAt e 0 1 < 64) && leAt e 6 1 != 0 && decide (leAt e 7 1 ≤ leAt e 6 1) && leAt e 8 1 / 2 == 0
    && leAt e 9 3 == 0

/-- `n` entries of a sync sequence from `pos`: the entries, the place after them, whether they keep their layout. -/
def syncAux (bs : List Byte) (ring : Nat → Bool) : Nat → Nat → List SyncEv × Nat × Bool
  | 0, pos => ([], pos, true)
  | n + 1, pos =>
    let e := leAt bs pos 2
    let counted := bitN e 14
    let c := if counted then leAt bs (pos + 2) 2 else 1
    let r := syncAux bs ring n (pos + (if counted then 4 else 2))
    (⟨bitN e 15, e % 256, c⟩ :: r.1, r.2.1,
      r.2.2 && fld e 13 8 == 0 && (!counted || (ring (e % 256) && decide (1 ≤ c) && decide (c ≤ 4096))))

/-- The sync sequences from `pos` to `stop` as (program, tile, entries), and the place of the first that breaks its
layout. -/
def seqsAux (bs : List Byte) (chans : List ChanDecl) (stop : Nat) :
    Nat → Nat → List (Nat × Nat × List SyncEv) × Option Nat
  | 0, _ => ([], none)
  | fuel + 1, pos =>
    if stop ≤ pos then ([], none)
    else
      let p := leAt bs pos 1
      let n := leAt bs (pos + 3) 2
      let ring := fun c => chans.any (fun x => x.prog == p && x.chan == c && x.ring)
      let r := syncAux bs ring (min n 257) (pos + 5)
      let known := r.1.all (fun e => chans.any (fun x => x.prog == p && x.chan == e.chan))
      if 256 < n || 64 ≤ p || stop < r.2.1 || !r.2.2 || !known then ([], some pos)
      else
        let q := seqsAux bs chans stop fuel r.2.1
        ((p, leAt bs (pos + 1) 2, r.1) :: q.1, q.2)

/-- A JOBS section: the table and the place of its first format error. The sync sequences end where the lowest tile list
after the channels begins, or where WF_ECLASS0-15 close the section (log entry 30). -/
def jobsSect (bs : List Byte) : JobTable × Option Nat :=
  let nch := leAt bs 2048 4
  let seq0 := 2052 + 16 * nch
  let progs := (List.range 64).filterMap (jobProg bs)
  let lists := (progs.filter (fun p => !p.tiles.isEmpty)).map (fun p => leAt (jobEntry bs p.num) 10 2)
  let stop := lists.foldl (fun m o => if seq0 ≤ o then min m o else m) (bs.length - 32)
  if bs.length < seq0 + 32 then ({}, some 2048)
  else
    let chans := jobChans bs
    let badProg := (List.range 64).find? (fun k =>
      let e := jobEntry bs k
      bitN (leAt e 2 1) 0 && (leAt e 2 1 / 8 != 0 || leAt e 12 20 != 0 || decide (bs.length < leAt e 10 2 + 2 * leAt e 8 2)))
    let badChan := (List.range nch).find? (fun i => !chanEntryOk (slice bs (2052 + 16 * i) 16))
    match badProg, badChan with
    | some k, _ => ({}, some (32 * k))
    | none, some i => ({}, some (2052 + 16 * i))
    | none, none =>
      let q := seqsAux bs chans stop (bs.length + 1) seq0
      (⟨progs, chans, q.1⟩, q.2)

/-- WF_ECLASS0-15 of a JOBS section. -/
def jobClasses (bs : List Byte) : List Nat := (List.range 16).map (fun i => leAt bs (bs.length - 32 + 2 * i) 2)

/-! ### STREAMS (R286) -/

/-- Stream record `n`. -/
def streamOf (bs : List Byte) (n : Nat) : StreamRec :=
  let r := slice bs (160 * n) 160
  { en := leAt r 0 1 == 1, deliv := leAt r 2 2, fsize := leAt r 4 4, subch := leAt r 8 4, nchan := leAt r 12 1
    chOfs := (List.range 64).map (fun k => leAt r (32 + 2 * k) 2) }

/-- The record keeps its layout. -/
def streamRecOk (r : List Byte) : Bool :=
  decide (leAt r 0 1 ≤ 1) && leAt r 1 1 == 0 && decide (leAt r 12 1 ≤ 64) && leAt r 13 19 == 0

/-! ### The format of a section -/

/-- The plane that the image declares for tile `t`: 1 warp, 2 weft. -/
def imgPlane (b : List Byte) (t : Nat) : Nat :=
  match imgFind b 1 0xFFFF with
  | some x => leAt b (x.off + t) 1
  | none => 0

/-- The place within section `x` at which its content breaks R286; none when it does not. -/
def contentErr (b : List Byte) (x : Sect) : Option Nat :=
  let bs := sectData b x
  match x.typ with
  | 1 => if x.len = 256 then none else some 0
  | 2 =>
    if imgPlane b x.tile = 1 then (if x.len = 16 * imgH b * imgP b then none else some 0)
    else if x.len % 8 = 0 ∧ x.len ≤ 65536 then none else some 0
  | 3 => (extents 0 bs).2
  | 4 => (weightsSect bs).err
  | 5 => if x.len = 292 ∧ imgPlane b x.tile = 1 then none else some 0
  | 6 => if x.len % 8 = 0 then none else some 0
  | 7 => if x.len = 4 + 8 * leAt bs 0 4 + 128 then none else some 0
  | 8 =>
    if x.len ≠ 2560 then some 0
    else ((List.range 16).find? (fun n => !streamRecOk (slice bs (160 * n) 160))).map (fun n => 160 * n)
  | 9 => (jobsSect bs).2
  | 10 => if x.len = 2420 then none else some 0
  | _ => none

/-- The first format error of the image (R284-R286). -/
def formatErr (b : List Byte) (cmdLen : Nat) : Option LoadErr :=
  match headerErr b cmdLen with
  | some o => some ⟨0x0B81, noSect, noSect, o⟩
  | none => match tableErr b with
    | some x => some ⟨0x0B81, x.idx, x.tile, imgSectOfs b + 16 * x.idx⟩
    | none => match tableWholeErr b with
      | some o => some ⟨0x0B81, noSect, noSect, o⟩
      | none => (imgSects b).findSome? (fun x =>
          (contentErr b x).map (fun p => ⟨0x0B81, x.idx, x.tile, x.off + p⟩))

/-! ### Digests (R287) -/

/-- The bytes that a digest covers: header bytes 0-63, then the table entry and content of each section that `p` takes. -/
def digestBytes (b : List Byte) (p : Nat → Bool) : List Byte :=
  b.take 64 ++ (((imgSects b).filter (fun x => p x.typ)).map (fun x =>
    slice b (imgSectOfs b + 16 * x.idx) 16 ++ sectData b x)).flatten

/-- PROG_DIGEST as R287 computes it. -/
def progDigestOf (b : List Byte) : List Byte :=
  sha3_256 (digestBytes b (fun t => decide (1 ≤ t) && decide (t ≤ 9) && t != 4))
/-- WEIGHT_DIGEST as R287 computes it. -/
def weightDigestOf (b : List Byte) : List Byte := sha3_256 (digestBytes b (fun t => t == 4))

/-- The digest that does not match the header: 0 program, 1 weights. -/
def digestErr (b : List Byte) : Option Nat :=
  if !imgWeightsOnly b && progDigestOf b != imgProgDigest b then some 0
  else if weightDigestOf b != imgWeightDigest b then some 1
  else none

/-- The weight layout digest (R296): the heads of every WEIGHTS section, with its tile. -/
def layoutDigestOf (b : List Byte) : List Byte :=
  sha3_256 ((((imgSects b).filter (fun x => x.typ == 4)).map (fun x =>
    leBytes 2 x.tile ++ weightHeads (sectData b x))).flatten)

end Sys2Proof.Machine
end

