-- ==== Sys2Proof/Machine/LoadOps.lean ====
section
/-! DEFINITION. What the loader writes (spec/10 R286, R294, R296; spec/16 R461): each section, the marrow pattern, and what
the device publishes once a load has completed. -/

namespace Sys2Proof.Machine

/-- A CODE section in the pick store of tile `t`, from word 0; the rest is written 0. -/
def writeCode (s : State) (t : Nat) (bs : List Byte) : State :=
  let ws := (chunks 8 bs).map (fun w => BitVec.ofNat 64 (ofLe w))
  { s with tile := { s.tile with pick := ssetMany dDWord (8192 * t) ws (sclear (8192 * t) 8192 s.tile.pick) } }

/-- Extents of a section in the tile store of tile `t`. -/
def writeExtents (s : State) (t : Nat) (bs : List Byte) (es : List (Nat × Nat × Nat)) : State :=
  es.foldl (fun s e => tsWrite s t e.2.1 (slice bs e.1 e.2.2)) s

/-- A TSTORE section: its extents; bytes not covered are written 0. -/
def writeTstore (s : State) (t : Nat) (bs : List Byte) : State :=
  writeExtents { s with ts := sclear (tsSize * t) tsSize s.ts } t bs (extents 0 bs).1

/-- A page record of a WEIGHTS section (R286, R234). A block of an E4M3 or E5M2 record that is not finite sets no TILE_ARITH bit: it
is no MXWF8 and the bit shows where it is used (DESIGN CHOICE, log entry 94; R114 names no load). -/
def writePageRecord (s : State) (t : Nat) (bs : List Byte) (pos head : Nat) : State :=
  let m := fld head 3 0
  let p := fld head 6 4
  match fld head 9 8 with
  | 0 => writePage s t m p false (rowsOf (slice bs pos 3072))
  | 1 => writePage s t m p true (rowsOf (slice bs pos 3072))
  | 2 => (writeF8Set s t m p e4m3 (slice bs pos 12288)).1
  | _ => (writeF8Set s t m p e5m2 (slice bs pos 12288)).1

/-- A WEIGHTS section: its page records, then its scale-table extents. -/
def writeWeights (s : State) (t : Nat) (bs : List Byte) : State :=
  let w := weightsSect bs
  writeExtents (w.records.foldl (fun s r => writePageRecord s t bs r.1 r.2) s) t bs w.exts

/-- A WARPCFG section: WT_DESC_BASE, the 64 routes, the 8 skeins. -/
def writeWarpcfg (s : State) (t : Nat) (bs : List Byte) : State :=
  let s := setRegN s (rWtDescBase t) (leAt bs 0 4)
  let s := (List.range 64).foldl (fun s k => setRegN s (rWtRoute t (k / 16) (k % 16)) (leAt bs (4 + 4 * k) 4)) s
  (List.range 8).foldl (fun s k => setRegN s (rWtSkeinCfg t k) (leAt bs (260 + 4 * k) 4)) s

/-- A SLOTS section: the slot entries in index order, then the delivery map. -/
def writeSlots (s : State) (r : Nat) (bs : List Byte) : State :=
  let n := leAt bs 0 4
  let word := fun k => BitVec.ofNat 64 (leAt bs (4 + 8 * k) 8)
  { s with
    rd := { s.rd with slots := ssetMany dDWord (8192 * r) ((List.range n).map word) s.rd.slots }
    dmap := ssetMany dDWord (16 * r) ((List.range 16).map (fun i => word (n + i))) s.dmap }

/-- A JOBS section: the table and WF_ECLASS0-15. -/
def writeJobs (s : State) (bs : List Byte) : State :=
  let s := { s with jobs := (jobsSect bs).1 }
  (List.range 16).foldl (fun s i => setRegN s (rWfEclass i) ((jobClasses bs).getD i 0)) s

/-- One section written. PLANES, SCALEREC, STREAMS and JOBS take effect with the completion of the load. -/
def writeSect (b : List Byte) (s : State) (x : Sect) : State :=
  let bs := sectData b x
  match x.typ with
  | 2 => writeCode s x.tile bs
  | 3 => writeTstore s x.tile bs
  | 4 => writeWeights s x.tile bs
  | 5 => writeWarpcfg s x.tile bs
  | 7 => writeSlots s x.tile bs
  | _ => s

/-- Macro `m` of tile `t` gets page 7 from the image, alone or in an F8 set. -/
def writesPage7 (b : List Byte) (t m : Nat) : Bool :=
  match imgFind b 4 t with
  | none => false
  | some x => (weightsSect (sectData b x)).records.any (fun r =>
      fld r.2 3 0 == m && (if 2 ≤ fld r.2 9 8 then fld r.2 6 4 == 4 else fld r.2 6 4 == 7))

/-- A row of the marrow pattern: +1 in even columns, -1 in odd columns. -/
def marrowRow : Nat := ((List.range 128).map (fun c => (if c % 2 = 0 then 1 else 3) * 4 ^ c)).sum

/-- The marrow pattern in page 7 of every macro whose page 7 the image does not write (R461); marrow can use these macros. -/
def writeMarrow (b : List Byte) (s : State) : State :=
  (List.range (tileCount s)).foldl (fun s t => (List.range 16).foldl (fun s m =>
    if writesPage7 b t m then s
    else
      let s := writePage s t m 7 true (List.replicate 96 marrowRow)
      setPage s t m 7 { page s t m 7 with marrow := true }) s) s

/-- The scale records of the image as (tile, working copy, template). -/
def imgRecs (b : List Byte) : List (Nat × Nat × Nat) :=
  (((imgSects b).filter (fun x => x.typ == 6)).map (fun x =>
    (List.range (x.len / 8)).map (fun i => (x.tile, leAt b (x.off + 8 * i) 4, leAt b (x.off + 8 * i + 4) 4)))).flatten

/-- What the device keeps of the image. -/
def imgKeep (b : List Byte) : Image :=
  { tiles := imgTiles b, lt := imgLt b, framePulses := imgFramePulses b, selvage := imgSelvage b, p := imgP b, h := imgH b
    l := imgL b, delta := imgDelta b, warpStatic := leAt b 32 4, warpEpf := leAt b 36 4
    progDigest := imgProgDigest b, weightDigest := imgWeightDigest b, layoutDigest := layoutDigestOf b
    planes := (List.range 256).map (imgPlane b)
    streams := match imgFind b 8 0xFFFF with
      | some x => (List.range 16).map (streamOf (sectData b x))
      | none => []
    recs := imgRecs b }

/-- The tables that belong to an image as a whole, emptied before another image is written: slot tables, delivery maps,
routes and skeins, job programs. -/
def clearTables (s : State) : State :=
  let s := (List.range 256).foldl (fun s t => resetRegs s (rWtDescBase t) 4) s
  let s := (List.range 256).foldl (fun s t => resetRegs (resetRegs s (rWtSkeinCfg t 0) 32) (rWtRoute t 0 0) 0x100) s
  { s with rd := { s.rd with slots := [] }, dmap := [], jobs := {} }

/-- Every section written in table order (R294): the device as the write pass leaves it, before it publishes anything. -/
def writeImage (b : List Byte) (s : State) : State :=
  let s := if imgWeightsOnly b then s else clearTables s
  let s := (imgSects b).foldl (writeSect b) s
  if imgWeightsOnly b then s else writeMarrow b s

/-- Digests in their registers, byte 0 in the low byte. -/
def publishDigests (s : State) (i : Image) : State :=
  (List.range 8).foldl (fun s k =>
    setRegN (setRegN s (rLdProgDigest k) (leAt i.progDigest (4 * k) 4)) (rLdWeightDigest k) (leAt i.weightDigest (4 * k) 4)) s

/-- WP_CFG, WP_LAT and the count of warp tiles. -/
def publishWarp (s : State) (i : Image) : State :=
  let s := setRegN s rWpCfg (i.p * 2 ^ 16 + i.h)
  let s := setRegN s rWpLat (i.delta * 2 ^ 24 + i.l)
  setF s rWpStatus 8 0 ((i.planes.filter (fun p => p == 1)).length)

/-- The provenance registers and chains cleared by a load or a reset (spec/13): PV_PROD, PV_DELIV, PV_LINK, PV_STATUS. -/
def clearProv (s : State) : State :=
  let s := setRegN s rPvStatus 0
  let s := (List.range 16).foldl (fun s n =>
    resetRegs (setRegN (setRegN s (rPvProd n) 0) (rPvDeliv n) 0) (rPvLink n 0) 32) s
  { s with ob := { s.ob with chains := [] } }

/-- The warp plane at an image load (R185, spec/05): tokens, skeins, q1-q7, mark words, slot VALID bits and block accumulators
cleared, fault rings emptied. -/
def clearWarpPlane (s : State) : State :=
  { s with warp := {}, marks := []
           tile := { s.tile with side := [], bacc := [], flt := [], fltOldest := [], fltSeen := [] } }

/-- LD_STATUS of a completed load: MODIFIED and ERROR clear. -/
def ldDone (s : State) (equalised signed weightsOnly : Bool) : State :=
  setRegN s rLdStatus (2 ^ 31 + 2 ^ 29 * b2n equalised + 2 ^ 27 * b2n signed + 2 ^ 26 * b2n weightsOnly)

/-- The weft tables of an image (R294): job programs, channels, sequences, WF_ECLASS0-15. -/
def publishWeft (b : List Byte) (s : State) : State :=
  match imgFind b 9 0xFFFF with
  | some x => writeJobs s (sectData b x)
  | none => s

/-- The completion of a load (R294): planes, WP_CFG, WP_LAT, the weft tables, working copies of the scale records, the digests
that the write pass recomputed, LOADED. -/
def publishImage (b : List Byte) (signed : Bool) (s : State) : State :=
  let wo := imgWeightsOnly b
  let i : Image := match wo, s.image with
    | true, some old => { old with weightDigest := weightDigestOf b }
    | _, _ => { imgKeep b with progDigest := progDigestOf b, weightDigest := weightDigestOf b }
  let s := { s with image := some i }
  let s := if wo then s else publishWeft b (publishWarp s i)
  let s := clearProv (clearWarpPlane (restoreRecords s (fun _ => true)))
  let s := publishDigests s i
  let s := setRegN (setRegN s rLdInfo (i.lt * 2 ^ 24 + i.tiles)) rLdFrame i.framePulses
  ldDone s (i.lt == 1 && !s.fuse.stepA0) signed wo

end Sys2Proof.Machine
end

