-- ==== Sys2Proof/Machine/Warp.lean ====
section
/-! DEFINITION. The commands of the warp plane (spec/06): the operations of the M, V, X and C slots (R159-R162), the
Heddle's commands (R168-R173), warp flits (spec/07 R188, R192) and the release of fault records (R180). Results stand
after the latencies of R166 and R167; operands are read, and skeins popped, as the operation issues. -/

namespace Sys2Proof.Machine

/-! ### M slot (R159) -/

/-- DESC_INVALID (R552). -/
def descInvalid (s : State) (w : WarpSite) (unit : Nat) : State := warpFault s w 0x0209 unit 0 0 none none

/-- A step that has read its operands (R122, R166): a macro check and a non-finite weight block are reported for the frame, and
the result enters the bank after the latency of the MXR. -/
def stepIssued (o : StepOut) (d : StepDesc) (w : WarpSite) : State :=
  let s := match o.mism with
    | (_, m, p, g) :: _ => warpFault o.st w 0x0220 0 m (p + 8 * g) none none
    | [] => o.st
  let s := match o.nonfinite with
    | some m => warpFault (setRegBit s (rTileArith w.t) 10 true) w 0x0222 0 m 0 none none
    | none => s
  later s (stepLatency d) w (.step o.work)

/-- Block `i` of a warp step read (R132-R134): a slip is counted and recorded, a non-finite block marked (R114). -/
def warpBlock (w : WarpSite) (d : StepDesc) (bad : List Nat) (sb : State × List BlockIn) (i : Nat) :
    State × List BlockIn :=
  let s := sb.1
  let t := w.t
  let n := d.bseq + i
  let da := blockSlot d.ring d.ringlen n
  let sa := scaleSlot d.sring d.ringlen n
  let (b, uf, nf) := readBlock s t d n bad
  let m := (stepMacros d).getD (i / 3) 0
  let s1 := if b.slip then
      warpFault (countUp s (rTileSlipCnt t) 1) w 0x0228 7 m 0 (some (n % 16)) (some (slotsObserved s t da sa))
    else s
  let s2 := countUp s1 (rTileUflowCnt t) uf
  let s3 := if nf then warpFault (setRegBit s2 (rTileArith t) 10 true) w 0x0222 0 m 0 none none else s2
  (clearSlots s3 t da sa, sb.2 ++ [b])

/-- One step under step descriptor `sd` (R101-R107, R128, R552). -/
def warpStep (s : State) (w : WarpSite) (sd : Nat) (bad : List Nat) (ups : List CellUpset) : State :=
  let t := w.t
  let bytes := tsReadBad s t bad (16 * regF s (rWtDescBase t) 14 0 + 32 * sd) 32
  let d := stepDesc bytes
  let sets := (stepMacros d).map (fun m => (m, d.base, d.wfmt))
  if !stepDescOk true bytes || !sets.all (fun x => setLayoutOk s t x.1 d.base d.wfmt && setValid s t x.1 d.base d.wfmt)
      || (d.block && !outersOk s t d bad) then descInvalid s w 0
  else if d.block then
    let (s1, blocks) := (List.range (3 * sets.length)).foldl (warpBlock w d bad) (s, [])
    stepIssued (blockStep s1 t d sets blocks bad ups) d w
  else stepIssued (intStep s t d sets bad ups) d w

/-- WARP_MXR (R159). A slot that is not enabled writes nothing. `ups` lists cells that read wrong in the step. -/
def execWarpMxr (w : WSlot) (sd : Nat) (ups : List CellUpset) (s : State) : Host.Outcome State Fault Refusal :=
  onUnit 256 (tileCount s) w.tile s fun s => warpSlot w 0 w.lag (fun x => x.mop == 1 && x.sd == sd) s fun s site en =>
    if en then warpStep s site (sd % 64) w.bad ups else s

/-- WARP_MXC (R159). -/
def execWarpMxc (w : WSlot) (bank : Nat) (s : State) : Host.Outcome State Fault Refusal :=
  onUnit 256 (tileCount s) w.tile s fun s => warpSlot w 0 w.lag (fun x => x.mop == 2 && x.bank == bank) s fun s site en =>
    if en then later s 1 site (.clear (bank % 4)) else s

/-! ### V slot (R160, R165) -/

/-- A vector descriptor. -/
structure VecDesc where
  srca : Nat
  srcb : Nat
  dst : Nat
  tsr : Nat
  factor : Nat
  ctrl : Nat
deriving DecidableEq, Repr

/-- Vector descriptor `vd` of tile `t`. -/
def vecDesc (s : State) (t vd : Nat) (bad : List Nat) : VecDesc :=
  let b := tsReadBad s t bad (16 * regF s (rWtDescBase t) 30 16 + 16 * vd) 16
  ⟨16 * leAt b 0 2, 16 * leAt b 2 2, 16 * leAt b 4 2, 16 * leAt b 6 2, leAt b 8 4, leAt b 12 4⟩

/-- The accumulated FP flags of a vector operation: sticky in TILE_ARITH; invalid and overflow mark the frame (R122). -/
def warpFlags (s : State) (w : WarpSite) (fl : Nat) : State :=
  let s := setF s (rTileArith w.t) 4 0 (regF s (rTileArith w.t) 4 0 ||| fl)
  if bitN fl 0 || bitN fl 2 then markFrame s w.frame (2 ^ 8) else s

/-- Results of 64 lanes with the OR of their flags. -/
def laneResults (rs : List (Nat × Nat)) : List Nat × Nat := (rs.map (·.1), rs.foldl (fun f r => f ||| r.2) 0)

/-- A binary operation on BF16 pairs (R95). -/
def onPairs (f : Nat → Nat → Nat → Nat × Nat) (a b c : Nat) : Nat × Nat :=
  let lo := f (a % 2 ^ 16) (b % 2 ^ 16) (c % 2 ^ 16)
  let hi := f (a / 2 ^ 16) (b / 2 ^ 16) (c / 2 ^ 16)
  (lo.1 + hi.1 * 2 ^ 16, lo.2 ||| hi.2)

/-- The vector descriptor holds no reserved value in CTRL, and the tile-store addresses `as` that the operation uses lie below
32,768 units (R158, R165, R552). The reserved bits of CTRL count for every operation (log entry 95). -/
def vecDescOk (d : VecDesc) (as : List Nat) : Bool :=
  fld d.ctrl 11 11 == 0 && decide (d.ctrl < 2 ^ 16) && as.all (fun a => decide (a < tsSize))

/-- A V slot command: `op` under the descriptor, where the sequencer issues operation `vop` with the fields that `holds` names and
the slot is enabled. A descriptor with a reserved value in a field that the operation uses, as `ok` says, does nothing
(R552). -/
def vSlot (w : WSlot) (vop vd : Nat) (holds : PickWord → Bool) (ok : State → Nat → VecDesc → Bool) (s : State)
    (op : State → WarpSite → VecDesc → State) : Host.Outcome State Fault Refusal :=
  onUnit 256 (tileCount s) w.tile s fun s =>
    warpSlot w 1 w.lag (fun x => x.vop == vop && x.vd == vd && holds x) s fun s site en =>
      let d := vecDesc s site.t (vd % 64) w.bad
      if !en then s else if !ok s site.t d then descInvalid s site 1 else op s site d

/-- A V slot operation with no operand but its descriptor, which uses SRCA and DST. -/
def vMove (w : WSlot) (vop vd : Nat) (s : State) (op : State → WarpSite → VecDesc → State) :
    Host.Outcome State Fault Refusal :=
  vSlot w vop vd (fun _ => true) (fun _ _ d => vecDescOk d [d.srca, d.dst]) s op

/-- Bytes that V slot operation `vop` writes at its DST, in place after its latency. -/
def vStore (s : State) (vop : Nat) (w : WarpSite) (a : Nat) (bs : List Byte) : State :=
  later s (vLatency (imageLt s) vop) w (.store a bs)

/-- An elementwise operation on the lanes at SRCA, SRCB and DST into DST: FP32, or BF16 pairs when CTRL.BF16 is 1. -/
def vElement (w : WSlot) (vop vd : Nat) (f16 f : Nat → Nat → Nat → Nat × Nat) (s : State) :
    Host.Outcome State Fault Refusal :=
  vSlot w vop vd (fun _ => true) (fun _ _ d => vecDescOk d [d.srca, d.srcb, d.dst]) s fun s site d =>
    let a := tsElems s site.t w.bad d.srca 32 64
    let b := tsElems s site.t w.bad d.srcb 32 64
    let c := tsElems s site.t w.bad d.dst 32 64
    let g := if bitN d.ctrl 4 then onPairs f16 else f
    let r := laneResults ((List.range 64).map (fun i => g (a.getD i 0) (b.getD i 0) (c.getD i 0)))
    warpFlags (vStore s vop site d.dst (packElems 32 r.1)) site r.2

/-- WARP_ADD. -/
def execWarpAdd (w : WSlot) (vd : Nat) (s : State) : Host.Outcome State Fault Refusal :=
  vElement w 0x04 vd (fun a b _ => fadd bf16 a b) (fun a b _ => fadd f32 a b) s
/-- WARP_MUL. -/
def execWarpMul (w : WSlot) (vd : Nat) (s : State) : Host.Outcome State Fault Refusal :=
  vElement w 0x05 vd (fun a b _ => fmul bf16 a b) (fun a b _ => fmul f32 a b) s
/-- WARP_FMA: SRCA × SRCB + DST. -/
def execWarpFma (w : WSlot) (vd : Nat) (s : State) : Host.Outcome State Fault Refusal :=
  vElement w 0x06 vd (ffma bf16 bf16) (ffma f32 f32) s
/-- WARP_MAX. -/
def execWarpMax (w : WSlot) (vd : Nat) (s : State) : Host.Outcome State Fault Refusal :=
  vElement w 0x07 vd (fun a b _ => fmax bf16 a b) (fun a b _ => fmax f32 a b) s
/-- WARP_MIN. -/
def execWarpMin (w : WSlot) (vd : Nat) (s : State) : Host.Outcome State Fault Refusal :=
  vElement w 0x08 vd (fun a b _ => fmin bf16 a b) (fun a b _ => fmin f32 a b) s

/-- A function of the FP32 lanes at SRCA into DST (R118). -/
def vFunction (w : WSlot) (vop vd : Nat) (f : Nat → Nat × Nat) (s : State) : Host.Outcome State Fault Refusal :=
  vMove w vop vd s fun s site d =>
    let r := laneResults ((tsElems s site.t w.bad d.srca 32 64).map f)
    warpFlags (vStore s vop site d.dst (packElems 32 r.1)) site r.2

/-- EXP2 (R118). -/
def execExp2 (w : WSlot) (vd : Nat) (s : State) : Host.Outcome State Fault Refusal := vFunction w 0x09 vd fexp2 s
/-- LOG2 (R118). -/
def execLog2 (w : WSlot) (vd : Nat) (s : State) : Host.Outcome State Fault Refusal := vFunction w 0x0A vd flog2 s
/-- RCP (R118). -/
def execRcp (w : WSlot) (vd : Nat) (s : State) : Host.Outcome State Fault Refusal := vFunction w 0x0B vd frcp s
/-- RSQ (R118). -/
def execRsq (w : WSlot) (vd : Nat) (s : State) : Host.Outcome State Fault Refusal := vFunction w 0x0C vd frsq s

/-- RED (R119): the tree sum of the lanes at SRCA at DST. -/
def execRed (w : WSlot) (vd : Nat) (s : State) : Host.Outcome State Fault Refusal :=
  vMove w 0x0D vd s fun s site d =>
    let r := fred (tsElems s site.t w.bad d.srca 32 64)
    warpFlags (vStore s 0x0D site d.dst (leBytes 4 r.1)) site r.2

/-- PSET (R160): q[PD] from the comparison of the lanes at SRCA with FACTOR. A reserved CMP does nothing (R552). -/
def execPset (w : WSlot) (vd pd : Nat) (s : State) : Host.Outcome State Fault Refusal :=
  vSlot w 0x0E vd (fun x => x.pd == pd) (fun _ _ d => vecDescOk d [d.srca] && decide (fld d.ctrl 8 6 ≤ 3)) s fun s site d =>
    let cmp := fld d.ctrl 8 6
    let xs := tsElems s site.t w.bad d.srca 32 64
    let hits := xs.map (fun x => fcmp cmp x d.factor)
    let s := warpFlags s site (xs.foldl (fun fl x => fl ||| fcmpFlags x d.factor) 0)
    let v := if bitN d.ctrl 5 then hits.all id else hits.any id
    if pd % 8 = 0 then s else later s (vLatency (imageLt s) 0x0E) site (.pred (pd % 8) v)

/-- MOVV (R160): 256 bytes from SRCA to DST. -/
def execMovv (w : WSlot) (vd : Nat) (s : State) : Host.Outcome State Fault Refusal :=
  vMove w 0x0F vd s fun s site d => vStore s 0x0F site d.dst (tsReadBad s site.t w.bad d.srca 256)

/-- The lanes HALF of bank CTRL.BANK. -/
def halfLanes (s : State) (t : Nat) (d : VecDesc) (half : Nat) : List Nat :=
  (List.range 64).map (fun i => (accLane s t (fld d.ctrl 10 9) (64 * (half % 2) + i)).toNat)

/-- BMOV (R160): lanes HALF of the bank to DST as I32. -/
def execBmov (w : WSlot) (vd half : Nat) (s : State) : Host.Outcome State Fault Refusal :=
  vSlot w 0x10 vd (fun x => x.half == half) (fun _ _ d => vecDescOk d [d.dst]) s fun s site d =>
    vStore s 0x10 site d.dst (packElems 32 (halfLanes s site.t d half))

/-- The conversion of R165: source bits, target bits, the function; none for a reserved code. -/
def cvtPair (fmt : Nat) : Option (Nat × Nat × (Nat → Nat × Nat)) :=
  match fmt with
  | 1 => some (32, 16, f32ToBf16)
  | 2 => some (32, 32, f32ToInt 32 (-2 ^ 31) (2 ^ 31 - 1))
  | 3 => some (32, 8, f32ToInt 8 (-128) 127)
  | 4 => some (32, 8, f32ToInt 8 0 255)
  | 5 => some (32, 4, f32ToInt 4 (-8) 7)
  | 6 => some (32, 2, f32ToInt 2 (-2) 1)
  | 7 => some (32, 8, f32ToF8 e4m3)
  | 8 => some (32, 8, f32ToF8 e5m2)
  | 9 => some (16, 32, fun b => (toF32 bf16 b, 0))
  | 10 => some (32, 32, i32ToF32)
  | 11 => some (8, 32, fun b => (toF32 e4m3 b, 0))
  | 12 => some (8, 32, fun b => (toF32 e5m2 b, 0))
  | _ => none

/-- CVT (R117, R165): 64 values at SRCA converted to DST, each side packed under R95. -/
def execCvt (w : WSlot) (vd : Nat) (s : State) : Host.Outcome State Fault Refusal :=
  vSlot w 0x03 vd (fun _ => true)
    (fun _ _ d => vecDescOk d [d.srca, d.dst] && (cvtPair (fld d.ctrl 15 12)).isSome) s fun s site d =>
    match cvtPair (fld d.ctrl 15 12) with
    | none => s
    | some (ws, wd, f) =>
      let r := laneResults ((tsElems s site.t w.bad d.srca ws 64).map f)
      warpFlags (vStore s 0x03 site d.dst (packElems wd r.1)) site r.2

/-! ### Quantisation (R139-R143, R147, R148) -/

/-- No execution in progress. -/
abbrev dExec : Nat → Option QuantExec := fun _ => none
/-- The execution in progress under the record at `a`. -/
def quantExec (s : State) (t a : Nat) : Option QuantExec := sget dExec s.warp.execs (2 ^ 19 * t + a)
/-- The execution in progress set. -/
def setQuantExec (s : State) (t a : Nat) (x : Option QuantExec) : State :=
  { s with warp := { s.warp with execs := sset dExec (2 ^ 19 * t + a) x s.warp.execs } }

/-- Missed blocks of a warp quantisation reported (R143). -/
def scaleMisses (s : State) (w : WarpSite) (n : Nat) : State :=
  if n = 0 then s
  else
    let fm := frameMark s w.frame
    let s := { s with marks := sset dMark w.frame { fm with smiss := satN 16 (fm.smiss + n) } s.marks }
    warpFault (countUp s (rTileMissCnt w.t) n) w 0x0229 1 0 0 none none

/-- A block with its scale entry on its way to the slots of block `n` of the execution (R131, R132, R165). -/
def sendBlock (s : State) (lat : Nat) (w : WarpSite) (r : ScaleRec) (n : Nat) (q : QBlock) : State :=
  let da := blockSlot r.ring r.ringlen n
  let sa := scaleSlot r.sring r.ringlen n
  let s := later s lat w (.store da (padTo 32 (packElems (qBits r.fmt) (q.elems.map (encI (qBits r.fmt))))))
  let s := later s lat w (.store sa (leBytes 2 (q.code + n % 16 * 2 ^ 8)))
  later (later s lat w (.slot da ⟨true, n % 16⟩)) lat w (.slot sa ⟨true, n % 16⟩)

/-- The execution of frame `w.frame` under record `r` at `a` that goes on; else a new one, whose outer scale is chosen and stored
with JUMP_LEFT (R132, R139). -/
def quantBegin (s : State) (lat : Nat) (w : WarpSite) (a : Nat) (r : ScaleRec) : State × QuantExec :=
  let fresh := fun (_ : Unit) =>
    let c := chooseOuter r
    let b := recBegin a c.2
    (later s lat w (.store b.1 b.2), ⟨w.frame, 0, c.1, 0, false⟩)
  match quantExec s w.t a with
  | some x => if x.frame = w.frame then (s, x) else fresh ()
  | none => fresh ()

/-- The end of an execution of frame `w.frame` under record `r` at `a` (R141). -/
def quantEnd (s : State) (lat : Nat) (w : WarpSite) (a : Nat) (r : ScaleRec) (x : QuantExec) : State :=
  setQuantExec ((recEnd a r x.amax x.missed).foldl (fun s b => later s lat w (.store b.1 b.2)) s) w.t a none

/-- A quantiser's non-finite inputs (R147): flags, and cause 0x022A for the frame. -/
def quantNonfinite (s : State) (w : WarpSite) (ys : List Nat) : State :=
  let s := warpFlags s w (nonfiniteFlags ys)
  if anyNonfinite ys then warpFault s w 0x022A 1 0 0 none none else s

/-- 64 values quantised under the record at `d.tsr` by operation `vop` (R137-R143, R147): in block mode two blocks of the
execution, with its beginning and its end; in integer mode the codes at DST. -/
def warpQuant (s : State) (vop : Nat) (w : WarpSite) (d : VecDesc) (ys : List Nat) (bad : List Nat) : State :=
  let t := w.t
  let lat := vLatency (imageLt s) vop
  let bytes := tsReadBad s t bad d.tsr 96
  let r := scaleRec bytes
  if !scaleRecOk false bytes then warpFault s w 0x022B 1 0 0 none none
  else if !r.block then
    let q := quantInt r.fmt r.outer r.zp ys
    quantNonfinite (countUp (vStore s vop w d.dst (packElems (qBits r.fmt) (q.1.map (encI (qBits r.fmt)))))
      (rTileUflowCnt t) q.2) w ys
  else
    let (s, x) := quantBegin s lat w d.tsr r
    let q0 := quantBlock r.fmt x.outer (ys.take 32)
    let q1 := quantBlock r.fmt x.outer (ys.drop 32)
    let s := sendBlock (sendBlock s lat w r x.next q0) lat w r (x.next + 1) q1
    let x' : QuantExec :=
      { x with next := x.next + 2, amax := max x.amax (blockAmax r.fmt ys), missed := x.missed || q0.missed || q1.missed }
    let s := if bitN d.ctrl 3 then quantEnd s lat w d.tsr r x' else setQuantExec s t d.tsr (some x')
    let s := countUp s (rTileUflowCnt t) (q0.uflow + q1.uflow)
    scaleMisses (quantNonfinite s w ys) w (b2n q0.missed + b2n q1.missed)

/-- The descriptor of a QNT or REQ: the record at TSR, what else it reads, and DST where the record is not in block mode
(R165, R552). -/
def quantDescOk (d : VecDesc) (more : List Nat) (s : State) (t : Nat) : Bool :=
  vecDescOk d (d.tsr :: more)
    && (decide (d.dst < tsSize) || (scaleRec (tsRead s t d.tsr 96)).block)

/-- QNT (R160): 64 FP32 values at SRCA. -/
def execQnt (w : WSlot) (vd : Nat) (s : State) : Host.Outcome State Fault Refusal :=
  vSlot w 0x02 vd (fun _ => true) (fun s t d => quantDescOk d [d.srca] s t) s fun s site d =>
    warpQuant s 0x02 site d (tsElems s site.t w.bad d.srca 32 64) w.bad

/-- One lane requantised (R148 steps 1-3): from I32 unless the bank is in block mode, times FACTOR, plus the bias, ReLU. -/
def requantLane (blockMode : Bool) (factor : Nat) (bias : Option Nat) (relu : Bool) (x : Nat) : Nat × Nat :=
  let a := if blockMode then (x, 0) else i32ToF32 x
  let b := fmul f32 a.1 factor
  let c := match bias with | some v => fadd f32 b.1 v | none => (b.1, 0)
  let e := if relu then fmax f32 c.1 0 else (c.1, 0)
  (e.1, a.2 ||| b.2 ||| c.2 ||| e.2)

/-- REQ (R148, R160): lanes HALF of the bank requantised under the record at TSR. A reserved ACT does nothing (R552). -/
def execReq (w : WSlot) (vd half : Nat) (s : State) : Host.Outcome State Fault Refusal :=
  vSlot w 0x01 vd (fun x => x.half == half)
    (fun s t d => quantDescOk d (if bitN d.ctrl 2 then [d.srcb] else []) s t && decide (fld d.ctrl 1 0 ≤ 1)) s
    fun s site d =>
      let bias := tsElems s site.t w.bad d.srcb 32 64
      let mode := sget dFalse s.tile.bmode (4 * site.t + fld d.ctrl 10 9)
      let ls := halfLanes s site.t d half
      let r := laneResults ((List.range 64).map (fun i =>
        requantLane mode d.factor (if bitN d.ctrl 2 then some (bias.getD i 0) else none) (fld d.ctrl 1 0 == 1)
          (ls.getD i 0)))
      let s := if scaleRecOk false (tsReadBad s site.t w.bad d.tsr 96) then warpFlags s site r.2 else s
      warpQuant s 0x01 site d r.1 w.bad

/-! ### X slot (R161) -/

/-- An X slot command: `op` where the sequencer issues operation `xop` with the fields that `holds` names. -/
def xSlot (w : WSlot) (xop : Nat) (holds : PickWord → Bool) (s : State) (op : State → WarpSite → Bool → State) :
    Host.Outcome State Fault Refusal :=
  onUnit 256 (tileCount s) w.tile s fun s => warpSlot w 2 w.lag (fun x => x.xop == xop && holds x) s op

/-- SEND (R161): LEN bytes from ADDR as a burst in the cycle after issue; zeros when the slot is not enabled (R157). -/
def execSend (w : WSlot) (addr len tag : Nat) (s : State) : Host.Outcome State Fault Refusal :=
  xSlot w 1 (fun x => x.addr == addr && x.len == len && x.tag == tag) s fun s site en =>
    let n := lenBytes len
    let bs := if en then tsReadBad s site.t w.bad (16 * addr) n else zeros n
    launchBurst s site.t (nowCycle s + 1) (tag % 16) site.frame bs

/-- SKPUSH (R161): LEN bytes from ADDR onto skein `sk`, after the pops of its REED cycle (R175). -/
def execSkpush (w : WSlot) (addr len sk : Nat) (s : State) : Host.Outcome State Fault Refusal :=
  xSlot w 2 (fun x => x.addr == addr && x.len == len && x.sk == sk) s fun s site en =>
    if en then
      sendLater s (nowCycle s + 1) site (.push (sk % 8) (tsReadBad s site.t w.bad (16 * addr) (lenBytes len)))
    else s

/-- SKPOP (R174): the head of skein `sk` into tile store at ADDR. -/
def execSkpop (w : WSlot) (addr sk : Nat) (s : State) : Host.Outcome State Fault Refusal :=
  xSlot w 3 (fun x => x.addr == addr && x.sk == sk) s fun s site en =>
    if en then
      let r := skeinPop site w.bad (sk % 8) 4 s
      later r.1 1 site (.store (16 * addr) r.2)
    else s

/-- SKSEND (R161): the head of skein `sk` popped and sent; a slot not enabled sends zeros and still pops (R157). -/
def execSksend (w : WSlot) (tag sk : Nat) (s : State) : Host.Outcome State Fault Refusal :=
  xSlot w 4 (fun x => x.tag == tag && x.sk == sk) s fun s site en =>
    let r := skeinPop site w.bad (sk % 8) 4 s
    launchBurst r.1 site.t (nowCycle r.1 + 1) (tag % 16) site.frame (if en then r.2 else zeros r.2.length)

/-! ### C slot (R162) -/

/-- HTK (R169): a token posted on `port`, active one REED cycle after issue; posted also when the slot is not enabled
(R157). Its served frame is that of the route's RLAG. A fifth pending token is discarded. -/
def execHtk (w : WSlot) (port route tag cnt slack : Nat) (s : State) : Host.Outcome State Fault Refusal :=
  onUnit 256 (tileCount s) w.tile s fun s =>
    warpSlot w 3 (regF s (rWtRoute w.tile (port % 4) (route % 15)) 23 16)
      (fun x => x.cop == 1 && x.cops == port * 2 ^ 14 + route * 2 ^ 10 + tag * 2 ^ 6 + cnt * 2 ^ 4 + slack) s
      fun s site _ =>
        let ts := tokens s site.t (port % 4)
        if 4 ≤ ts.length then warpFault s site 0x0203 4 (port % 4) (route % 15) none none
        else setTokens s site.t (port % 4)
          (ts ++ [⟨route % 15, tag % 16, cnt % 4 + 1, slack % 16, nowCycle s + 1, [], site.word, site.frame⟩])

/-- MARK (R162): UMASK ORed into the served frame's user mark byte. An uncorrectable word that holds no operation reaches the
slot as a MARK that is not enabled, so that its error counts and its frame is marked (R182). -/
def execMark (w : WSlot) (umask : Nat) (s : State) : Host.Outcome State Fault Refusal :=
  onUnit 256 (tileCount s) w.tile s fun s =>
    warpSlot w 3 w.lag (fun x => (x.cop == 2 && x.cops % 256 == umask) || ((w.pickBad || w.fixed != 0) && x.cop == 0)) s
      fun s site en =>
        if en && (pickAt s site.t site.word).cop == 2 then
          let fm := frameMark s site.frame
          { s with marks := sset dMark site.frame { fm with umark := fm.umark ||| umask % 256 } s.marks }
        else s

/-- SCO (R162): CNT bank lanes from 16 × LG to scores SC onward of a stream. -/
def execSco (w : WSlot) (bank lg cnt stream sc : Nat) (s : State) : Host.Outcome State Fault Refusal :=
  onUnit 256 (tileCount s) w.tile s fun s =>
    warpSlot w 3 w.lag
      (fun x => x.cop == 3 && x.cops == bank * 2 ^ 14 + lg * 2 ^ 11 + cnt * 2 ^ 8 + stream * 2 ^ 4 + sc) s fun s site en =>
      if en then
        (List.range (cnt % 8 + 1)).foldl (fun s k =>
          if 15 < sc % 16 + k then s
          else
            let v := (accLane s site.t (bank % 4) (16 * (lg % 8) + k)).toNat
            later s 2 site (.score (16 * (stream % 16) + sc % 16 + k) ⟨v, some site.frame⟩)) s
      else s

/-! ### Bursts -/

/-- The variant and the first REED cycle of the current frame period. -/
def periodSite (s : State) : Option (Nat × Nat) :=
  (periodStart s s.tb.tick).map (fun t => (phaseOf s t, cycleBase s t))

/-- Flits that an entry carries on: NCYC + 1 of them at most (R188). -/
def entryFlits (e : Nat) (f : Flit) : Nat := min (fld e 25 23 + 1) (burstFlits f)

/-- The copies of a burst that its entries make: each carries the flits of its NCYC. Flits that no entry carries are discarded
(R188, R189, R192). -/
def forwardBurst (s : State) (f : Flit) (es : List Nat) : State :=
  let lost := burstFlits f - es.foldl (fun n e => max n (entryFlits e f)) 0
  let s := if lost = 0 then s else raise (dropped s lost) 0x0403 f.router 0
  es.foldl (fun s e => followEntry s { f with payload := f.payload.take (16 * entryFlits e f) } e) s

/-- WARP_FLIT_ARRIVAL (R188, R192, R208, R210): the oldest burst that has come to an input of router `r` is forwarded as its
entries name while the slot tables are active; flits with no entry are discarded; `ecc` says 1 for a corrected flit, 2 for an
uncorrectable one, which is discarded. -/
def execWarpFlitArrival (r ecc : Nat) (s : State) : Host.Outcome State Fault Refusal :=
  onUnit 257 257 r s fun s =>
    match s.rd.flits.find? (fun f => f.router == r && decide (f.cyc ≤ nowCycle s)), periodSite s with
    | some f, some (phase, base) =>
      if !runActive s || !regBit s rRdStatus 16 then s
      else
        let s1 := { s with rd := { s.rd with flits := s.rd.flits.erase f } }
        let s1 := if ecc = 1 then countUpF s1 rRdEccCnt 15 0 1 else s1
        if ecc = 2 then raise (countUpF s1 rRdEccCnt 31 16 1) 0x0401 r 0
        else forwardBurst s1 f ((routerEntries s r).filter (fun e => entryTakes r e phase (f.cyc - base) f.port f.sub))
    | _, _ => s

/-- BURST_ARRIVAL (R170-R173): in a run, the oldest burst that has reached port `p` of tile `t` is steered. -/
def execBurstArrival (t p : Nat) (s : State) : Host.Outcome State Fault Refusal :=
  onUnit 256 (tileCount s) t s fun s =>
    match s.rd.arrived.find? (fun a => a.1 == t && a.2.1 == p && decide (a.2.2.cyc ≤ nowCycle s)), periodSite s with
    | some a, some (phase, base) =>
      if !runActive s then s
      else
        let s1 := { s with rd := { s.rd with arrived := s.rd.arrived.erase a } }
        steer s1 t p a.2.2 ((a.2.2.cyc - base) / 2) phase
    | _, _ => s

/-- TOKEN_EXPIRED (R173): in a run, pending token `i` of port `p` has passed a + SLACK with tags unmatched. -/
def execTokenExpired (t p i : Nat) (s : State) : Host.Outcome State Fault Refusal :=
  onUnit 256 (tileCount s) t s fun s =>
    match periodSite s, (tokens s t p)[i]? with
    | some (phase, base), some x =>
      if runActive s && decide (x.active + x.slack < nowCycle s) then expireToken s t p i phase base else s
    | _, _ => s

/-! ### Records and slack -/

/-- FAULT_RING_RELEASE (R180): the `n` oldest fault records of tile `t` are released. -/
def execFaultRingRelease (t n : Nat) (s : State) : Host.Outcome State Fault Refusal :=
  onUnit 256 (tileCount s) t s fun s => onBlock 2 s fun s =>
    let k := min n (faultRing s t).length
    { s with tile := { s.tile with
        flt := sset dRing t ((faultRing s t).drop k) s.tile.flt
        fltOldest := sset dNat t ((sget dNat s.tile.fltOldest t + k) % 128) s.tile.fltOldest } }

/-- WT_SLACK_CLR (R512): every slack register of tile `t` at its reset value. -/
def execWtSlackClr (t : Nat) (s : State) : Host.Outcome State Fault Refusal :=
  onUnit 256 (tileCount s) t s fun s => onBlock 2 s fun s => if planeOf s t == 1 then clearSlack s t else s

end Sys2Proof.Machine
end

