-- ==== Sys2Proof/Machine/ImageCheck.lean ====
section
/-! DEFINITION. The load checks of R283 (spec/10 R282-R290, R297). Each looks at a scratch state `w`: the device as the write
pass would leave it, with the image's declarations in place. -/

namespace Sys2Proof.Machine

/-! ### The program of a warp tile -/

/-- The step descriptor bytes `sd` of tile `t`. -/
def stepBytes (w : State) (t sd : Nat) : List Byte := tsRead w t (16 * regF w (rWtDescBase t) 14 0 + 32 * sd) 32

/-- The pick words of variant `v` of tile `t`, by pulse. -/
def variantWords (w : State) (t v : Nat) : List (Nat × PickWord) :=
  (List.range (imageP w)).map (fun i => (i, pickAt w t (v * imageP w + i)))

/-- Working pulses of a frame period. -/
def workPulses (b : List Byte) : Nat := imgFramePulses b - imgSelvage b

/-- The latency of the M slot in warp cycles (R166). -/
def mLatency (w : State) (t : Nat) (x : PickWord) : Nat :=
  match x.mop with
  | 1 => stepLatency (stepDesc (stepBytes w t x.sd))
  | 2 => 1
  | _ => 0

/-- The latency of the X slot. -/
def xLatency (xop : Nat) : Nat := if xop = 0 then 0 else 1
/-- The latency of the C slot: of SCO; a token becomes active within the pulse. -/
def cLatency (cop : Nat) : Nat := if cop = 3 then 2 else 0

/-- A token that an HTK of the program posts: pulse, port, route, first tag, bursts, activation cycle, last cycle. -/
structure HtkToken where
  pulse : Nat
  port : Nat
  route : Nat
  tag : Nat
  cnt : Nat
  first : Nat
  last : Nat
deriving DecidableEq, Repr

/-- The token of a pick word issued at pulse `i`. -/
def htkOf (i : Nat) (x : PickWord) : Option HtkToken :=
  if x.cop = 1 then
    some ⟨i, fld x.cops 15 14, fld x.cops 13 10, fld x.cops 9 6, fld x.cops 5 4 + 1, 2 * i + 1, 2 * i + 1 + fld x.cops 3 0⟩
  else none

/-- The tokens of variant `v` of tile `t`. -/
def variantTokens (w : State) (t v : Nat) : List HtkToken :=
  (variantWords w t v).filterMap (fun p => htkOf p.1 p.2)

/-- Every operation of the word completes within the working pulses, and its token expires there (R155). -/
def timesOk (b : List Byte) (w : State) (t i : Nat) (x : PickWord) : Bool :=
  let n := workPulses b
  decide (i + mLatency w t x ≤ n) && decide (i + vLatency (imgLt b) x.vop ≤ n) && decide (i + xLatency x.xop ≤ n)
    && decide (i + cLatency x.cop ≤ n)
    && (match htkOf i x with | some k => decide (k.last ≤ 2 * n) | none => true)

/-! ### Descriptors that the program names (R164, R165, R552) -/

/-- The vector descriptor of a V slot holds no reserved value in a field that its operation uses: the operation's addresses lie
below 32,768 units, and ACT, FMT and CMP are listed. -/
def vSlotDescOk (w : State) (t : Nat) (x : PickWord) : Bool :=
  let d := vecDesc w t x.vd []
  match x.vop with
  | 0x00 => true
  | 0x01 => quantDescOk d (if bitN d.ctrl 2 then [d.srcb] else []) w t && decide (fld d.ctrl 1 0 ≤ 1)
  | 0x02 => quantDescOk d [d.srca] w t
  | 0x03 => vecDescOk d [d.srca, d.dst] && (cvtPair (fld d.ctrl 15 12)).isSome
  | 0x04 => vecDescOk d [d.srca, d.srcb, d.dst]
  | 0x05 => vecDescOk d [d.srca, d.srcb, d.dst]
  | 0x06 => vecDescOk d [d.srca, d.srcb, d.dst]
  | 0x07 => vecDescOk d [d.srca, d.srcb, d.dst]
  | 0x08 => vecDescOk d [d.srca, d.srcb, d.dst]
  | 0x0E => vecDescOk d [d.srca] && decide (fld d.ctrl 8 6 ≤ 3)
  | 0x10 => vecDescOk d [d.dst]
  | _ => vecDescOk d [d.srca, d.dst]

/-- The descriptors of a pick word are legal. -/
def wordDescsOk (w : State) (t : Nat) (x : PickWord) : Bool :=
  (if x.mop = 1 then stepDescOk true (stepBytes w t x.sd) else true)
    && vSlotDescOk w t x

/-- The weight sets of a step descriptor keep R97 and are written (R122). -/
def stepSetsOk (w : State) (t sd : Nat) : Bool :=
  let d := stepDesc (stepBytes w t sd)
  (stepMacros d).all (fun m => setLayoutOk w t m d.base d.wfmt && setValid w t m d.base d.wfmt)

/-- A block-mode step descriptor has no zero point (R142). -/
def stepZeroOk (w : State) (t sd : Nat) : Bool :=
  let d := stepDesc (stepBytes w t sd)
  !d.block || (d.za == 0 && d.zw == 0)

/-! ### Two results in one byte in one cycle (R163) -/

/-- A result: the cycle in which it lands, its first byte, its length. -/
structure Landing where
  cyc : Nat
  lo : Nat
  len : Nat
deriving DecidableEq, Repr

/-- What a REQ or QNT writes (R163, R165): blocks `n` and `n + 1` with their scale entries and the fields of the record, or
the codes at DST. -/
def quantLandings (w : State) (t c n : Nat) (d : VecDesc) : List Landing :=
  let r := scaleRec (tsRead w t d.tsr 96)
  if r.block then
    [⟨c, blockSlot r.ring r.ringlen n, 32⟩, ⟨c, blockSlot r.ring r.ringlen (n + 1), 32⟩
    , ⟨c, scaleSlot r.sring r.ringlen n, 2⟩, ⟨c, scaleSlot r.sring r.ringlen (n + 1), 2⟩]
      ++ (match decide (n = 0), bitN d.ctrl 3 with
          | true, true => [⟨c, d.tsr + 12, 7⟩, ⟨c, d.tsr + 32, 64⟩]
          | true, false => [⟨c, d.tsr + 12, 6⟩]
          | false, true => [⟨c, d.tsr + 16, 3⟩, ⟨c, d.tsr + 32, 64⟩]
          | false, false => [])
  else [⟨c, d.dst, ceilDiv (64 * qBits r.fmt) 8⟩]

/-- What the V slot of a word writes, landing in cycle `c`; `n` is the next block of its execution. -/
def vLandings (w : State) (t c n : Nat) (x : PickWord) : List Landing :=
  let d := vecDesc w t x.vd []
  match x.vop with
  | 0x00 => []
  | 0x01 => quantLandings w t c n d
  | 0x02 => quantLandings w t c n d
  | 0x03 => match cvtPair (fld d.ctrl 15 12) with
    | some (_, wd, _) => [⟨c, d.dst, ceilDiv (64 * wd) 8⟩]
    | none => []
  | 0x0D => [⟨c, d.dst, 4⟩]
  | 0x0E => []
  | _ => [⟨c, d.dst, 256⟩]

/-- What the X slot of a word writes; a push may land anywhere in its ring (log entry 31). -/
def xLandings (w : State) (t i : Nat) (x : PickWord) : List Landing :=
  match x.xop with
  | 2 => [⟨i + 1, skeinAddr w t x.sk 0, skeinWidth w t x.sk * skeinDepth w t x.sk⟩]
  | 3 => [⟨i + 1, 16 * x.addr, skeinWidth w t x.sk⟩]
  | _ => []

/-- Blocks that the words before pulse `i` have added to the execution under the record at `tsr`. -/
def blocksBefore (w : State) (t tsr : Nat) (ws : List (Nat × PickWord)) (i : Nat) : Nat :=
  ws.foldl (fun n p =>
    let d := vecDesc w t p.2.vd []
    if decide (p.1 < i) && (p.2.vop == 1 || p.2.vop == 2) && d.tsr == tsr then (if bitN d.ctrl 3 then 0 else n + 2)
    else n) 0

/-- Everything that the slots of the word at pulse `i` write. -/
def wordLandings (b : List Byte) (w : State) (t : Nat) (ws : List (Nat × PickWord)) (p : Nat × PickWord) : List Landing :=
  let n := blocksBefore w t (vecDesc w t p.2.vd []).tsr ws p.1
  vLandings w t (p.1 + vLatency (imgLt b) p.2.vop) n p.2 ++ xLandings w t p.1 p.2

/-- Two results land in one byte in one cycle. -/
def clash (x y : Landing) : Bool := x.cyc == y.cyc && !apart x.lo x.len y.lo y.len

/-- Some two entries of the list clash. -/
def anyClash : List Landing → Bool
  | [] => false
  | x :: r => r.any (clash x) || anyClash r

/-- The word at pulse `i` brings a result that clashes with one of its own or of an earlier word. -/
def wordClashes (b : List Byte) (w : State) (t : Nat) (ws : List (Nat × PickWord)) (p : Nat × PickWord) : Bool :=
  let own := wordLandings b w t ws p
  anyClash own || (ws.filter (fun q => decide (q.1 < p.1))).any (fun q =>
    (wordLandings b w t ws q).any (fun y => own.any (clash y)))

/-! ### Bursts of the program as the slot tables carry them -/

/-- A burst that a slot entry ejects: router, port, cycle of arrival, index of the entry. -/
structure Eject where
  router : Nat
  port : Nat
  cyc : Nat
  idx : Nat
deriving DecidableEq, Repr

/-- Where a burst at an input of a router in cycle `c` ends, by fuel (R188, R189). -/
def traceBurst (w : State) (v : Nat) : Nat → Nat → Nat → Nat → Nat → List Eject
  | 0, _, _, _, _ => []
  | fuel + 1, r, port, sub, c =>
    ((indexedEntries w r).filter (fun e => entryTakes r e.2 v c port sub)).flatMap (fun e =>
      if r ≠ 256 ∧ fld e.2 33 28 = 4 then [⟨r, port, c + fld e.2 25 23, e.1⟩]
      else match nextInput r (fld e.2 33 28) with
        | some (r', p', d) => traceBurst w v fuel r' p' (fld e.2 27 26) (c + d)
        | none => [])

/-- A burst of the program: sending tile, pulse, tag, bytes. -/
structure SendOp where
  tile : Nat
  pulse : Nat
  tag : Nat
  len : Nat
deriving DecidableEq, Repr

/-- The bursts of variant `v`. -/
def variantSends (w : State) (v : Nat) : List SendOp :=
  (warpTiles w).flatMap (fun t => (variantWords w t v).filterMap (fun p =>
    if p.2.xop = 1 then some ⟨t, p.1, p.2.tag, lenBytes p.2.len⟩
    else if p.2.xop = 4 then some ⟨t, p.1, p.2.tag, skeinWidth w t p.2.sk⟩ else none))

/-- The arrivals of variant `v` with their bursts. -/
def variantArrivals (w : State) (v : Nat) : List (SendOp × Eject) :=
  (variantSends w v).flatMap (fun x => (traceBurst w v 128 x.tile 4 0 (2 * x.pulse + 1)).map (fun e => (x, e)))

/-- The token that takes an arrival (R170, R172). -/
def takenBy (w : State) (v : Nat) (x : SendOp) (e : Eject) : Option HtkToken :=
  (variantTokens w e.router v).find? (fun k => k.port == e.port && decide (k.first ≤ e.cyc) && decide (e.cyc ≤ k.last)
    && decide ((x.tag + 16 - k.tag) % 16 < k.cnt))

/-- An eject entry applies in variant `v`, on a router of a tile. -/
def ejectsIn (r e v : Nat) : Bool := decide (r < 256) && fld e 33 28 == 4 && (bitN e 62 || fld e 61 56 == v)

/-- The arrival that an eject entry fixes meets a token of the program, whose route fits the burst, whether or not a SEND of the
program reaches it (R189). -/
def ejectOk (w : State) (r e v : Nat) : Bool :=
  let c := fld e 55 42 + fld e 25 23
  (variantTokens w r v).any (fun k =>
    let route := rWtRoute r k.port k.route
    k.port == fld e 41 36 && decide (k.first ≤ c) && decide (c ≤ k.last) && regBit w route 31
      && lenBytes (regF w route 25 24) == 16 * (fld e 25 23 + 1))

/-- The arrival of a burst of the program meets a token that expects its tag, and its route fits the burst (R189). -/
def arrivalOk (w : State) (v : Nat) (x : SendOp) (e : Eject) : Bool :=
  match takenBy w v x e with
  | none => false
  | some k =>
    let c := rWtRoute e.router k.port k.route
    regBit w c 31 && lenBytes (regF w c 25 24) == x.len

/-- Every burst that a local entry takes has the length that its NCYC gives (R188). -/
def localLenOk (w : State) (r e v : Nat) : Bool :=
  (variantSends w v).all (fun x => x.tile != r || 2 * x.pulse + 1 != fld e 55 42 || x.len == 16 * (fld e 25 23 + 1))

/-- A burst that the token of the word at pulse `i` may take is not readable within the working pulses (R155). Its word is named,
the token being the part of the Heddle write that the program holds (log entry 95). -/
def readableLate (b : List Byte) (w : State) (t v i : Nat) (x : PickWord) : Bool :=
  match htkOf i x with
  | none => false
  | some k => (indexedEntries w t).any (fun e =>
      let c := fld e.2 55 42 + fld e.2 25 23
      ejectsIn t e.2 v && fld e.2 41 36 == k.port && decide (k.first ≤ c) && decide (c ≤ k.last)
        && decide (2 * workPulses b < c + lt21 (imgLt b)))

/-! ### CODE sections of warp tiles -/

/-- The first load error of pick word `i` of variant `v`: ENCODING, then SCHEDULE; cause and detail. -/
def wordErr (b : List Byte) (w : State) (t v : Nat) (ws : List (Nat × PickWord)) (p : Nat × PickWord) :
    Option (Nat × Nat) :=
  let j := v * imageP w + p.1
  if !pickLegal (imgL b) p.2 || !wordDescsOk w t p.2 then some (0x0B88, j)
  else if !timesOk b w t p.1 p.2 || wordClashes b w t ws p || readableLate b w t v p.1 p.2 then some (0x0B89, j)
  else none

/-- Step descriptors that the program of tile `t` names. -/
def usedSteps (w : State) (t : Nat) : List Nat :=
  (List.range 64).filter (fun sd => (List.range (imageH w)).any (fun v =>
    (variantWords w t v).any (fun p => p.2.mop == 1 && p.2.sd == sd)))

/-- Records that REQ and QNT of tile `t` name. -/
def usedRecords (w : State) (t : Nat) : List Nat :=
  ((List.range (imageH w)).map (fun v => (variantWords w t v).filterMap (fun p =>
    if p.2.vop = 1 ∨ p.2.vop = 2 then some (vecDesc w t p.2.vd []).tsr else none))).flatten

/-- A CODE section (R158-R163, R155, R97, R122, R137, R142). -/
def codeErr (b : List Byte) (w : State) (t : Nat) : Option (Nat × Nat) :=
  if planeOf w t ≠ 1 then none
  else
    match (List.range (imageH w)).findSome? (fun v =>
      let ws := variantWords w t v
      ws.findSome? (wordErr b w t v ws)) with
    | some e => some e
    | none => match (usedSteps w t).find? (fun sd => !stepSetsOk w t sd) with
      | some sd => some (0x0B8A, sd)
      | none => match (usedSteps w t).find? (fun sd => !stepZeroOk w t sd) with
        | some sd => some (0x0B8B, 16 * regF w (rWtDescBase t) 14 0 + 32 * sd)
        | none => ((usedRecords w t).find? (fun a => !scaleRecOk false (tsRead w t a 96))).map (fun a => (0x0B8B, a))

/-! ### WARPCFG sections (R168, R174, R176) -/

/-- A route word is legal: no reserved bit or KIND; the default route steers to tile store or discards. -/
def routeOk (w : State) (t p r : Nat) : Bool :=
  let c := rWtRoute t p r
  !regBit w c 15 && regF w c 30 29 != 3 && (r != 15 || regF w c 30 29 == 0 || regF w c 30 29 == 2)

/-- Route `r` of port `p` is named by a token of tile `t`. -/
def routeNamed (w : State) (t p r : Nat) : Bool :=
  (List.range (imageH w)).any (fun v => (variantTokens w t v).any (fun k => k.port == p && k.route == r))

/-- The route detail of the first bad route of tile `t`. -/
def routeErr (w : State) (t : Nat) : Option Nat :=
  ((List.range 64).find? (fun k =>
    !routeOk w t (k / 16) (k % 16) || (routeNamed w t (k / 16) (k % 16) && !regBit w (rWtRoute t (k / 16) (k % 16)) 31))).map
    (fun k => 0x80000000 + k)

/-- Every push onto skein `k` and every route to it has its width, and the skein is enabled where it is used. -/
def skeinUseOk (w : State) (t k : Nat) : Bool :=
  (List.range (imageH w)).all (fun v => (variantWords w t v).all (fun p =>
    (p.2.xop != 2 || p.2.sk != k || (regBit w (rWtSkeinCfg t k) 31 && lenBytes p.2.len == skeinWidth w t k))
      && (!(p.2.xop == 3 || p.2.xop == 4) || p.2.sk != k || regBit w (rWtSkeinCfg t k) 31)))
    && (List.range 60).all (fun r =>
      let c := rWtRoute t (r / 15) (r % 15)
      !(regBit w c 31 && regF w c 30 29 == 1 && regF w c 28 26 == k)
        || (regBit w (rWtSkeinCfg t k) 31 && lenBytes (regF w c 25 24) == skeinWidth w t k))

/-- The pushes and pops of skein `k` in variant `v` as (REED cycle, push, lag of the frame) (R176). -/
def skeinEvents (w : State) (t k v : Nat) : List (Nat × Bool × Nat) :=
  (variantWords w t v).filterMap (fun p =>
    if p.2.sk ≠ k then none
    else if p.2.xop = 2 then some (2 * p.1, true, p.2.lag)
    else if p.2.xop = 3 ∨ p.2.xop = 4 then some (2 * p.1, false, p.2.lag) else none)
  ++ (variantArrivals w v).filterMap (fun a =>
    if a.2.router ≠ t then none
    else match takenBy w v a.1 a.2 with
      | none => none
      | some x =>
        let c := rWtRoute t x.port x.route
        if regF w c 30 29 = 1 ∧ regF w c 28 26 = k then some (a.2.cyc, true, regF w c 23 16) else none)

/-- The fill of a skein after the events of one cycle, pops first (R175). -/
def skeinCycle (evs : List (Nat × Bool × Nat)) (period n c : Nat) : Nat :=
  let live := evs.filter (fun e => e.1 == c && decide (e.2.2 ≤ period))
  n - (live.filter (fun e => !e.2.1)).length + (live.filter (fun e => e.2.1)).length

/-- The fill of skein `k` after each frame period of a run and its largest value, followed for `n` frame periods from fill and
peak `a`, frame period `c` being the first. -/
def skeinFollow (b : List Byte) (w : State) (t k : Nat) (a : Nat × Nat) (c n : Nat) : Nat × Nat :=
  (List.range n).foldl (fun (a : Nat × Nat) i =>
    let evs := skeinEvents w t k ((c + i) % imageH w)
    (List.range (2 * workPulses b)).foldl (fun (a : Nat × Nat) cyc =>
      let n := skeinCycle evs (c + i - imgDelta b) a.1 cyc
      (n, max a.2 n)) a) a

/-- The pushes and pops would ever exceed the depth of skein `k` (R176): in the frame periods in which slots fall idle, in the
two hyperperiods after them, or, where a hyperperiod leaves more entries than it found, in some later one. -/
def skeinExceeds (b : List Byte) (w : State) (t k : Nat) : Bool :=
  let h := imageH w
  let first := skeinFollow b w t k (0, 0) 0 (imgDelta b + imgL b + h)
  let next := skeinFollow b w t k first (imgDelta b + imgL b + h) h
  decide (skeinDepth w t k < next.2) || decide (first.1 < next.1)

/-- The first skein of tile `t` whose use breaks R174 or R176. -/
def skeinErr (b : List Byte) (w : State) (t : Nat) : Option (Nat × Nat) :=
  ((List.range 8).find? (fun k => !skeinUseOk w t k
    || (regBit w (rWtSkeinCfg t k) 31 && skeinExceeds b w t k))).map (fun k => (0x0B8C, k))

/-- A WARPCFG section: routes, then skeins. -/
def warpcfgErr (b : List Byte) (w : State) (t : Nat) : Option (Nat × Nat) :=
  match routeErr w t with
  | some d => some (0x0B88, d)
  | none => skeinErr b w t

/-! ### SCALEREC sections (R137) -/

/-- The template lies in a TSTORE extent of the tile. -/
def inExtent (b : List Byte) (t a n : Nat) : Bool :=
  match imgFind b 3 t with
  | some x => (extents 0 (sectData b x)).1.any (fun e => decide (e.2.1 ≤ a) && decide (a + n ≤ e.2.1 + e.2.2))
  | none => false

/-- A SCALEREC section: the address of the first record that breaks R137. -/
def recordErr (b : List Byte) (w : State) (x : Sect) : Option (Nat × Nat) :=
  ((List.range (x.len / 8)).findSome? (fun i =>
    let work := leAt b (x.off + 8 * i) 4
    let tmpl := leAt b (x.off + 8 * i + 4) 4
    if work % 32 = 0 ∧ tmpl % 32 = 0 ∧ work + 96 ≤ tsSize ∧ inExtent b x.tile tmpl 96
        ∧ scaleRecOk (planeOf w x.tile != 1) (tsRead w x.tile tmpl 96) then none
    else some tmpl)).map (fun a => (0x0B8B, a))

/-! ### SLOTS sections (R186-R189, R193, R201) -/

/-- Two entries apply in a common variant. -/
def shareVariant (e f : Nat) : Bool := bitN e 62 || bitN f 62 || fld e 61 56 == fld f 61 56

/-- An entry alone keeps R186-R189: reserved bits, ports, subchannels, cycles, variant, an output that exists on this
device, no local loop. -/
def entryOk (b : List Byte) (r e : Nat) : Bool :=
  let out := fld e 33 28
  let spindle := r == 256 || (decide (r / 8 % 8 = 0) && out == 0)
  e % 2 ^ 23 == 0
    && (if r = 256 then decide (fld e 41 36 < 32) && decide (out < 32) && decide (fld e 35 34 ≤ 1)
        else decide (fld e 41 36 ≤ 4) && decide (out ≤ 4) && !(fld e 41 36 == 4 && out == 4))
    && (!spindle || decide (fld e 27 26 ≤ 1))
    && decide (fld e 55 42 + fld e 25 23 + 1 ≤ 2 * imgP b)
    && (bitN e 62 || decide (fld e 61 56 < imgH b))
    && ((r != 256 && out == 4) || (match nextInput r out with
          | some (r', _, _) => r' == 256 || decide (r' < imgTiles b)
          | none => false))

/-- Two entries of one router drive one output and subchannel in one cycle and variant. -/
def entriesClash (e f : Nat) : Bool :=
  fld e 33 28 == fld f 33 28 && fld e 27 26 == fld f 27 26 && shareVariant e f
    && !apart (fld e 55 42) (fld e 25 23 + 1) (fld f 55 42) (fld f 25 23 + 1)

/-- Entry `e` of router `r` is continued at the next router in every variant in which it applies. -/
def forwardOk (w : State) (h r e : Nat) : Bool :=
  if r ≠ 256 ∧ fld e 33 28 = 4 then true
  else match nextInput r (fld e 33 28) with
    | none => false
    | some (r', p', d) => (List.range h).all (fun v => !appliesIn e v || (indexedEntries w r').any (fun f =>
        appliesIn f.2 v && fld f.2 41 36 == p' && fld f.2 35 34 == fld e 27 26 && fld f.2 55 42 == fld e 55 42 + d
          && fld f.2 25 23 == fld e 25 23))

/-- Entry `e` of router `r` continues an entry of a router before it, or takes its tile's own burst. -/
def backwardOk (w : State) (h r e : Nat) : Bool :=
  if r ≠ 256 ∧ fld e 41 36 = 4 then true
  else (List.range h).all (fun v => !appliesIn e v || (List.range 257).any (fun q => (indexedEntries w q).any (fun f =>
    appliesIn f.2 v && fld f.2 27 26 == fld e 35 34 && fld f.2 25 23 == fld e 25 23
      && (match nextInput q (fld f.2 33 28) with
          | some (r', p', d) => r' == r && p' == fld e 41 36 && fld f.2 55 42 + d == fld e 55 42
          | none => false))))

/-- The cycle in which output `out` has been fully held for more than 7 consecutive cycles (R201). -/
def heldErr (b : List Byte) (w : State) (r out v : Nat) : Option Nat :=
  ((List.range (2 * imgP b + 8)).foldl (fun (a : Nat × Option Nat) c =>
    if heldMask w r out v c = 15 then (a.1 + 1, if a.1 + 1 = 8 ∧ a.2.isNone then some c else a.2) else (0, a.2))
    (0, none)).2

/-- Entry `e` breaks R186-R189 among the entries `es` of router `r`. -/
def entryBad (b : List Byte) (w : State) (r : Nat) (es : List (Nat × Nat)) (e : Nat × Nat) : Bool :=
  let h := imageH w
  !entryOk b r e.2
    || es.any (fun f => decide (f.1 < e.1) && entriesClash e.2 f.2)
    || (r != 256 && fld e.2 33 28 == 0 && bitN (laneMask w r) (fld e.2 27 26))
    || !forwardOk w h r e.2 || !backwardOk w h r e.2
    || (List.range h).any (fun v =>
        (ejectsIn r e.2 v && (!ejectOk w r e.2 v || (variantArrivals w v).any (fun a =>
            a.2.router == r && a.2.idx == e.1 && !arrivalOk w v a.1 a.2)))
        || (r != 256 && fld e.2 41 36 == 4 && appliesIn e.2 v && !localLenOk w r e.2 v))

/-- The cycle in which some mesh output of router `r` has been held for too long (R201); none at the hub. -/
def routerHeld (b : List Byte) (w : State) (r : Nat) : Option Nat :=
  if r = 256 then none
  else (List.range 4).findSome? (fun out => (List.range (imageH w)).findSome? (heldErr b w r out))

/-- A SLOTS section of router `r` with `n` entries: the entries in ascending index, then capacity, held outputs, the delivery
map. -/
def slotsErr (b : List Byte) (w : State) (r n : Nat) : Option (Nat × Nat) :=
  let es := indexedEntries w r
  match es.find? (entryBad b w r es) with
  | some e => some (0x0B8D, e.1)
  | none =>
    if slotCount r < n then some (0x0B8D, slotCount r)
    else match routerHeld b w r with
      | some c => some (0x0B8E, c)
      | none => ((List.range 16).find? (fun i => decide (r < 256) && mapValid w r i && !(streamRec w i).en)).map
          (fun i => (0x0B8F, i))

/-! ### STREAMS (R154, R193) -/

/-- Dies on which stream `n` has delivery tiles. -/
def streamDies (w : State) (n : Nat) : List Nat :=
  (List.range 4).filter (fun d => (List.range 64).any (fun i => mapValid w (64 * d + i) n))

/-- Stream `n` breaks R154 or R193. -/
def streamBad (b : List Byte) (w : State) (n : Nat) : Bool :=
  let r := streamRec w n
  let f := imgFramePulses b
  if !r.en then r.subch != 0
  else r.deliv / f != imgDelta b || decide (workPulses b ≤ r.deliv % f)
    || r.subch == 0 || (List.range 8).any (fun k => subMask w n k == 15)
    || (List.range n).any (fun m => (streamRec w m).en
        && (streamDies w n).any (fun d => (streamDies w m).contains d)
        && (List.range 8).any (fun k => subMask w n k &&& subMask w m k != 0))

/-- A STREAMS section: the records, then R201 on the routers for which the image holds no SLOTS section (log entry 95). -/
def streamsErr (b : List Byte) (w : State) : Option (Nat × Nat) :=
  match (List.range 16).find? (streamBad b w) with
  | some n => some (0x0B8F, n)
  | none => ((List.range (imgTiles b)).findSome? (fun r =>
      if (imgFind b 7 r).isSome then none else routerHeld b w r)).map (fun c => (0x0B8E, c))

/-! ### JOBS (R250, R207) -/

/-- A job program breaks R250. -/
def progBad (w : State) (j : JobTable) (p : Prog) : Bool :=
  p.tiles.isEmpty || p.tiles.any (fun t => planeOf w t != 2) || !p.tiles.Nodup || p.argBase % 64 != 0
    || decide (tsSize ≤ p.argBase) || decide (15 < p.maxClass)
    || j.progs.any (fun q => q.num != p.num && (p.resident || q.resident) && p.tiles.any (fun t => q.tiles.contains t))

/-- A state of the check of R207: tokens and credits by channel, and the sequences with the events still to do. -/
structure Dead where
  tok : List (Nat × Nat × Nat)
  seqs : List (Nat × List SyncEv)
deriving DecidableEq, Repr

/-- Credits and tokens of channel `c`. -/
def deadChan (x : Dead) (c : Nat) : Nat × Nat :=
  match x.tok.find? (fun k => k.1 == c) with
  | some k => k.2
  | none => (0, 0)

/-- One tile fires as far as one event; none when it cannot. -/
def deadFire (x : Dead) (i : Nat) : Option Dead :=
  match x.seqs[i]? with
  | some (t, e :: rest) =>
    let (cr, tk) := deadChan x e.chan
    let put := fun (c k : Nat) => x.tok.map (fun y => if y.1 == e.chan then (e.chan, c, k) else y)
    let left := if e.count ≤ 1 then rest else { e with count := e.count - 1 } :: rest
    if e.recv then (if tk = 0 then none else some ⟨put (cr + 1) (tk - 1), x.seqs.set i (t, left)⟩)
    else if cr = 0 then none else some ⟨put (cr - 1) (tk + 1), x.seqs.set i (t, left)⟩
  | _ => none

/-- One round over the tiles. -/
def deadRound (x : Dead) : Dead :=
  (List.range x.seqs.length).foldl (fun x i => (deadFire x i).getD x) x

/-- Rounds until nothing moves, by fuel. -/
def deadRun : Nat → Dead → Dead
  | 0, x => x
  | n + 1, x => let y := deadRound x; if y = x then x else deadRun n y

/-- The first tile that the check of R207 leaves waiting; with every sequence done but counters not at their start values,
the first tile of the program. -/
def deadlockErr (j : JobTable) (p : Prog) : Option Nat :=
  let tok := (j.chans.filter (fun c => c.prog == p.num)).map (fun c => (c.chan, c.depth - c.init, c.init))
  let seqs := (j.seqs.filter (fun q => q.1 == p.num)).map (fun q => (q.2.1, q.2.2))
  let fuel := (seqs.map (fun q => (q.2.map (·.count)).sum)).sum + 1
  let x := deadRun fuel ⟨tok, seqs⟩
  match x.seqs.find? (fun q => !q.2.isEmpty) with
  | some q => some q.1
  | none => if x.tok = tok then none else some (p.tiles.headD 0)

/-- A JOBS section. -/
def jobsErr (b : List Byte) (w : State) (x : Sect) : Option (Nat × Nat) :=
  let j := (jobsSect (sectData b x)).1
  match j.progs.find? (progBad w j) with
  | some p => some (0x0B91, p.num)
  | none => match (List.range 16).find? (fun i => (jobClasses (sectData b x)).getD i 0 == 0) with
    | some i => some (0x0B91, i)
    | none => (j.progs.findSome? (deadlockErr j)).map (fun t => (0x0B90, t))

/-! ### The checks in section table order -/

/-- PLANES: the tile whose byte is not allowed (R20, R286). -/
def planesErr (b : List Byte) (x : Sect) : Option (Nat × Nat) :=
  ((List.range 256).find? (fun t =>
    let v := leAt b (x.off + t) 1
    if t < imgTiles b then !(v == 1 || v == 2) else v != 0)).map (fun t => (0x0B87, t))

/-- WEIGHTS: the first F8 record whose PAGE is not 0 or 4 (R97). -/
def pagesErr (b : List Byte) (x : Sect) : Option (Nat × Nat) :=
  ((List.zip (List.range (weightsSect (sectData b x)).records.length) (weightsSect (sectData b x)).records).find? (fun r =>
    decide (2 ≤ fld r.2.2 9 8) && fld r.2.2 6 4 % 4 != 0)).map (fun r => (0x0B8A, 0x80000000 + r.1))

/-- The CODE section of a tile, and with it the use of routes and skeins where no WARPCFG section configures them: the
registers are then at their reset values (log entry 95). -/
def tileErr (b : List Byte) (w : State) (t : Nat) : Option (Nat × Nat) :=
  match codeErr b w t with
  | some e => some e
  | none => if planeOf w t = 1 ∧ (imgFind b 5 t).isNone then warpcfgErr b w t else none

/-- The load check of one section: cause and detail. -/
def sectionErr (b : List Byte) (w : State) (x : Sect) : Option (Nat × Nat) :=
  match x.typ with
  | 1 => planesErr b x
  | 2 => tileErr b w x.tile
  | 4 => pagesErr b x
  | 5 => warpcfgErr b w x.tile
  | 6 => recordErr b w x
  | 7 => slotsErr b w x.tile (leAt b x.off 4)
  | 8 => streamsErr b w
  | 9 => jobsErr b w x
  | _ => none

/-- P, H and L keep R153 and R154; `warp` says that the image has warp tiles. -/
def phasesOk (b : List Byte) (warp : Bool) : Bool :=
  decide (1 ≤ imgH b) && decide (imgH b ≤ 64) && decide (1 ≤ imgL b)
    && (if warp then decide (1 ≤ imgP b) && decide (imgP b ≤ workPulses b) && decide (imgH b * imgP b ≤ 4096)
        else imgP b == 0)

/-- The planes of the tiles that an image runs on: its own, or those of the loaded image for a WEIGHTS_ONLY one (R296). -/
def imagePlanes (b : List Byte) (s : State) : List Nat :=
  if imgWeightsOnly b then (match s.image with | some i => i.planes | none => []) else (List.range 256).map (imgPlane b)

/-- The device as the write pass would leave it, with the declarations of the image. -/
def scratch (b : List Byte) (s : State) : State :=
  restoreRecords { writeImage b s with image := some (imgKeep b) } (fun _ => true)

/-- The load checks of R283 on an image whose format, digests and signature are in order: tile count, latency table, and
the sections in table order. -/
def loadErr (b : List Byte) (s : State) : Option LoadErr :=
  if imgTiles b ≠ tileCount s then some ⟨0x0B84, noSect, noSect, tileCount s⟩
  else if imgLt b = 2 ∧ s.fuse.stepA0 then some ⟨0x0B85, noSect, noSect, 0⟩
  else if !phasesOk b ((imagePlanes b s).contains 1) then some ⟨0x0B89, noSect, noSect, 0⟩
  else if imgWeightsOnly b then
    (imgSects b).findSome? (fun x => if x.typ = 4 then (pagesErr b x).map (fun e => ⟨e.1, x.idx, x.tile, e.2⟩) else none)
  else
    let w := scratch b s
    (imgSects b).findSome? (fun x => (sectionErr b w x).map (fun e => ⟨e.1, x.idx, x.tile, e.2⟩))

end Sys2Proof.Machine
end

