-- ==== Sys2Proof/Machine/LoadCore.lean ====
section
/-! DEFINITION. The two passes of a load (spec/10 R293-R297), whoever asks for it: a LOAD command or boot step S12. -/

namespace Sys2Proof.Machine

/-- The loader changed. -/
def withLd (s : State) (j : Option LoadJob) : State := { s with kp := { s.kp with ld := { job := j } } }

/-- LD_STATUS.BUSY, with the job in progress. -/
def setLoadJob (s : State) (j : Option LoadJob) : State := withLd (setRegBit s rLdStatus 30 j.isSome) j

/-- A load error reported (R297). -/
def loadFails (s : State) (e : LoadErr) : State :=
  let s := raise s e.cause e.tile e.detail
  let s := setF s rLdStatus 15 0 e.cause
  setRegN (setRegN s rLdErrloc (e.sect * 2 ^ 16 + e.tile)) rLdErrdetail e.detail

/-- The lines of [a, a + n) read, each with its symbol errors; the address of the first that is uncorrectable. -/
def readLines (s : State) (a n : Nat) (errs : List (Nat × List SymErr)) : State × Option Nat :=
  (List.range (ceilDiv (a % 64 + n) 64)).foldl (fun (r : State × Option Nat) i =>
    let l := a / 64 + i
    let x := readLine r.1 l ((errs.find? (fun e => e.1 == l)).map (·.2) |>.getD [])
    (x.1, if r.2.isNone && x.2.bad then some (64 * l) else r.2)) (s, none)

/-- The bytes that a pass of the loader reads: from flash, or from a region that permits reads (R295); the second component
is the failing address. -/
def readSource (s : State) (dpa len : Nat) (file : Option (List Byte)) (errs : List (Nat × List SymErr)) :
    State × Option Nat × List Byte :=
  match file with
  | some bs => (s, none, padTo len bs)
  | none =>
    if everyBlock s dpa len (fun k => decide (1 ≤ k) && decide (k ≤ 4)) then
      let r := readLines s dpa len errs
      (r.1, r.2, memBytes r.1 dpa len)
    else (s, some dpa, [])

/-- The owner's signature of the image verifies (R288); a device without an owner key verifies none. -/
def imageSigned (s : State) (b : List Byte) : Bool :=
  match imgFind b 10 0xFFFF with
  | some x => !s.kp.ownerKey.isEmpty && Config.mldsaVerify s.kp.ownerKey [0x41, 0x5A, 0x50, 0x2D, 0x49, 0x4D, 0x41, 0x47, 0x45]
      (imgProgDigest b ++ imgWeightDigest b) (sectData b x)
  | none => false

/-- The owner policy requires a signature (R288, R489). -/
def requireSigned (s : State) : Bool := leAt s.kp.policy 0 1 != 0

/-- A WEIGHTS_ONLY image against the loaded one (R296): 0 program digest, 1 layout. -/
def weightsMismatch (s : State) (b : List Byte) : Option Nat :=
  match s.image with
  | none => some 0
  | some i =>
    if i.progDigest ≠ imgProgDigest b then some 0
    else if i.layoutDigest ≠ layoutDigestOf b then some 1 else none

/-- The check pass on the bytes of an image (R294): format, digests, signature, a WEIGHTS_ONLY image against the loaded
one, and the load checks. -/
def checkImage (s : State) (b : List Byte) (cmdLen : Nat) : Option LoadErr :=
  match formatErr b cmdLen with
  | some e => some e
  | none => match digestErr b with
    | some d => some ⟨0x0B82, noSect, noSect, d⟩
    | none =>
      if (if imgSigned b then !imageSigned s b else requireSigned s) then some ⟨0x0B83, noSect, noSect, 0⟩
      else
        match (if imgWeightsOnly b then weightsMismatch s b else none) with
        | some d => some ⟨0x0B94, noSect, noSect, d⟩
        | none => loadErr b s

/-- A load that is refused at once (R293, R484): the run state, a job that runs, a queue that holds a job, a load in
progress, a DEGRADED start. -/
def loadRefused (s : State) : Option LoadErr :=
  let busy := fun d => some ⟨0x0B86, noSect, noSect, d⟩
  if tbState s = stArmed ∨ runActive s then busy 0
  else if !s.sched.running.isEmpty then busy 1
  else if !s.sched.queue.isEmpty then busy 2
  else if regBit s rLdStatus 30 then busy 3
  else match s.kp.cur with
    | some r => if r.degraded then some ⟨0x0B08, noSect, noSect, 0⟩ else none
    | none => none

/-- The first pass. On success LOADED and EQUALISED fall, every PLANE reads 0b00 and the write pass is in progress (R290,
R294). -/
def loadFirst (s : State) (cmd : Option (KpCmd × List Byte × Nat)) (dpa len : Nat) (file : Option (List Byte))
    (errs : List (Nat × List SymErr)) : State × Option LoadErr :=
  match loadRefused s with
  | some e => (loadFails s e, some e)
  | none =>
    let (s, bad, b) := readSource s dpa len file errs
    match bad with
    | some a => let e := ⟨0x0B93, noSect, noSect, a % 2 ^ 32⟩; (loadFails s e, some e)
    | none => match checkImage s b len with
      | some e => (loadFails s e, some e)
      | none =>
        let j : LoadJob := { cmd := cmd, dpa := dpa, len := len, file := file, digests := progDigestOf b ++ weightDigestOf b
                             signed := imgSigned b, old := s.image, first := b }
        (setLoadJob { setRegBit (setRegBit s rLdStatus 31 false) rLdStatus 29 false with image := none } (some j), none)

/-- The load ends in the second pass with no image loaded (R295). -/
def loadLost (s : State) (e : LoadErr) : State :=
  loadFails { setLoadJob s none with jobs := {} } e

/-- The sections that lie wholly below a failing address are written, in table order up to the first that does not. -/
def writeUpTo (b : List Byte) (stop : Nat) (s : State) : State :=
  ((imgSects b).takeWhile (fun x => decide (x.off + x.len ≤ stop))).foldl (writeSect b) s

/-- The section that changed between the passes (R297): the first of which the bytes of its table entry or its content differ;
none where only the header does. -/
def changedSect (old new : List Byte) : Option Sect :=
  (imgSects old).find? (fun x =>
    slice old (imgSectOfs old + 16 * x.idx) 16 != slice new (imgSectOfs old + 16 * x.idx) 16 || sectData old x != sectData new x)

/-- IMAGE_CHANGED with its section (R295, R297); a change of the header alone names no section (log entry 95). -/
def imageChanged (old new : List Byte) : LoadErr :=
  match changedSect old new with
  | some x => ⟨0x0B92, x.idx, x.tile, x.idx⟩
  | none => ⟨0x0B92, noSect, noSect, noSect⟩

/-- The bytes that the second pass wrote have the digests of the first, and of the header as it reads them (R294-R296). -/
def digestsHold (j : LoadJob) (b : List Byte) : Bool :=
  progDigestOf b ++ weightDigestOf b == j.digests && imgWeightDigest b == weightDigestOf b
    && imgProgDigest b == (if imgWeightsOnly b then (match j.old with | some i => i.progDigest | none => []) else progDigestOf b)

/-- The second pass of job `j` (R294-R296): every section written, the digests recomputed and compared, the image
published; none when the image is loaded. -/
def loadSecond (s : State) (j : LoadJob) (errs : List (Nat × List SymErr)) : State × Option LoadErr :=
  let (s, bad, b) := readSource s j.dpa j.len j.file errs
  match bad with
  | some a =>
    let e := ⟨0x0B93, noSect, noSect, a % 2 ^ 32⟩
    (loadLost (writeUpTo (memBytes s j.dpa j.len) (a - j.dpa) s) e, some e)
  | none =>
    let s := writeImage b s
    if digestsHold j b then (publishImage b j.signed (setLoadJob { s with image := j.old } none), none)
    else
      let e := imageChanged j.first b
      (loadLost s e, some e)

end Sys2Proof.Machine
end

