-- ==== Sys2Proof/Machine/PeerLink.lean ====
section
/-! DEFINITION. Peer ports (spec/14 R380-R392): bring-up and loss of a port, peer bolts sent and received, go-back-N
retry, credits of the virtual lanes, the messages of a bolt (R393, R394). -/

namespace Sys2Proof.Machine

/-! ### Port states (R385, R390) -/

/-- The outstanding bolts of a port shown in OUTST. -/
def showOutst (s : State) (p : Nat) : State := setF s (rKwPortStatus p) 8 0 (port s p).unacked.length

/-- What goes when a port leaves UP (R390, R401): replay buffer, queues, credits, requests not answered, the route table;
units that wait for the port fail with 0x0346; scan points on its lanes end (spec/18 R516). Slot count, scramblers and the time check stay. -/
def portDiscard (s : State) (p : Nat) : State :=
  let x := port s p
  let gone := s.kw.waits.filter (fun w => w.port == p)
  let s := setPort s p { slot := x.slot, scr := x.scr, descr := x.descr, tcN := x.tcN, tcDeps := x.tcDeps, tcRx := x.tcRx }
  let s := { s with kw := { s.kw with waits := s.kw.waits.filter (fun w => w.port != p), route := [] } }
  let s := setF (setF (setReg s (rKwPortPartner p) 0) (rKwPortStatus p) 19 16 0) (rKwPortStatus p) 8 0 0
  let s := (List.range 4).foldl (fun s j => eyeLost s (96 + 4 * p + j)) s
  gone.foldl (fun s w => unitDone s w.tile w.num w.unit 0x0346) s

/-- A port goes DOWN for `cause` (R388, R390). -/
def portDown (s : State) (p cause : Nat) : State := portDiscard (setPortState (raise s cause p 0) p 3) p

/-- PORT_TRAIN (R385): EN goes from 0 to 1 with the value `v` of KW_PORT_CFG, whose fields are all taken, and training
starts. -/
def execPortTrain (p : Nat) (v : Word) (s : State) : Host.Outcome State Fault Refusal :=
  onUnit 8 8 p s fun s => onBlock 7 s fun s =>
    if regBit s (rKwPortCfg p) 31 || !wbit v 31 then s
    else setPortState (setReg s (rKwPortCfg p) (v &&& 0xFF0F0FFF#32)) p 1

/-- PORT_OFF (R390): EN is cleared, AUTO taken, the port is OFF and loses its state. -/
def execPortOff (p : Nat) (v : Word) (s : State) : Host.Outcome State Fault Refusal :=
  onUnit 8 8 p s fun s => onBlock 7 s fun s =>
    if !regBit s (rKwPortCfg p) 31 || wbit v 31 then s
    else portDiscard (setPortState (setRegBit (setRegBit s (rKwPortCfg p) 31 false) (rKwPortCfg p) 30 (wbit v 30)) p 0) p

/-- What lane `j` of a port in training received. -/
abbrev dTrain : Nat → PeerTrain := fun _ => {}

/-- The partner, as DEVID and port, that 64 TRAIN bolts in a row have named on each of the four lanes (R385). -/
def agreed (x : PeerPort) : Option (Nat × Nat) :=
  let l := sget dTrain x.train 0
  if (List.range 4).all (fun j =>
      let t := sget dTrain x.train j
      decide (64 ≤ t.n) && t.dev == l.dev && t.pp == l.pp)
  then some (l.dev, l.pp) else none

/-- A lane's record after a bolt in TRAIN: a TRAIN bolt counts on while it names the same partner (R385); any other bolt
ends the row. -/
def trainOn (t : PeerTrain) (named : Option (Nat × Nat)) : PeerTrain :=
  match named with
  | none => {}
  | some (dev, pp) => if t.n ≠ 0 ∧ t.dev = dev ∧ t.pp = pp then { t with n := t.n + 1 } else ⟨dev, pp, 1⟩

/-- PORT_UP (R385): port `pp` of device `dev` shows that it has reached the point at which this port is, with all four lanes locked
and 64 TRAIN bolts in a row on each that name it. Its bolts are read from the lane that follows the last one received (R381). -/
def execPortUp (p dev pp : Nat) (s : State) : Host.Outcome State Fault Refusal :=
  onUnit 8 8 p s fun s =>
    let x := port s p
    if portState s p ≠ 1 ∨ agreed x ≠ some (dev, pp) then s
    else
      let s := setPort s p { slot := x.slot, scr := x.scr, descr := x.descr, rxLane := x.rxLane, tcN := x.tcN,
                             tcDeps := x.tcDeps, tcRx := x.tcRx }
      setPortState (setRegN s (rKwPortPartner p) (2 ^ 31 + pp % 8 * 2 ^ 16 + dev % 4096)) p 2

/-- PORT_TRAIN_FAIL (R385): UP is not reached in 10 ms. -/
def execPortTrainFail (p : Nat) (s : State) : Host.Outcome State Fault Refusal :=
  onUnit 8 8 p s fun s => if portState s p ≠ 1 then s else portDown s p 0x0701

/-- PORT_RETRAIN (R385): a DOWN port with AUTO set trains again. -/
def execPortRetrain (p : Nat) (s : State) : Host.Outcome State Fault Refusal :=
  onUnit 8 8 p s fun s =>
    if portState s p = 3 ∧ regBit s (rKwPortCfg p) 30 ∧ regBit s (rKwPortCfg p) 31 then setPortState s p 1 else s

/-- PORT_DOWN (R388): a lane loses clock recovery or misses 4 headers in a row. -/
def execPortDown (p : Nat) (s : State) : Host.Outcome State Fault Refusal :=
  onUnit 8 8 p s fun s => if portState s p ≠ 2 then s else portDown s p 0x0702

/-! ### CRC-32 (R383) -/

/-- One bit of the reflected CRC-32. -/
def crcBit (c : Nat) (b : Bool) : Nat := if (c % 2 == 1) != b then (c / 2) ^^^ 0xEDB88320 else c / 2

/-- CRC-32 of R383. -/
def crc32 (bs : List Byte) : Nat := ((bytesBits bs).foldl crcBit 0xFFFFFFFF) ^^^ 0xFFFFFFFF

/-! ### Virtual lanes (R391, R392) -/

/-- Receive buffers of a VL in bolts. -/
def vlDepth (v : Nat) : Nat := if v = 0 then 16 else 64

/-- Bolts of VL `v` sent and not freed. -/
def vlUsed (x : PeerPort) (v : Nat) : Nat := (x.sent.getD v 0 + 256 - x.theirFreed.getD v 0 % 256) % 256

/-- The VL to send: the one of highest priority with a message ready and a credit, while fewer than 256 bolts are
outstanding (R387, R391). -/
def pickVl (x : PeerPort) : Option Nat :=
  if 256 ≤ x.unacked.length then none
  else [0, 3, 2, 1].find? (fun v => x.txq.any (fun m => m.1 == v) && decide (vlUsed x v < vlDepth v))

/-- The messages of VL `v` that fill the next bolt: in order, at most 240 bytes together (R384). -/
def packBody (v : Nat) : Nat → List (Nat × List Byte) → List Byte × List (Nat × List Byte)
  | _, [] => ([], [])
  | room, m :: ms =>
    if m.1 ≠ v then
      let r := packBody v room ms
      (r.1, m :: r.2)
    else if m.2.length ≤ room then
      let r := packBody v (room - m.2.length) ms
      (m.2 ++ r.1, r.2)
    else
      let r := packBody v 0 ms
      (r.1, m :: r.2)

/-! ### Sending (R382-R387) -/

/-- The payload of a bolt (R382): header, body, CRC. -/
def peerPayload (x : PeerPort) (seq kind : Nat) (rpl : Bool) (vl : Nat) (body : List Byte) : List Byte :=
  let ack := (x.expect + 65535) % 65536
  let head := leBytes 2 seq ++ leBytes 2 ack
    ++ [BitVec.ofNat 8 (kind + 4 * b2n x.nakDue + 8 * b2n rpl + 16 * vl), BitVec.ofNat 8 (body.length / 16)]
    ++ (List.range 4).map (fun v => BitVec.ofNat 8 (x.freed.getD v 0)) ++ zeros 2
  let plain := head ++ padTo 240 body
  plain ++ leBytes 4 (crc32 plain)

/-- The bits of a slot put on port lane `slot mod 4`, with the lane's polarity; NAK has been said. -/
def sendSlot (s : State) (p : Nat) (payload : List Byte) : State :=
  let x := port s p
  let j := x.slot % 4
  let r := boltLine true (x.scr.getD j 0) payload
  let inv := regBit s (rKwPortCfg p) (16 + j)
  setPort s p { x with slot := x.slot + 1, scr := setAt x.scr j r.2, nakDue := false,
                       txBits := r.1.map (fun b => b != inv) }

/-- TIME_CHECKs at the head of a body: their departure is the bolt's tag; a replayed one has none (R399). -/
def noteDeparture (x : PeerPort) (body : List Byte) (tag : Nat) : PeerPort :=
  if (body.getD 0 0).toNat = 1 ∧ body.length ≠ 0 then
    let n := leAt body 8 2
    { x with tcDeps := ((n, tag) :: x.tcDeps.filter (fun d => d.1 != n)).take 4 }
  else x

/-- A DATA bolt of the replay buffer resent with RPL (R387). -/
def sendReplay (s : State) (p : Nat) (o : PeerOut) : State :=
  let x := port s p
  let after := x.unacked.dropWhile (fun q => q.seq != o.seq)
  let x := { (if o.vl = 0 then noteDeparture x o.body 0 else x) with
    resend := (after.drop 1).head?.map (fun q => q.seq) }
  sendSlot (setPort s p x) p (peerPayload x o.seq 0 true o.vl o.body)

/-- A new DATA bolt of VL `v` (R384, R387, R392). -/
def sendData (s : State) (p v tag : Nat) : State :=
  let x := port s p
  let r := packBody v 240 x.txq
  let y := { x with txq := r.2, next := (x.next + 1) % 65536, unacked := x.unacked ++ [⟨x.next, v, r.1⟩],
                    sent := setAt x.sent v ((x.sent.getD v 0 + 1) % 256) }
  let y := if v = 0 then noteDeparture y r.1 tag else y
  showOutst (sendSlot (setPort s p y) p (peerPayload y x.next 0 false v r.1)) p

/-- A bubble of peer bulk falls on the next slot of port `p` (spec/16 R456): its slots are the opportunities. -/
def peerBubble (s : State) (x : PeerPort) : Bool := isBubble (regF s rPmBubble 14 8) x.slot

/-- PORT_SLOT_TRANSMIT (R381, R384, R385, R391): the next slot of port `p`, whose first header bit leaves at time tag
`tag`: a TRAIN bolt, a replayed bolt, a DATA bolt, or else an IDLE bolt. In a bubble a bolt of VL1-VL3 gives way to an IDLE bolt
(spec/16 R456). -/
def execPortSlotTransmit (p tag : Nat) (s : State) : Host.Outcome State Fault Refusal :=
  onUnit 8 8 p s fun s =>
    let x := port s p
    if portState s p = 1 then
      sendSlot s p (peerPayload x 0 2 false 0 (leBytes 2 (devId s) ++ leBytes 1 p ++ leBytes 1 (x.slot % 4) ++ zeros 12))
    else if portState s p ≠ 2 then s
    else
      match x.unacked.find? (fun o => x.resend == some o.seq) with
      | some o =>
        if peerBubble s x && o.vl != 0 then sendSlot s p (peerPayload x 0 1 false 0 []) else sendReplay s p o
      | none =>
        match (pickVl x).filter (fun v => !peerBubble s x || v == 0) with
        | some v => sendData s p v tag
        | none => sendSlot s p (peerPayload x 0 1 false 0 [])

/-! ### Retry (R386-R389) -/

/-- A replay starts from SEQ `r`. Eight in a row have passed without an advance of ACK when a ninth would start: there the port
goes DOWN (R388; DESIGN CHOICE: the rule does not say at which moment after the eighth, log entry 97). -/
def startReplay (s : State) (p r : Nat) : State :=
  let x := port s p
  if x.unacked.isEmpty then s
  else if 8 ≤ x.replays then portDown s p 0x0704
  else countUp (setPort s p { x with resend := some r, replays := x.replays + 1 }) (rKwPortReplay p) 1

/-- The oldest SEQ not acknowledged. -/
def firstUnacked (x : PeerPort) : Nat := match x.unacked with | o :: _ => o.seq | [] => x.next

/-- ACK of the partner: bolts up to it leave the replay buffer; an advance ends the row of replays (R387). -/
def takeAck (s : State) (p ack : Nat) : State :=
  let x := port s p
  if x.unacked.any (fun o => o.seq == ack) then
    let rest := (x.unacked.dropWhile (fun o => o.seq != ack)).drop 1
    let resend := match x.resend with
      | some r => if rest.any (fun o => o.seq == r) then some r else rest.head?.map (fun o => o.seq)
      | none => none
    showOutst (setPort s p { x with unacked := rest, replays := 0, resend := resend }) p
  else s

/-- NAK of the partner after ACK (R387, R389): one that names a SEQ the running replay has not resent yet is ignored. -/
def takeNak (s : State) (p ack : Nat) : State :=
  let x := port s p
  let want := (ack + 1) % 65536
  match x.resend with
  | some r => if (want + 65536 - r) % 65536 < 32768 then s else startReplay s p want
  | none => if want = firstUnacked x then startReplay s p want else s

/-- FREED of the partner (R392): a value that stands for more bolts freed than were sent sends the port to DOWN. -/
def takeFreed (s : State) (p : Nat) (fr : List Nat) : State :=
  let x := port s p
  let exceeds := (List.range 4).any (fun v =>
    decide (vlUsed x v < (fr.getD v 0 + 256 - x.theirFreed.getD v 0 % 256) % 256))
  if exceeds then portDown s p 0x0705 else setPort s p { x with theirFreed := fr }

/-- REPLAY_TIMEOUT (R387): RTMO µs passed with bolts outstanding and no advance of ACK. -/
def execReplayTimeout (p : Nat) (s : State) : Host.Outcome State Fault Refusal :=
  onUnit 8 8 p s fun s => if portState s p ≠ 2 then s else startReplay s p (firstUnacked (port s p))

/-! ### Receiving -/

/-- The VL and length that a type takes (R394). -/
def msgShape (ty : Nat) : Option (Nat × Nat) :=
  match ty with
  | 0x01 => some (0, 48)
  | 0x02 => some (0, 32)
  | 0x03 => some (0, 48)
  | 0x10 => some (1, 80)
  | 0x20 => some (2, 80)
  | 0x21 => some (2, 16)
  | 0x30 => some (3, 16)
  | 0x31 => some (3, 80)
  | _ => none

/-- A message at the front of a body is well formed for VL `v` (R394): the bytes it takes. -/
def msgOk (s : State) (v : Nat) (bs : List Byte) : Option Nat :=
  match msgShape (leAt bs 0 1) with
  | some (vl, len) =>
    if leAt bs 2 2 = len ∧ len ≤ bs.length ∧ vl = v ∧ (v = 0 ∨ leAt bs 6 2 % 4096 = devId s) then some len else none
  | none => none

/-- The messages of a body and whether one of them was malformed, by fuel. -/
def parseBody (s : State) (v : Nat) : Nat → List Byte → List (List Byte) × Bool
  | 0, _ => ([], false)
  | fuel + 1, bs =>
    if bs.isEmpty then ([], false)
    else match msgOk s v bs with
      | none => ([], true)
      | some n =>
        let r := parseBody s v fuel (bs.drop n)
        (bs.take n :: r.1, r.2)

/-- A receive buffer of VL `v` is free again. -/
def freeBuffer (s : State) (p v : Nat) : State :=
  let x := port s p
  setPort s p { x with freed := setAt x.freed v ((x.freed.getD v 0 + 1) % 256) }

/-- The body of an accepted bolt: its messages wait in order; the rest from a malformed one on is discarded (R394). -/
def takeBody (s : State) (p v tag : Nat) (rpl : Bool) (body : List Byte) : State :=
  let r := parseBody s v 16 body
  let s := if r.2 then raise s 0x0706 p 0 else s
  if r.1.isEmpty then freeBuffer s p v
  else
    let x := port s p
    let n := r.1.length
    let ms := (List.range n).map (fun i =>
      ({ vl := v, bytes := r.1.getD i [], tag := tag, rpl := rpl, last := decide (i + 1 = n) } : PeerRx))
    setPort s p { x with rxq := x.rxq ++ ms }

/-- A bolt rejected (R386): counted and logged; NAK once per episode. One that cannot be read shows no KIND and counts as a DATA bolt
(DESIGN CHOICE, log entry 97). -/
def rejectBolt (s : State) (p : Nat) : State :=
  let s := countUp (raise s 0x0703 p 0) (rKwPortRej p) 1
  let x := port s p
  if x.nakDone then s else setPort s p { x with nakDue := true, nakDone := true }

/-- A DATA bolt by its SEQ (R386): accepted, a silent duplicate, or rejected. -/
def takeData (s : State) (p seq v tag : Nat) (rpl : Bool) (body : List Byte) : State :=
  let x := port s p
  let back := (x.expect + 65536 - seq) % 65536
  if back = 0 then
    takeBody (setPort s p { x with expect := (x.expect + 1) % 65536, nakDone := false }) p v tag rpl body
  else if back ≤ 256 then s
  else rejectBolt s p

/-- A good bolt (R384, R386, R387, R392): ACK, NAK and FREED, then its body when it is DATA. -/
def goodBolt (s : State) (p : Nat) (pl : List Byte) (tag : Nat) : State :=
  let b := leAt pl 4 1
  let kind := b % 4
  let ack := leAt pl 2 2
  let s := takeAck s p ack
  let s := takeFreed s p ((List.range 4).map (fun v => leAt pl (6 + v) 1))
  let s := if portState s p = 2 ∧ bitN b 2 then takeNak s p ack else s
  if portState s p ≠ 2 ∨ kind ≠ 0 then s
  else takeData s p (leAt pl 0 2) (fld b 5 4) tag (bitN b 3) (slice pl 12 (16 * (leAt pl 5 1 % 16)))

/-- The header of a slot on lane `j`, accepted or missed (R388, R87): lock of the lane, headers missed in a row. -/
def noteHeader (s : State) (p j : Nat) (ok : Bool) : State :=
  let x := port s p
  let n := if ok then 0 else sget dNat x.missed j + 1
  let s := setPort s p { x with missed := sset dNat j n x.missed }
  if ok then setRegBit s (rKwPortStatus p) (16 + j) true
  else if 4 ≤ n then setRegBit s (rKwPortStatus p) (16 + j) false
  else s

/-- A bolt on lane `j` of a port in TRAIN, its payload when it was read intact (R385): the lane's record; once all lanes
agree on a partner with this device's own DEVID the port goes DOWN. The next slot is that of the next lane. -/
def trainBolt (s : State) (p j : Nat) (pl : Option (List Byte)) : State :=
  let x := port s p
  let named := match pl with
    | some b => if leAt b 4 1 % 4 = 2 ∧ leAt b 5 1 % 16 = 1 then some (leAt b 12 2 % 4096, leAt b 14 1 % 8) else none
    | none => none
  let y := { x with train := sset dTrain j (trainOn (sget dTrain x.train j) named) x.train, rxLane := (j + 1) % 4 }
  let s := setPort s p y
  match agreed y with
  | some (dev, _) => if dev = devId s then portDown s p 0x070D else s
  | none => s

/-- PEER_BOLT (R381-R388): the line bits of the next slot of port `p`, on its lane `j`; the first header bit came at time
tag `tag`. Once UP a port takes its slots in order, so a bolt of another lane than the next is no event of it (R381). The
bits always pass the descrambler (R72). Four headers missed in a row on a lane send an UP port to DOWN (R388). -/
def execPeerBolt (p j tag : Nat) (bits : List Bool) (s : State) : Host.Outcome State Fault Refusal :=
  onUnit 8 8 p s fun s =>
    let x := port s p
    if portState s p = 0 || 4 ≤ j || (portState s p == 2 && j != x.rxLane) then s
    else
      let inv := regBit s (rKwPortCfg p) (16 + j)
      let r := boltReceive true (x.descr.getD j 0) (bits.map (fun b => b != inv))
      let good := r.lost.isNone && crc32 (r.payload.take 252) == leAt r.payload 252 4
      let s := setPort s p { x with descr := setAt x.descr j r.descr }
      let s := if portState s p = 3 then s else noteHeader s p j (r.causes.all (· != 0x0101))
      if portState s p = 1 then trainBolt s p j (if good then some r.payload else none)
      else if portState s p ≠ 2 then s
      else if 4 ≤ sget dNat (port s p).missed j then portDown s p 0x0702
      else
        let s := setPort s p { port s p with rxLane := (j + 1) % 4 }
        if good then goodBolt s p r.payload tag else rejectBolt s p

/-- The oldest message of VL `v` on port `p`, when it has type `ty`; with the state after it left the queue and, when it
was the last of its bolt, its buffer is free. -/
def nextMsg (s : State) (p v ty : Nat) : Option (PeerRx × State) :=
  let x := port s p
  match x.rxq.find? (fun m => m.vl == v) with
  | some m =>
    if leAt m.bytes 0 1 = ty then
      let s := setPort s p { x with rxq := x.rxq.erase m }
      some (m, if m.last then freeBuffer s p v else s)
    else none
  | none => none

end Sys2Proof.Machine
end

