-- ==== Sys2Proof/Machine/Reset.lean ====
section
/-! DEFINITION. Cold reset, warm reset and the loss of power (spec/00 R15, the Reset section of each chapter, spec/17
R485, R505, spec/19 R530, R535-R541). -/

namespace Sys2Proof.Machine

/-- The registers at `as` take the values that they have in `t`. -/
def keepRegs (as : List Nat) (t s : State) : State := as.foldl (fun s a => setReg s a (reg t a)) s

/-- Registers that fuses set (spec/16 R446, R452) and what follows from them. -/
def fuseRegs (s : State) : State :=
  let s := setF s rPmBase 19 0 s.fuse.pBaseMw
  let s := (List.range 16).foldl (fun s k => setRegN s (rPmEtab k) (s.fuse.etab.getD k 0)) s
  setF (setF s rPmFloor 19 0 (powerFloor s 0)) rPmCapEff 19 0 (max (regF s rPmCap 19 0) (powerFloor s 0))

/-- EY_BASE stays until S9 rewrites it (R525). -/
def eyeBaseRegs : List Nat := (List.range 144).map rEyBase

/-- Registers that warm reset keeps: FAULT registers with their tags (R61, R359, R474, R505), calibration, energy table and
PM_ENERGY (R474), OB_LOG_OVW and EY_BASE (R525). -/
def warmKept : List Nat :=
  [rTbFault, rTbFaultTag, rTbFaultTag + 4, rBbFault, rBbFaultDetail, rBbFaultTag, rBbFaultTag + 4,
   rPmFault, rPmFaultTag, rPmFaultTag + 4, rKpFault, rKpFaultTag, rKpFaultTag + 4, rPmCalGain, rPmCalOfs,
   rPmEnergy, rPmEnergy + 4, rObLogOvw] ++ (List.range 16).map rPmEtab ++ eyeBaseRegs

/-- What every reset leaves: every register at its reset value, every queue empty. The model's own fields, the fuses, the
flash, what has already left the device, the instruction and the cells of the TAP (R520) stay. -/
def blankState (s : State) : State :=
  { pending := s.pending, freeCtr := s.freeCtr, readData := s.readData, fuse := s.fuse
    cx := { sent := s.cx.sent, hostOut := s.cx.hostOut, cmdBuf := s.cx.cmdBuf, respBuf := s.cx.respBuf }
    ob := { tapIr := s.ob.tapIr, cells := s.ob.cells }
    kp := { flash := s.kp.flash, mctpOut := s.kp.mctpOut } }

/-- Cold reset (R15): the retained set and the events that the AON logic holds stay (R505), the DDR4 contents are lost.
`hot`: a trip comparator still reads above 105 °C, so a trip stays asserted (R468). -/
def coldReset (hot : Bool) (s : State) : State :=
  let b := blankState s
  let trip := s.pm.tripped && hot
  keepRegs eyeBaseRegs s (fuseRegs { b with
    pins := { s.pins with snapOut := false, thermtripN := !trip, pwrOffReqN := !trip, pwrAlertN := true, smbAlertN := true }
    pm := { tripped := trip, tripSensor := if trip then s.pm.tripSensor else 0 }
    kp := { b.kp with cur := s.kp.cur, aon := s.kp.aon } })

/-- Warm reset (R485): memory contents and training stay unless a driven boundary-scan instruction has been in effect (R523);
the error log, the FAULT registers of Timebase, Bobbin, PMC and Keep, calibration, PM_ENERGY and the trip stay; K_cmd, the farm
power key and the debug level are erased. -/
def warmReset (s : State) : State :=
  let b := fuseRegs (blankState s)
  keepRegs warmKept s { b with
    pins := { s.pins with snapOut := false, pwrAlertN := true, smbAlertN := true }
    bb := if s.ob.testMode then {} else { mem := s.bb.mem, bad := s.bb.bad, chans := s.bb.chans, trained := s.bb.trained }
    ob := { b.ob with log := s.ob.log, logCount := s.ob.logCount }
    cx := { b.cx with mbStatus := s.cx.mbStatus &&& 0xFFFF#32 }
    pm := { tripped := s.pm.tripped, tripSensor := s.pm.tripSensor, carryNj := s.pm.carryNj }
    kp := { b.kp with cur := s.kp.cur, aon := s.kp.aon } }

/-- The AON logic reset as at power-up (R505, R520, R541): the retained set is lost, the TAP stands at IDCODE. -/
def aonReset (s : State) : State :=
  let s := coldReset false s
  { s with ob := { s.ob with tapIr := 1, cells := [] }, kp := { s.kp with cur := none, aon := [] } }

/-- POWER_UP (R535, R536, R530): the rails rise with SYS_RST_N low. The device holds every pin in its reset state. -/
def execPowerUp (s : State) : Host.Outcome State Fault Refusal :=
  .next (if s.pins.powered then s else { aonReset s with pins := {} })

/-- SYS_RST_N_ASSERT (R537, R505): a low pulse that passes the glitch filter performs a complete cold reset. -/
def execSysRstNAssert (hot : Bool) (s : State) : Host.Outcome State Fault Refusal :=
  .next (if !s.pins.powered then s
    else let s := coldReset hot s; { s with pins := { s.pins with sysRstN := false } })

/-- RAIL_UNDERVOLTAGE (R541): a watched rail below its transient band acts as SYS_RST_N does. -/
def execRailUndervoltage (hot : Bool) (s : State) : Host.Outcome State Fault Refusal :=
  .next (if !s.pins.powered then s
    else let s := coldReset hot s; { s with pins := { s.pins with undervolt := true } })

/-- AON_UNDERVOLTAGE (R541): VDD_AON below 0.68 V resets the AON logic as at power-up. -/
def execAonUndervoltage (s : State) : Host.Outcome State Fault Refusal :=
  .next (if !s.pins.powered then s else aonReset s)

/-- POWER_LOSS (R539): memory contents, the retained set and any flash write in progress are lost. -/
def execPowerLoss (s : State) : Host.Outcome State Fault Refusal :=
  .next { aonReset s with pins := { powered := false } }

end Sys2Proof.Machine
end

