-- ==== Sys2Proof/Machine/Boot.lean ====
section
/-! DEFINITION. The boot sequence (spec/17 R476-R484, R489, R490): sixteen steps, each with its answer to a failure, and the
boot ledger. A start runs whole in one command, up to a step that does not end; S6 runs beside the others and ends with
MEMORY_ACTIVE. -/

namespace Sys2Proof.Machine

/-! ### The record of the start (R482, R483) -/

/-- The record of the current start changed. -/
def withRec (s : State) (f : BootRec → BootRec) : State := withKp s (fun k => { k with cur := k.cur.map f })

/-- The record of the current start. -/
def curRec (s : State) : BootRec := s.kp.cur.getD {}

/-- Step `k` of a record. -/
def recStep (r : BootRec) (k : Nat) : StepRec := r.steps.getD k {}

/-- The step that was in progress when a start ended: the one after the last with an outcome; S6 runs beside S7-S13, and S15
waits for it. -/
def inProgress (r : BootRec) : Nat :=
  match ((List.range 15).reverse.find? (fun k => (recStep r k).outcome != 0)) with
  | none => 0
  | some 4 => if 2 ≤ r.cause then 6 else 5
  | some 5 => 7
  | some 14 => if (recStep r 6).outcome = 0 then 6 else 15
  | some k => k + 1

/-- The failure count of step `k` that the next start finds (R483): a start without DONE counts as a failure of the step in
progress. A HALTED start has counted its failure; a recovery start runs no step. -/
def carriedFails (r : BootRec) (k : Nat) : Nat :=
  if !r.done && !r.halted && r.mode != 2 && inProgress r == k then satN 8 ((recStep r k).fails + 1) else (recStep r k).fails

/-- The counts of `n` items carried over. -/
def carried (l : List Nat) (n : Nat) : List Nat := (List.range n).map (fun i => l.getD i 0)

/-- The record of a new start: the next BOOT_NO, the counts of the record before it, the events that the AON logic holds. -/
def newRecord (prev : Option BootRec) (cause : Nat) (aon : List (Nat × Nat × Nat)) : BootRec :=
  let p : BootRec := prev.getD { done := true }
  aon.foldl recordEvent
    { bootNo := p.bootNo + 1, cause := cause
      steps := (List.range 16).map (fun k => { fails := carriedFails p k })
      ch := carried p.ch 16, grp := carried p.grp 6, port := carried p.port 8, die := carried p.die 4 }

/-- KP_BOOT_INFO shows the start. -/
def noteInfo (s : State) : State :=
  let r := curRec s
  setRegN s rKpBootInfo (r.slot % 4 + r.mode % 4 * 4 + r.cause % 16 * 16 + r.bootNo % 2 ^ 16 * 2 ^ 16)

/-- KP_BOOT_STATUS.STATE. -/
def bootState (s : State) : Nat := regF s rKpBootStatus 31 28
/-- KP_BOOT_STATUS.STATE set. -/
def setBootState (s : State) (v : Nat) : State := setF s rKpBootStatus 31 28 v

/-- The 64 bits of STEP[k] (R482). -/
def stepBits (x : StepRec) : Nat :=
  x.outcome + x.fails * 2 ^ 8 + x.cause * 2 ^ 16 + x.detail % 2 ^ 16 * 2 ^ 32 + satN 16 x.ms * 2 ^ 48

/-- STEP[k] entered in the record and in KP_STEPk. -/
def putStep (s : State) (k : Nat) (x : StepRec) : State :=
  setReg64 (withRec s (fun r => { r with steps := r.steps.set k x })) (rKpStep k) (stepBits x)

/-- The failure count of step `k`. -/
def stepFails (s : State) (k : Nat) : Nat := (recStep (curRec s) k).fails

/-- Step `k` ends (R483): a pass or a part of it resets the failure count, a failure raises it, a step not attempted leaves
it. -/
def endStep (s : State) (e : BootEnv) (k outcome cause detail : Nat) : State :=
  let n := stepFails s k
  let n := if outcome = 5 then satN 8 (n + 1) else if outcome = 0 ∨ outcome = 3 then n else 0
  putStep s k { outcome := outcome, fails := n, cause := cause, detail := detail, ms := e.ms.getD k 0 }

/-- The step passes. -/
def passStep (s : State) (e : BootEnv) (k : Nat) : State := endStep s e k 1 0 0

/-- The step fails and the start is HALTED (R484). -/
def haltStep (s : State) (e : BootEnv) (k cause : Nat) : State :=
  setBootState (withRec (endStep s e k 5 cause 0) (fun r => { r with halted := true })) 4

/-- Bits of a list of numbers. -/
def maskOf (l : List Nat) : Nat := (l.map (fun i => 2 ^ i)).sum

/-- The outcome of a step over `all` items of which `bad` failed: alternate methods or not. -/
def itemsOutcome (all bad : List Nat) (alt : Bool) : Nat :=
  if bad.isEmpty then (if alt then 2 else 1) else if all.all (fun i => bad.contains i) then 5 else 4

/-- Blocks released (R30, R479). -/
def release (s : State) (ks : List Nat) : State := ks.foldl (fun s k => setRegBit s rKpBootStatus k true) s

/-! ### S0-S4 -/

/-- S0: fuse integrity and straps (R480): 0b11 is treated as 0b00; 0b10 is recovery. -/
def bootS0 (e : BootEnv) (late : Bool) (s : State) : State :=
  let mode := if e.mode % 4 = 3 then 0 else e.mode % 4
  let s := noteInfo (withRec s (fun r => { r with mode := mode }))
  if late then haltStep s e 0 0x0B06
  else if !s.fuse.romOk then haltStep (raise s 0x0B01 noSource 0) e 0 0x0B01
  else
    let s := passStep s e 0
    if mode = 2 then setBootState s 5 else setBootState s 1

/-- The content of a firmware slot. -/
def slotImage (s : State) (k : Nat) : List Byte :=
  if k = 0 then s.kp.flash.slotA else if k = 1 then s.kp.flash.slotB else s.kp.flash.golden

/-- "EX20-FW". -/
def ctxFw : List Byte := [0x45, 0x58, 0x32, 0x30, 0x2D, 0x46, 0x57]

/-- The image is whole, its vendor key has the fused hash and its signature verifies (R477). -/
def fwSigned (s : State) (img : List Byte) : Bool :=
  decide (3796 ≤ img.length) && decide (3796 ≤ Config.fwLength img) && decide (Config.fwLength img ≤ img.length)
    && sha3_256 (slice img 64 1312) == s.fuse.vendorKeyHash
    && Config.mldsaVerify (slice img 64 1312) ctxFw (img.take (Config.fwLength img - 2420))
        (slice img (Config.fwLength img - 2420) 2420)

/-- The anti-rollback value allows the image (R477). -/
def fwFresh (s : State) (img : List Byte) : Bool := decide (s.fuse.antiRollback ≤ Config.fwSvn img)

/-- A firmware image is valid (R477). -/
def fwValid (s : State) (img : List Byte) : Bool := fwSigned s img && fwFresh s img

/-- An image that fails R477 raises its causes. -/
def fwFails (s : State) (img : List Byte) : State :=
  let s := raise s 0x0B02 noSource 0
  if fwSigned s img && !fwFresh s img then raise s 0x0B03 noSource 0 else s

/-- The flash changed. -/
def withFlash (s : State) (f : Flash → Flash) : State := withKp s (fun k => { k with flash := f k.flash })

/-- A slot marked BAD; the golden image has no flag (it is never rewritten). -/
def markBad (s : State) (k : Nat) : State :=
  if k = 2 then s else withFlash s (fun f => { f with bad := k :: f.bad.erase k })

/-- The slots that S1 tries, in order (R480); a BAD slot is not tried. -/
def slotOrder (s : State) : List Nat :=
  let p := s.kp.flash.preferred % 2
  if (curRec s).mode = 1 then [2] else ([p, 1 - p].filter (fun k => !s.kp.flash.bad.contains k)) ++ [2]

/-- The firmware of slot `k` starts: what ATTEST reports of it. -/
def startFirmware (s : State) (k : Nat) : State :=
  let img := slotImage s k
  let s := withKp s (fun q => { q with
    svn := Config.fwSvn img
    mKeep := sha3_256 (img.take (Config.fwLength img))
    mLoom := (List.range 4).map (fun d => if d < dieCount s then Config.fwLoom img d else zeros 32) })
  noteInfo (withRec s (fun r => { r with slot := k }))

/-- The slots tried in turn: the state with the first valid one started, and whether there is one. -/
def trySlots : List Nat → State → State × Bool
  | [], s => (s, false)
  | k :: ks, s =>
    if fwValid s (slotImage s k) then (startFirmware s k, true)
    else trySlots ks (markBad (fwFails s (slotImage s k)) k)

/-- S1: the first valid slot starts (R480). With no valid slot the start is HALTED, as in recovery. Past its bound, the first
slot has failed. -/
def bootS1 (e : BootEnv) (late : Bool) (s : State) : State :=
  let order := slotOrder s
  let s := match late, order with
    | true, k :: _ => markBad s k
    | _, _ => s
  let r := trySlots (if late then order.drop 1 else order) s
  let s := r.1
  if !r.2 then haltStep s e 1 (if late then 0x0B06 else 0x0B02)
  else if (curRec s).slot = s.kp.flash.preferred % 2 then endStep s e 1 1 (if late then 0x0B06 else 0) 0
  else endStep (raise s 0x0B04 noSource 0) e 1 2 0x0B04 0

/-- S2: keys derived, engines tested. -/
def bootS2 (e : BootEnv) (late : Bool) (s : State) : State :=
  if late then haltStep s e 2 0x0B06 else if e.selfTest then passStep s e 2 else haltStep s e 2 0

/-- The start is DEGRADED (R484). -/
def degrade (s : State) : State := withRec s (fun r => { r with degraded := true })

/-- S3: the firmware of each enabled Loom die; a die that fails its retry too leaves the start DEGRADED. -/
def bootS3 (e : BootEnv) (late : Bool) (s : State) : State :=
  let all := List.range (dieCount s)
  let bad := all.filter (fun d => e.dieFail.contains d)
  let s := bad.foldl (fun s d => raise s 0x0B05 d 0) s
  let s := withRec s (fun r => { r with die := (List.range 4).map (fun d =>
    if bad.contains d then satN 8 (r.die.getD d 0 + 1) else if d < dieCount s then 0 else r.die.getD d 0) })
  let s := if bad.isEmpty && !late then s else degrade s
  let s := endStep s e 3 (if late then 5 else itemsOutcome all bad false) (if late then 0x0B06 else if bad.isEmpty then 0 else 0x0B05)
    (maskOf bad)
  release (setRegBit s rTbStatus 4 true) [9, 2, 3, 4, 5]

/-- S4: the CXL configuration is complete; a failure leaves the link without CXL (R484, R412). The record is written. -/
def bootS4 (e : BootEnv) (late : Bool) (s : State) : State :=
  let s := if late || !e.cxlOk then
      setRegBit (endStep s e 4 5 (if late then 0x0B06 else 0x080A) 0) rCxLinkStatus 30 false
    else passStep s e 4
  writeRecord (release s [11, 8])

/-! ### S5, S6 (R331-R336, R341, R420, R421) -/

/-- The failure count of channel `c`; a module with another SPD serial starts at 0 (R484). -/
def chanCount0 (s : State) (c : Nat) (d : Dimm) : Nat :=
  if s.kp.flash.spd.getD c 0 = d.serial then (curRec s).ch.getD c 0 else 0

/-- What training channel `c` at failure count `n` comes to (R484): whether it was attempted, whether it passed, whether by the
conservative method. -/
def trainDimm (d : Dimm) (n : Nat) : Bool × Bool × Bool :=
  if n = 0 then (true, d.normal || d.again, false)
  else if n = 1 then (true, d.conservative || d.normal, d.conservative)
  else if n = 2 then (true, d.conservative, d.conservative)
  else (false, false, false)

/-- The module of channel `c`, if the grade has the channel. -/
def dimmAt (s : State) (e : BootEnv) (c : Nat) : Option Dimm := if c < chanCount s then (e.dimms[c]?).join else none

/-- R331 supports module `d`: a registered x4 DIMM with ECC of 16, 32 or 64 GB, or of 128 GB as 3DS, rated 3,200 MT/s or faster. -/
def moduleOk (d : Dimm) : Bool :=
  d.rdimm && d.ecc && d.width == 4 && decide (3200 ≤ d.rate)
    && (d.cap16 == 1 || d.cap16 == 2 || d.cap16 == 4 || (d.cap16 == 8 && d.threeDs))

/-- The channels whose supported module trains. -/
def trainedChans (s : State) (e : BootEnv) : List Nat :=
  (List.range 16).filter (fun c => match dimmAt s e c with
    | some d => moduleOk d && (trainDimm d (chanCount0 s c d)).2.1
    | none => false)

/-- Channel `c` as S5 leaves it; the lowest channel that trains decides capacity and organisation (R332). -/
def trainChan (s : State) (e : BootEnv) (c : Nat) : ChanSt :=
  match dimmAt s e c with
  | none => {}
  | some d =>
    let t := trainDimm d (chanCount0 s c d)
    let x : ChanSt := { cap16 := d.cap16, org := d.org, ranks := d.ranks, conservative := t.2.2 }
    if !moduleOk d then { x with state := 4 }
    else if !t.2.1 then { x with state := 3 }
    else
      let same := match (trainedChans s e).head? with
        | some f => match dimmAt s e f with
          | some g => g.cap16 == d.cap16 && g.org == d.org
          | none => true
        | none => true
      { x with state := if same then 2 else 4 }

/-- BB_CH_STATUS and BB_MEM_STATUS.INSERVICE of a channel. -/
def putChan (s : State) (c : Nat) (x : ChanSt) : State :=
  let s := { s with bb := { s.bb with chans := sset (fun _ => {}) c x s.bb.chans } }
  let s := setF (setRegBit (setF s (rBbChStatus c) 5 0 x.cap16) (rBbChStatus c) 28 x.conservative) (rBbChStatus c) 31 29 x.state
  setRegBit s rBbMemStatus c (x.state == 2)

/-- The failure count of a channel after S5 (R483). A module that R331 or R332 excludes leaves it. -/
def chanFails (s : State) (e : BootEnv) (c : Nat) (x : ChanSt) : Nat :=
  match dimmAt s e c with
  | none => (curRec s).ch.getD c 0
  | some d =>
    let n := chanCount0 s c d
    if x.state = 2 then 0 else if x.state = 3 && (trainDimm d n).1 then satN 8 (n + 1) else n

/-- BB_DPA_SIZE and Range 1 follow from the channels in service (R335, R415). -/
def sizeMemory (s : State) : State :=
  let s := setReg64 s rBbDpaSize (zoneEnd s 3)
  { s with cx := { s.cx with range1 := dpaSize s - 2 ^ 30 } }

/-- Memory_Info_Valid rises (R420, R421). -/
def infoValid (s : State) : State := msix (setRegBit s rCxMemStatus 31 true) 1

/-- The causes of channels that did not come up. -/
def chanCauses (s : State) (xs : List ChanSt) : State :=
  (List.range 16).foldl (fun s c =>
    let x := xs.getD c {}
    if x.state = 3 then raise s 0x0601 c 0 else if x.state = 4 then raise s 0x0602 c 0 else s) s

/-- S5: every populated channel trains (R333). -/
def trainAll (e : BootEnv) (late : Bool) (s : State) : State :=
  let xs := (List.range 16).map (trainChan s e)
  let fails := (List.range 16).map (fun c => chanFails s e c (xs.getD c {}))
  let spd := (List.range 16).map (fun c => match dimmAt s e c with | some d => d.serial | none => s.kp.flash.spd.getD c 0)
  let all := (List.range 16).filter (fun c => (xs.getD c {}).state != 0)
  let bad := all.filter (fun c => (xs.getD c {}).state != 2)
  let lost := all.any (fun c => (xs.getD c {}).state == 3)
  let s := withFlash (withRec s (fun r => { r with ch := fails })) (fun f => { f with spd := spd })
  let s := (List.range 16).foldl (fun s c => putChan s c (xs.getD c {})) s
  let s := chanCauses { s with bb := { s.bb with trained := true } } xs
  endStep (setRegBit s rBbMemStatus 30 true) e 5
    (if late || all.isEmpty then 5 else itemsOutcome all bad (all.any (fun c => (xs.getD c {}).conservative)))
    (if late then 0x0B06 else if lost then 0x0601 else if bad.isEmpty then 0 else 0x0602) (maskOf bad)

/-- S5, or the exit from self-refresh after a warm reset (R334, R485). Bobbin is released. -/
def bootS5 (e : BootEnv) (late : Bool) (s : State) : State :=
  let s := if s.bb.trained then
      (List.range 16).foldl (fun s c => putChan s c (sget (fun _ => ({} : ChanSt)) s.bb.chans c)) s
    else trainAll e late s
  release (infoValid (sizeMemory s)) [6]

/-- READY rises; Keep sets region entry 0 to a SCRATCH region of 1 GiB at the top of the DPA space; Memory_Active rises (R334,
R341, R421). -/
def memoryReady (s : State) : State :=
  let s := setRegBit (setRegBit s rBbMemStatus 30 false) rBbMemStatus 31 true
  if dpaSize s < 2 ^ 30 then s
  else
    let s := setReg64 (setReg64 s (rBbRgBase 0) (dpaSize s - 2 ^ 30)) (rBbRgSize 0) (2 ^ 30)
    msix (setRegBit (setRegN s (rBbRgCtrl 0) (2 ^ 31 + 5 * 2 ^ 28)) rCxMemStatus 30 true) 1

/-- S6: zeroing starts where S5 has trained; else the contents stand and READY rises (R334). -/
def bootS6 (e : BootEnv) (s : State) : State :=
  if stepOutcome s 5 = 0 then passStep (memoryReady s) e 6 else withKp s (fun k => { k with zeroing := true })

/-! ### S7-S10 -/

/-- The owner record that S11 takes: copy A, else copy B, else none (R484, R490). -/
def ownerRecord (s : State) : Option OwnerRec := s.kp.flash.ownerA <|> s.kp.flash.ownerB

/-- S7: the lane groups calibrate; alternate presets at counts 1 and 2, none at 3 or more (R484). -/
def bootS7 (e : BootEnv) (late : Bool) (s : State) : State :=
  let all := List.range (laneCount s / 16 + b2n (laneCount s % 16 != 0))
  let cnt := fun g => (curRec s).grp.getD g 0
  let bad := all.filter (fun g => e.groupFail.contains g || decide (3 ≤ cnt g))
  let alt := all.any (fun g => !bad.contains g && decide (1 ≤ cnt g))
  let grp := (List.range 6).map (fun g =>
    if bad.contains g then (if 3 ≤ cnt g then cnt g else satN 8 (cnt g + 1)) else if all.contains g then 0 else cnt g)
  let s := withRec { s with bm := { s.bm with dead := bad } } (fun r => { r with grp := grp })
  let s := endStep s e 7 (if late then 5 else itemsOutcome all bad alt) (if late then 0x0B06 else if bad.isEmpty then 0 else 0x0109)
    (maskOf bad)
  release s [1]

/-- S8: EN of the ports that the owner record names (R478, R489). -/
def bootS8 (e : BootEnv) (late : Bool) (s : State) : State :=
  let mask := leAt ((ownerRecord s).getD {}).policy 5 1
  let all := (List.range 8).filter (fun p => bitN mask p)
  let bad := all.filter (fun p => e.portFail.contains p)
  let cnt := fun p => (curRec s).port.getD p 0
  let alt := all.any (fun p => decide (1 ≤ cnt p))
  let s := all.foldl (fun s p => setPortState (setRegBit s (rKwPortCfg p) 31 true) p 1) s
  let s := bad.foldl (fun s p => portDown s p 0x0701) s
  let s := withRec s (fun r => { r with port := (List.range 8).map (fun p =>
    if bad.contains p then satN 8 (r.port.getD p 0 + 1) else if all.contains p then 0 else r.port.getD p 0) })
  let s := endStep s e 8 (if late then 5 else if all.isEmpty then 1 else itemsOutcome all bad alt)
    (if late then 0x0B06 else if bad.isEmpty then 0 else 0x0701) (maskOf bad)
  release s [7]

/-- S9 ends skipped, with the cause of R484; its failure count rises (R483). -/
def skipS9 (s : State) (e : BootEnv) (cause outcome : Nat) : State :=
  let s := if cause = 0x0B07 then raise s 0x0B07 9 0 else s
  putStep s 9 { outcome := outcome, fails := satN 8 (stepFails s 9 + 1), cause := cause, ms := e.ms.getD 9 0 }

/-- S9: the live eye-scan baseline (R517), skipped at count 1 and at odd counts of 3 or more (R483). -/
def bootS9 (e : BootEnv) (late : Bool) (s : State) : State :=
  let n := stepFails s 9
  if late then skipS9 s e 0x0B06 5
  else if n = 1 || (decide (3 ≤ n) && n % 2 == 1) || !e.eyeOk then skipS9 s e 0x0B07 3
  else
    let s := (List.range 144).foldl (fun s i => setReg s (rEyBase i) 0) s
    let s := e.eye.foldl (fun s x =>
      if x.1 < 144 then setRegN s (rEyBase x.1) (2 ^ 31 + x.2.1 % 128 * 2 ^ 16 + x.2.2 % 64) else s) s
    passStep s e 9

/-- S10: sensor trim, PMBus discovery, start of calibration; all 16 sensors of a Loom die FAILED: DEGRADED. PMC is released. -/
def bootS10 (e : BootEnv) (late : Bool) (s : State) : State :=
  let bad := (List.range 72).filter (fun i => sensorPresent s i && e.sensorFail.contains i)
  let s := bad.foldl (fun s i => raise (setRegBit s (rPmTemp i) 30 true) 0x0A0D i 0) s
  let s := if (List.range (dieCount s)).any (fun d => (List.range 16).all (fun k => bad.contains (16 * d + k))) then degrade s else s
  let s := (List.range 8).foldl (fun s r => match e.rails[r]? with
    | some v => setF s (rPmVrAddr r) 6 0 (wfld v 6 0)
    | none => s) s
  let out := if late then 5 else if bad.isEmpty then 1 else 4
  release (endStep s e 10 out (if late then 0x0B06 else if bad.isEmpty then 0 else 0x0A0D) bad.length) [10]

/-! ### S11-S15 -/

/-- The owner record in effect, or the defaults of an owner-lost device (R490). -/
def applyOwner (s : State) (r : Option OwnerRec) : State :=
  match r with
  | some r => withKp s (fun k => { k with policy := r.policy, ownerKey := r.key, ownerLost := false })
  | none => withKp s (fun k => { k with policy := defaultPolicy, ownerKey := [], ownerLost := true })

/-- S11: the owner record (R489, R490). -/
def bootS11 (e : BootEnv) (late : Bool) (s : State) : State :=
  let f := s.kp.flash
  let s := if f.ownerA.isNone then raise s 0x0B14 0 0 else s
  let s := if f.ownerB.isNone then raise s 0x0B14 1 0 else s
  if late then endStep (applyOwner s none) e 11 5 0x0B06 0
  else
    let s := applyOwner s (ownerRecord s)
    if f.ownerA.isSome then passStep s e 11
    else endStep s e 11 (if f.ownerB.isSome then 2 else 5) 0x0B14 0

/-- S12: the boot image from flash, when the policy enables it and its failure count is below 3 (R478, R484). -/
def bootS12 (e : BootEnv) (late : Bool) (s : State) : State :=
  if leAt s.kp.policy 3 1 = 0 then s
  else if late then endStep s e 12 5 0x0B06 0
  else if 3 ≤ stepFails s 12 then endStep (raise s 0x0B07 12 0) e 12 3 0x0B07 0
  else
    let img := s.kp.flash.bootImg
    let len := imgTotalLen img
    let r := loadFirst s none 0 len (some img) []
    let r := match r.1.kp.ld.job, r.2 with
      | some j, none => loadSecond r.1 j []
      | _, _ => r
    match r.2 with
    | none => passStep r.1 e 12
    | some x => endStep r.1 e 12 5 x.cause 0

/-- S13: the measurements are sealed. -/
def bootS13 (e : BootEnv) (late : Bool) (s : State) : State :=
  if late then haltStep s e 13 0x0B06 else if e.measureOk then passStep s e 13 else haltStep s e 13 0

/-- S14: the remaining blocks are released. -/
def bootS14 (e : BootEnv) (late : Bool) (s : State) : State :=
  endStep (release s [1, 2, 3, 4, 5, 6, 7, 8, 9, 10, 11]) e 14 (if late then 5 else 1) (if late then 0x0B06 else 0) 0

/-- S15 reached with S6 ended: STATE DONE or DEGRADED, the record written, KP_EVENT (R478, R482). -/
def finishBoot (totalMs : Nat) (s : State) : State :=
  let deg := (curRec s).degraded
  let s := withRec s (fun r => { r with done := true, timeMs := totalMs })
  let s := putStep s 15 { outcome := 1 }
  let s := setF (setBootState s (if deg then 3 else 2)) rKpBootStatus 27 24 15
  let s := kpEvent (writeRecord (withKp s (fun k => { k with step := none }))) 0
  if deg then kpEvent s 1 else s

/-- S15 waits for S6. -/
def bootS15 (e : BootEnv) (s : State) : State :=
  if s.kp.zeroing then withKp s (fun k => { k with step := some 15 }) else finishBoot e.totalMs s

/-! ### The sequence -/

/-- Step `k`; `late`: it has reached its bound (R478). -/
def bootStep (k : Nat) (e : BootEnv) (late : Bool) (s : State) : State :=
  match k with
  | 0 => bootS0 e late s
  | 1 => bootS1 e late s
  | 2 => bootS2 e late s
  | 3 => bootS3 e late s
  | 4 => bootS4 e late s
  | 5 => bootS5 e late s
  | 6 => bootS6 e s
  | 7 => bootS7 e late s
  | 8 => bootS8 e late s
  | 9 => bootS9 e late s
  | 10 => bootS10 e late s
  | 11 => bootS11 e late s
  | 12 => bootS12 e late s
  | 13 => bootS13 e late s
  | 14 => bootS14 e late s
  | _ => bootS15 e s

/-- The boot goes on: no step hangs, STATE is ROM or BOOTING. -/
def bootGoes (s : State) : Bool := s.kp.step.isNone && decide (bootState s ≤ 1)

/-- Step `k` begins, and ends unless it hangs. -/
def runStep (e : BootEnv) (s : State) (k : Nat) : State :=
  if !bootGoes s then s
  else
    let s := setF s rKpBootStatus 27 24 k
    if e.hang = some k then withKp s (fun q => { q with step := some k }) else bootStep k e false s

/-- The steps from `k` on, one after another (R478). -/
def bootFrom (k : Nat) (e : BootEnv) (s : State) : State := ((List.range 16).drop k).foldl (runStep e) s

/-- A start (R478, R482, R483): the record of the start after the one before it, then S0. After power loss the newest record in
flash counts. -/
def bootStart (cause : Nat) (e : BootEnv) (s : State) : State :=
  let prev := s.kp.cur <|> s.kp.flash.ledger.head?
  let s := withKp s (fun k => { k with cur := some (newRecord prev cause k.aon), aon := [], step := none })
  bootFrom 0 e (noteInfo s)

/-- A warm reset with its RESET_CAUSE, and the start that follows (R485). -/
def warmStart (cause : Nat) (e : BootEnv) (s : State) : State := bootStart cause e (warmReset s)

/-! ### Commands -/

/-- SYS_RST_N_RELEASE (R478, R530): the rising edge starts the boot from S0, unless a rail holds the device in reset. -/
def execSysRstNRelease (e : BootEnv) (s : State) : Host.Outcome State Fault Refusal :=
  .next (
    if !s.pins.powered || s.pins.sysRstN then s
    else
      let s := { s with pins := { s.pins with sysRstN := true } }
      if s.pins.undervolt then s else bootStart (if s.kp.cur.isNone then 0 else 1) e s)

/-- RAIL_BACK_IN_DC_BAND (R541): 1 ms after every watched rail is back, the device boots with RESET_CAUSE 1. -/
def execRailBackInDcBand (e : BootEnv) (s : State) : Host.Outcome State Fault Refusal :=
  .next (
    if !s.pins.undervolt then s
    else
      let s := { s with pins := { s.pins with undervolt := false } }
      if s.pins.sysRstN then bootStart 1 e s else s)

/-- The channels that S6 could not zero go out of service (R484). -/
def dropChans (s : State) (bad : List Nat) : State :=
  let s := bad.foldl (fun s c =>
    raise (putChan s c { sget (fun _ => ({} : ChanSt)) s.bb.chans c with state := 3 }) 0x0601 c 0) s
  let s := withRec s (fun r => { r with ch := (List.range 16).map (fun c =>
    if bad.contains c then satN 8 (r.ch.getD c 0 + 1) else r.ch.getD c 0) })
  if bad.isEmpty then s else sizeMemory s

/-- S6 ends (R334, R421): every line of every channel in service is zero. -/
def zeroingEnds (fail : List Nat) (late : Bool) (e : BootEnv) (s : State) : State :=
  let all := (List.range 16).filter (fun c => regBit s rBbMemStatus c)
  let bad := all.filter (fun c => fail.contains c)
  let s := dropChans { s with bb := { s.bb with mem := [], bad := [] } } bad
  let s := endStep s e 6 (if late then 5 else if all.isEmpty then 1 else itemsOutcome all bad false)
    (if late then 0x0B06 else if bad.isEmpty then 0 else 0x0601) (maskOf bad)
  let s := withKp (memoryReady s) (fun k => { k with zeroing := false })
  if s.kp.step = some 15 then finishBoot e.totalMs s else s

/-- MEMORY_ACTIVE (R421, R334): zeroing ends; the channels `fail` could not be zeroed. S15 ends if it waits. -/
def execMemoryActive (fail : List Nat) (e : BootEnv) (s : State) : Host.Outcome State Fault Refusal :=
  .next (if s.kp.zeroing then zeroingEnds fail false e s else s)

/-- STEP_TIMEOUT (R478): the step in progress reaches its bound and is ended as failed; the boot goes on with the answer of
R484. While S15 waits, that step is S6. -/
def execStepTimeout (e : BootEnv) (s : State) : Host.Outcome State Fault Refusal :=
  .next (match s.kp.step with
    | none => s
    | some 15 => if s.kp.zeroing then zeroingEnds e.initFail true e (raise s 0x0B06 6 0) else s
    | some k =>
      let s := withKp (raise s 0x0B06 k 0) (fun q => { q with step := none })
      bootFrom (k + 1) e (bootStep k e true s))

/-- WATCHDOG (R481): Keep's watchdog is not serviced for 2 s; a warm reset with RESET_CAUSE 3. -/
def execWatchdog (e : BootEnv) (s : State) : Host.Outcome State Fault Refusal :=
  .next (
    if s.kp.cur.isNone || !s.pins.sysRstN || s.pins.undervolt then s
    else warmStart 3 e (ledgerEvent (raise s 0x0B09 noSource 0) 6 0x0B09))

end Sys2Proof.Machine
end

