-- ==== Sys2Proof/Machine/Pmc.lean ====
section
/-! DEFINITION. PMC (spec/16): the estimate, calibration, the cap and its control loop, operating points, marrow,
temperature. Quotients in the spec's listings are those of 64-bit integers: towards 0, and >> rounds down. -/

namespace Sys2Proof.Machine

/-! ### The cap (R451, R465) -/

/-- A package cap of `mw` from source `src` (1 cap command, 2 GRANT): refused outside 120,000-450,000 mW. The second
component says whether it stands. -/
def setPackageCap (s : State) (mw src : Nat) : State × Bool :=
  if mw < 120000 ∨ 450000 < mw then (raise s 0x0A02 noSource 0, false)
  else (updateCapEff (setF (setF s rPmCap 19 0 mw) rPmStatus 27 26 src), true)

/-! ### The estimate (R446, R447) -/

/-- v of R444 in mV; 750 before AVS has run. -/
def avsMv (s : State) : Nat :=
  let v := regF s rPmAvsResult 9 0
  if v = 0 then 750 else v

/-- Whether table entry `k` scales with (v ÷ 700)². -/
def coreEntry (k : Nat) : Bool := decide (k ≤ 7)

/-- Energy of operations in units of fJ × 490,000, so that the core scaling is exact. -/
def opEnergy (s : State) (core : Bool) (ops : List Nat) : Nat :=
  ((List.range 16).map (fun k =>
    let e := ops.getD k 0 * (reg s (rPmEtab k)).toNat
    if coreEntry k then e * avsMv s * avsMv s else if core then 0 else e * 490000)).sum

/-- Power in mW of operations of one microsecond, rounded down. -/
def opPower (s : State) (ops : List Nat) : Nat := opEnergy s false ops / (490000 * 1000000)

/-- Signed reading of sensor `i` in quarter degrees, when it is valid and not failed. -/
def tempOf (s : State) (i : Nat) : Option Int :=
  if sensorPresent s i && regBit s (rPmTemp i) 31 && !regBit s (rPmTemp i) 30 then some (sextI 12 (regF s (rPmTemp i) 11 0))
  else none

/-- The hottest of the valid sensors among `is`, with its number. -/
def hottest (s : State) (is : List Nat) : Option (Int × Nat) :=
  is.foldl (fun m i => match tempOf s i, m with
    | some t, some x => if x.1 < t then some (t, i) else m
    | some t, none => some (t, i)
    | none, _ => m) none

/-- The points of f in degrees and hundredths (R447). -/
def leakPoints : List (Nat × Nat) := [(25, 25), (45, 40), (65, 63), (85, 100), (95, 126), (105, 159)]

/-- Interpolation between successive points, in hundredths ÷ 80 (a quarter degree in 20 degrees is 1 part in 80). -/
def leakBetween : List (Nat × Nat) → Int → Int
  | (a, x) :: (b, y) :: rest, q =>
    if q ≤ 4 * (a : Int) then 80 * x
    else if q ≤ 4 * (b : Int) then 80 * (x : Int) + ((y : Int) - x) * (q - 4 * a) * (80 / (4 * ((b : Int) - a)))
    else leakBetween ((b, y) :: rest) q
  | [(_, x)], _ => 80 * x
  | [], _ => 0

/-- f(T) of die `d` in hundredths ÷ 80. -/
def leakOf (s : State) (d : Nat) : Int :=
  match hottest s ((List.range 16).map (fun k => 16 * d + k)) with
  | some (t, _) => leakBetween leakPoints t
  | none => 80 * Config.leakFactor d

/-- The leakage of the Loom dies in mW, rounded down. -/
def leakPower (s : State) : Nat :=
  let v := avsMv s
  let sum := ((List.range (dieCount s)).map (fun d => (s.fuse.leakMw.getD d 0 : Int) * leakOf s d)).sum
  (sum * (v ^ 3 : Nat) / (8000 * 343000000 : Nat)).toNat

/-- Operations of two counts together. -/
def addOps (a b : List Nat) : List Nat := (List.range 16).map (fun k => a.getD k 0 + b.getD k 0)

/-- All operations that issued in the sample. -/
def issuedOps (x : PmcSample) : List Nat :=
  addOps (addOps (addOps x.fixed x.c4) (addOps x.peer x.c3)) (addOps x.c2 x.marrow)

/-- p_raw in mW. -/
def rawPower (s : State) (x : PmcSample) : Nat := opPower s (issuedOps x) + leakPower s + s.fuse.pSpnMw

/-- g in Q16. -/
def calGain (s : State) : Nat := regF s rPmCalGain 17 0
/-- o in mW. -/
def calOfs (s : State) : Int := sextI 32 (reg s rPmCalOfs).toNat

/-- The corrected estimate (R449); never below 0. -/
def corrected (s : State) (raw : Nat) : Nat := ((calGain s * raw / 2 ^ 16 : Nat) + calOfs s).toNat

/-- The demand of a class: what issued and what bubbles held back, corrected by g (R446, R449). -/
def demand (s : State) (a held : List Nat) : Nat := calGain s * opPower s (addOps a held) / 2 ^ 16

/-! ### The control loop (R455-R457, R460, R463) -/

/-- Samples of the window. -/
def windowUs (s : State) : Nat :=
  let w := regF s rPmCapCfg 3 0
  (if w = 0 then 16 else w) * 1000

/-- Bubbles of one class for an excess x: b and the excess that stays. -/
def bubble (x : Int) (d : Nat) : Nat × Int :=
  if x ≤ 0 then (0, x)
  else if (d : Int) ≤ x then (64, x - d)
  else
    let b := ceilDiv (64 * x.toNat) d
    (b, x - (d * b / 64 : Nat))

/-- Power left of a demand under b bubbles in 64. -/
def afterBubbles (d b : Nat) : Nat := d - d * b / 64

/-- Power in mW as VDD_CORE current in mA. -/
def toMa (s : State) (mw : Nat) : Int := (mw * 1000 / avsMv s : Nat)

/-- The smallest b in 64 for which class C3 brings the current down to `hi`, or 64. -/
def slopeBubbles (s : State) (hi i : Int) (core3 b0 : Nat) : Nat :=
  ((List.range 65).find? (fun b => b0 ≤ b && i - toMa s (afterBubbles core3 b0 - afterBubbles core3 b) ≤ hi)).getD 64

/-- What marrow comes to (R463, R464): b[c3], current in mA rounded down to capacity ÷ 64, the next `last`, and
SLOPE_EXCEEDED, MARROW_SHORT, MARROW_CAPPED. -/
structure MarrowOut where
  b3 : Nat
  ma : Int
  last : Int
  slope : Bool
  short : Bool
  capped : Bool

/-- The marrow load for a core current `i`, a C3 core share of demand `core3`, and `room` mA under the cap. -/
def marrowLoad (s : State) (i : Int) (core3 b3 capacity : Nat) (room : Int) : MarrowOut :=
  let fl : Int := regF s rPmMarrowCfg 25 16 * 1000
  let sl : Int := (max 1 (regF s rPmMarrowCfg 7 0)) * 1000
  let lo := max fl (s.pm.lastMa - sl)
  let hi := s.pm.lastMa + sl
  let b := if hi < i then slopeBubbles s hi i core3 b3 else b3
  let i' := i - toMa s (afterBubbles core3 b3 - afterBubbles core3 b)
  let want := max 0 (clampI lo hi i' - i')
  let room := max 0 room
  let got := min (min want capacity) room
  let unit : Int := max 1 (capacity / 64)
  let ma := got / unit * unit
  ⟨b, ma, i' + ma, decide (hi < i'), decide ((capacity : Int) < want), decide (room < min want capacity)⟩

/-- The macros that marrow can use (R461, R462): those whose page 7 holds the pattern, in a warp tile or in a weft tile whose
DT_STATE is IDLE or ENDED. -/
def marrowMacros (s : State) : Nat :=
  (s.tile.pages.filter (fun e =>
    let t := e.1 / 128
    e.2.marrow && (planeOf s t == 1 || (planeOf s t == 2 && ((core s t).state == coreIdle || (core s t).state == coreEnded))))).length

/-- The mean of the measurements over the window (100 µs each). -/
def measMean (s : State) : Nat :=
  let l := s.pm.meass.take (windowUs s / 100)
  if l.isEmpty then 0 else l.sum / l.length

/-- POWER_ALERT and its end (R460). -/
def powerAlert (s : State) (allFull : Bool) : State :=
  let low := allFull && regF s rTbWeftOp 2 0 == 7
  let us := if low then s.pm.lowUs + 1 else 0
  let s := { s with pm := { s.pm with lowUs := us } }
  let eff := regF s rPmCapEff 19 0
  if regBit s rPmStatus 30 then
    if 100 * measMean s ≤ 98 * eff || !allFull then
      { setRegBit s rPmStatus 30 false with pins := { s.pins with pwrAlertN := true } }
    else s
  else if windowUs s ≤ us && eff < measMean s then
    let s := raise (setRegBit s rPmStatus 30 true) 0x0A04 noSource 0
    { s with pins := { s.pins with pwrAlertN := false } }
  else s

/-- The throttle level is in effect (R467, R469). -/
def throttled (s : State) : Bool := regBit s rPmThermStatus 25 || regBit s rPmThermStatus 26

/-- The budget and the hold flag published (R457). -/
def publishBudget (s : State) (allow : Int) (p pWeft : Nat) : State :=
  let b := (max 0 (allow - ((p : Int) - pWeft))).toNat
  setRegBit (setF s rWfBudget 23 0 (min b (2 ^ 24 - 1))) rWfBudget 31 (regBit s rPmThermStatus 24)

/-- PM_ENERGY raised by the estimate of 1 µs (R470): mW · µs is nJ. -/
def countEnergy (s : State) (p : Nat) : State :=
  let t := s.pm.carryNj + p
  let s := setReg64 s rPmEnergy ((reg64 s rPmEnergy + t / 1000) % 2 ^ 64)
  { s with pm := { s.pm with carryNj := t % 1000 } }

/-- What the activity counters of the tiles that `p` takes show, by entry. -/
def tileActs (s : State) (p : Nat → Bool) : List Nat :=
  s.tile.act.foldl (fun l e => if p (e.1 / 16) then setAt l (e.1 % 16) (l.getD (e.1 % 16) 0 + e.2) else l) (List.replicate 16 0)

/-- The operations of one microsecond: what the tiles counted (warp tiles C0, weft tiles C3) with what the counters elsewhere
show (R19, R446). -/
def withTiles (s : State) (x : PmcSample) : PmcSample :=
  let weft := tileActs s (fun t => planeOf s t == 2)
  { x with fixed := addOps x.fixed (tileActs s (fun t => planeOf s t == 1)), c3 := addOps x.c3 weft, weft := addOps x.weft weft
           heldC3 := addOps x.heldC3 [0, 0, 0, 0, (s.tile.held.map (·.2)).sum] }

/-- The counters of the tiles start the next microsecond at 0. -/
def clearActs (s : State) : State := { s with tile := { s.tile with act := [], held := [] } }

/-- An estimate enters the window and the sums of the calibration. -/
def noteEstimate (s : State) (raw p : Nat) : State :=
  { s with pm := { s.pm with window := (p :: s.pm.window).take 16000, rawSum := s.pm.rawSum + raw, rawN := s.pm.rawN + 1 } }

/-- What a control update shows: the bubbles of C4, peer and C2 `b`, the marrow `m` with the bubble of C3, the estimate `p`, the
budget `allow` and the weft power `weft`; PWR_ALERT when every class is at its limit. -/
def showControl (s : State) (b : Nat × Nat × Nat) (m : MarrowOut) (p : Nat) (allow : Int) (weft : Nat) (room : Bool) : State :=
  let s := setRegN s rPmBubble (b.1 + b.2.1 * 2 ^ 8 + m.b3 * 2 ^ 16 + b.2.2 * 2 ^ 24)
  let s := setRegN s rPmMarrowStatus ((m.ma / 10).toNat % 2 ^ 16 + marrowMacros s % 2 ^ 14 * 2 ^ 16)
  let s := setF s rPmStatus 2 0 (4 * b2n m.slope + 2 * b2n m.short + b2n m.capped)
  let s := setF s rPmPEst 19 0 (min p (2 ^ 20 - 1))
  let s := countEnergy s p
  let s := publishBudget s allow p weft
  let s := powerAlert s (b.1 == 64 && b.2.1 == 64 && m.b3 == 64 && b.2.2 == 64)
  { s with pm := { s.pm with lastMa := m.last, c3Sum := s.pm.c3Sum + m.b3, headroom := room } }

/-- PMC_CONTROL_UPDATE (R455): one microsecond. `sample` is what the counters outside the tiles show. -/
def execPmcControlUpdate (sample : PmcSample) (s : State) : Host.Outcome State Fault Refusal :=
  .next (
    let x := withTiles s sample
    let s := clearActs s
    let raw := rawPower s x
    let p := corrected s raw
    let s := noteEstimate s raw p
    let n : Int := windowUs s
    let eff : Int := regF s rPmCapEff 19 0
    let h : Int := eff * n - ((s.pm.window.take (windowUs s)).sum : Int)
    let allow := eff + h.tdiv (n / 8)
    let g := fun (a : List Nat) => demand s a []
    let d4 := demand s x.c4 x.heldC4
    let dp := demand s x.peer x.heldPeer
    let d3 := demand s x.c3 x.heldC3
    let d2 := demand s x.c2 x.heldC2
    let rest : Int := (p : Int) - g x.c4 - g x.peer - g x.c3 - g x.c2 - g x.marrow
    let r4 := bubble (rest + d4 + dp + d3 + d2 - allow) d4
    let rp := bubble r4.2 dp
    let r3 := bubble rp.2 d3
    let r2 := bubble r3.2 d2
    let b3 := if throttled s then max 32 r3.1 else r3.1
    let p1 := rest + afterBubbles d4 r4.1 + afterBubbles dp rp.1 + afterBubbles d3 b3 + afterBubbles d2 r2.1
    let coreOf := fun (a held : List Nat) b =>
      afterBubbles (opEnergy s true (addOps a held) / (490000 * 1000000)) b
    let core := coreOf x.fixed [] 0 + coreOf x.c4 x.heldC4 r4.1 + coreOf x.peer x.heldPeer rp.1 + coreOf x.c3 x.heldC3 b3
      + coreOf x.c2 x.heldC2 r2.1 + leakPower s
    let on := regBit s rPmMarrowCfg 31 && runActive s
    let m : MarrowOut := if on then
        marrowLoad s (toMa s core) (coreOf x.c3 x.heldC3 0) b3 x.capacity ((allow - p1) * 1000 / avsMv s)
      else ⟨b3, 0, toMa s core, false, false, false⟩
    let s := showControl s (r4.1, rp.1, r2.1) m p allow (calGain s * opPower s x.weft / 2 ^ 16) (eff * n ≤ 20 * h)
    if x.mismatches = 0 then s
    else raiseOnce (countUp s rPmMarrowMchk x.mismatches) 0x0A0E 0 noSource 0)

/-! ### Measurement and calibration (R448-R450) -/

/-- Rails that PMC polls: all but VDD_CORE and VDD_SRAM, which are sensed on the package. -/
def railSum (s : State) : Nat := ((List.range 6).map (fun r => sget dNat s.pm.rails r)).sum

/-- A rail has failed three times in a row: calibration is frozen. -/
def frozen (s : State) : Bool := (List.range 8).any (fun r => decide (3 ≤ sget dNat s.pm.railFails r))

/-- The gap of R450 over 10 ms. -/
def driftGap (s : State) : Bool :=
  let e := (s.pm.ests.take 100).sum
  let m := (s.pm.meass.take 100).sum
  decide (100 ≤ s.pm.ests.length) && decide (3 * (m : Int) < 100 * (e - m).natAbs)

/-- PMC_MEASUREMENT (R448-R450): the package sense has shown `core` mW over 100 µs. -/
def execPmcMeasurement (core : Nat) (s : State) : Host.Outcome State Fault Refusal :=
  .next (
    let pm := core + railSum s
    let pe := if s.pm.rawN = 0 then 0 else s.pm.rawSum / s.pm.rawN
    let g : Int := calGain s
    let est := g * pe / 2 ^ 16 + calOfs s
    let s := setF s rPmPMeas 19 0 (min pm (2 ^ 20 - 1))
    let cal := s.pm.calN
    let s := { s with pm := { s.pm with rawSum := 0, rawN := 0
                                        ests := (est :: s.pm.ests).take 160, meass := (pm :: s.pm.meass).take 160
                                        calN := if frozen s then cal else cal + 1 } }
    let drift := if 2000 ≤ s.pm.calN && driftGap s then s.pm.driftN + 1 else 0
    let s := { s with pm := { s.pm with driftN := drift } }
    let s := if drift = 1000 then raise s 0x0A06 noSource 0 else s
    if frozen s then setRegBit s rPmStatus 28 false
    else
      let err := (pm : Int) - est
      let o := clampI (-20000) 20000 (calOfs s + err.tdiv 256)
      let g' := if 20000 ≤ pe then clampI 55705 75366 (g + (err * 2 ^ 16).tdiv (pe * 64)) else g
      let s := setF (setRegN s rPmCalOfs (encI 32 o)) rPmCalGain 17 0 g'.toNat
      setRegBit s rPmStatus 28 (decide (2000 ≤ s.pm.calN)))

/-- One rail of a poll: its power in mW, or a failed transaction (R448). -/
def pollRail (s : State) (r : Nat) (v : Option Nat) : State :=
  match v with
  | some mw => { s with pm := { s.pm with rails := sset dNat r mw s.pm.rails, railFails := sset dNat r 0 s.pm.railFails } }
  | none =>
    let k := sget dNat s.pm.railFails r + 1
    let s := { s with pm := { s.pm with railFails := sset dNat r k s.pm.railFails } }
    if k = 3 then raise s 0x0A0C r 0 else s

/-- PMBUS_POLL (R448): READ_VOUT × READ_IOUT of the rails of PM_VR_ADDR, in order; none for a transaction that fails. -/
def execPmbusPoll (vals : List (Option Nat)) (s : State) : Host.Outcome State Fault Refusal :=
  .next ((List.range 8).foldl (fun s r => match vals[r]? with
    | some v => pollRail s r v
    | none => s) s)

/-! ### Operating points (R49, R445, R458) -/

/-- The fastest operating point that PMC may request (R445). -/
def opCeiling (s : State) : Nat := max (regF s rPmAvsCfg 2 0) (regF s rPmOpLimit 2 0)

/-- A weft operating point requested (R49). -/
def requestOp (s : State) (k : Nat) : State :=
  setRegBit (setF (setF s rTbWeftOp 6 4 k) rPmOp 2 0 k) rTbWeftOp 8 true

/-- PMC_OP_STEP (R458): one step, which takes effect at the next weft edge unless a stretch falls on it (R51). -/
def execPmcOpStep (stretched : Bool) (s : State) : Host.Outcome State Fault Refusal :=
  .next (
    let k := regF s rPmOp 2 0
    let c3 := s.pm.c3Sum
    let s := { s with pm := { s.pm with c3Sum := 0 } }
    let s' := if (3200 < c3 || throttled s) && k < 7 then requestOp s (k + 1)
      else if c3 = 0 && s.pm.headroom && !throttled s && opCeiling s < k then requestOp s (k - 1)
      else if k < opCeiling s then requestOp s (k + 1)
      else s
    if stretched then s' else applyOpStep s')

/-! ### Temperature (R466-R469) -/

/-- One reading in quarter degrees (R466). -/
def readSensor (s : State) (i : Nat) (q : Int) : State :=
  let out := decide (q < -160) || decide (600 < q)
  let k := if out then sget dNat s.pm.outCnt i + 1 else 0
  let s := setRegBit (setF s (rPmTemp i) 11 0 (encI 12 (clampI (-2048) 2047 q))) (rPmTemp i) 31 true
  let s := { s with pm := { s.pm with outCnt := sset dNat i k s.pm.outCnt } }
  if k = 3 && !regBit s (rPmTemp i) 30 then raise (setRegBit s (rPmTemp i) 30 true) 0x0A0D i 0 else s

/-- A level with its threshold in degrees, set at the threshold and cleared 3 °C below it; its cause once per
excursion. -/
def level (s : State) (a b thr : Nat) (t : Int) (cause : Nat) : State :=
  if regBit s a b then (if t ≤ 4 * ((thr : Int) - 3) then setRegBit s a b false else s)
  else if 4 * (thr : Int) ≤ t then raise (setRegBit s a b true) cause noSource 0 else s

/-- The levels evaluated on T_max (R467). -/
def thermLevels (s : State) : State :=
  match hottest s (List.range 72) with
  | none => s
  | some (t, i) =>
    let s := setF (setF s rPmThermStatus 11 0 (encI 12 t)) rPmThermStatus 22 16 i
    let s := level s rPmThermStatus 24 (min 105 (regF s rPmThermCfg 7 0)) t 0x0A07
    let s := level s rPmThermStatus 25 (min 105 (regF s rPmThermCfg 15 8)) t 0x0A08
    level s rPmStatus 29 105 t 0x0A09

/-- TEMP_SAMPLE (R466, R467): the readings of the sensors in quarter degrees, in order. -/
def execTempSample (qs : List Int) (s : State) : Host.Outcome State Fault Refusal :=
  .next (thermLevels ((List.range 72).foldl (fun s i => match qs[i]? with
    | some q => if sensorPresent s i then readSensor s i q else s
    | none => s) s))

/-- VR_HOT (R469): VR_HOT_N goes low. -/
def execVrHot (s : State) : Host.Outcome State Fault Refusal :=
  .next (
    let was := regBit s rPmThermStatus 26
    let s := setRegBit { s with pins := { s.pins with vrHotN := false } } rPmThermStatus 26 true
    if was then s else raise s 0x0A0B noSource 0)

/-- VR_HOT_N_HIGH (R469): the throttle level of VR_HOT_N ends. -/
def execVrHotNHigh (s : State) : Host.Outcome State Fault Refusal :=
  .next (setRegBit { s with pins := { s.pins with vrHotN := true } } rPmThermStatus 26 false)

/-- THERMAL_TRIP (R468): the comparator of sensor `k` crosses 115 °C. The outputs assert, every core clock stops, any run
ends without further records (its last blocks close, R370, but their link records are not written), and the trip enters the boot ledger. -/
def execThermalTrip (k : Nat) (s : State) : Host.Outcome State Fault Refusal :=
  onUnit 72 72 k s fun s =>
    if !sensorPresent s k then s
    else
      let s := ledgerEvent (raise s 0x0A0A k 0) 2 0x0A0A
      let s := if runActive s then abortRun (provRunEnd s) stFailed else lockEnds s stFailed
      let s := setRegBit s rTbStatus 4 false
      { s with pins := { s.pins with thermtripN := false, pwrOffReqN := false }
               tb := { s.tb with sysclkLost := true }
               pm := { s.pm with tripped := true, tripSensor := k } }

end Sys2Proof.Machine
end

