-- ==== Sys2Proof/Machine/Kwengo.lean ====
section
/-! DEFINITION. The messages of Kwengo (spec/14 R395-R405): remote memory, forwarded events, time cross-check, farm
power. Each command about a message takes the oldest one received of its virtual lane, when it is of that type. -/

namespace Sys2Proof.Machine

/-! ### Time cross-check (R399, R400) -/

/-- TC_LOG2; other values are treated as 20. -/
def tcLog2 (s : State) : Nat :=
  let v := regF s rKwFarmCfg 12 8
  if 4 ≤ v ∧ v ≤ 20 then v else 20

/-- The TIME_CHECK that port `p` sends next (R399). -/
def timeCheckMsg (s : State) (p : Nat) : List Byte :=
  let x := port s p
  let n := x.tcN % 65536
  let prev := if x.tcN = 0 then 0 else
    match x.tcDeps.find? (fun d => d.1 == (x.tcN - 1) % 65536) with | some d => d.2 | none => 0
  let rx := match x.tcRx with | some r => r | none => (0xFFFF, 0)
  msgHead 0x01 0 48 (devId s) (partner s p) (leBytes 2 n ++ leBytes 2 rx.1 ++ leBytes 4 (reg s rBbRunid).toNat)
    ++ leBytes 8 prev ++ leBytes 8 rx.2 ++ zeros 16

/-- Port `p` sends a TIME_CHECK as the first message of its next bolt. -/
def sendTimeCheck (s : State) (p : Nat) : State :=
  if portState s p ≠ 2 then s
  else
    let m := timeCheckMsg s p
    let x := port s p
    setPort s p { x with txq := (0, m) :: x.txq, tcN := x.tcN + 1 }

/-- TIME_CHECK_SEND (R399): a tick that is a multiple of 2^TC_LOG2 has begun in a run. -/
def execTimeCheckSend (s : State) : Host.Outcome State Fault Refusal :=
  .next (
    if runActive s && s.tb.tick % 2 ^ tcLog2 s == 0 then (List.range 8).foldl sendTimeCheck s else s)

/-- The measurement of R400 with its four times. -/
def timeMeasured (s : State) (p rxa txa rxb txb : Nat) : State :=
  let ofs : Int := ((rxa : Int) - txa) - ((rxb : Int) - txb)
  let dly : Int := ((rxa : Int) - txa) + ((rxb : Int) - txb)
  let s := setRegN (setRegN s (rKwTcOfs2 p) (encI 32 ofs)) (rKwTcDly2 p) (encI 32 dly)
  let bad := 2 * regF s rKwTcLimit 15 0 < ofs.natAbs
  let s := setRegBit (setRegBit s (rKwPortStatus p) 28 true) (rKwPortStatus p) 27 bad
  if bad then raise s 0x0709 p 0 else s

/-- A TIME_CHECK `m` from the partner (R400): measured when none of the four times is missing; outside a run the state of the
check is held (R407). -/
def takeTimeCheck (s : State) (p : Nat) (m : PeerRx) : State :=
  let n := leAt m.bytes 8 2
  let arrival := if m.rpl then 0 else ((m.tag : Int) + sextI 16 (regF s (rKwPortSkew p) 15 0)).toNat
  let x := port s p
  let rxa := leAt m.bytes 24 8
  let txb := leAt m.bytes 16 8
  let txa := match x.tcDeps.find? (fun d => d.1 == leAt m.bytes 10 2) with | some d => d.2 | none => 0
  let rxb := match x.tcRx with | some r => if (r.1 + 1) % 65536 = n then r.2 else 0 | none => 0
  if !runActive s then s
  else
  let s := setPort s p { x with tcRx := some (n, arrival) }
  if leAt m.bytes 12 4 ≠ (reg s rBbRunid).toNat then raiseOnce s 0x070A 0 p 0
  else if rxa = 0 ∨ txa = 0 ∨ rxb = 0 ∨ txb = 0 then s
  else timeMeasured s p rxa txa rxb txb

/-- TIME_CHECK (R400): the oldest VL0 message of port `p` is a TIME_CHECK. -/
def execTimeCheck (p : Nat) (s : State) : Host.Outcome State Fault Refusal :=
  onUnit 8 8 p s fun s =>
    match nextMsg s p 0 0x01 with
    | some (m, s) => takeTimeCheck s p m
    | none => s

/-! ### Farm power (R401-R405) -/

/-- Farm power is enabled. -/
def farmOn (s : State) : Bool := regBit s rKwFarmCfg 31
/-- The UP port of the tree; none at the root. -/
def upPort (s : State) : Option Nat := let u := regF s rKwTreeCfg 3 0; if u < 8 then some u else none

/-- The effective floor (R402). -/
def farmFloor (s : State) : Nat := max (regF s rKwFarmFloor 19 0) (regF s rPmFloor 19 0)

/-- What this device reports of itself. -/
def ownScore (s : State) : FarmScore :=
  { epoch := (reg s rKwFarmEpoch).toNat, cap := regF s rPmCap 19 0, floor := farmFloor s,
    ceil := regF s rKwFarmCeil 19 0, score := weftScore s }

/-- The SCORE message; what DST holds is not stated and is free (R402). -/
def scoreMsg (s : State) (dst : List Byte) : List Byte :=
  let f := ownScore s
  msgHead 0x02 0 32 (devId s) (ofLe dst % 4096) (leBytes 4 f.epoch ++ leBytes 4 f.cap)
    ++ leBytes 4 f.floor ++ leBytes 4 f.ceil ++ leBytes 2 f.score ++ zeros 6

/-- A GRANT accepted by Keep (R403, R405): every condition holds, and CAP is written as the package cap. -/
def takeGrant (s : State) (bs : List Byte) : State :=
  let epoch := leAt bs 8 4
  let cap := leAt bs 12 4
  let ok := farmOn s && (kmac256 s.kw.farmKey (bs.take 16) 16 [] == slice bs 16 16)
    && decide ((reg s rKwFarmEpoch).toNat < epoch) && decide (farmFloor s ≤ cap) && decide (cap ≤ regF s rKwFarmCeil 19 0)
  if !ok then raise s 0x070B noSource 0
  else
    let r := setPackageCap s cap 2
    if r.2 then setRegN r.1 rKwFarmEpoch epoch else raise r.1 0x070B noSource 0

/-- A GRANT for Keep (R405, spec/15 R435): handled after what arrived before it. -/
def keepGrant (s : State) (bs : List Byte) : State :=
  if keepBusy s || !s.kp.waiting.isEmpty then keepLater s (.grant bs) else takeGrant s bs

/-- A GRANT on its way (R401): to Keep here, or on the port recorded for its DST, or dropped. -/
def routeGrant (s : State) (bs : List Byte) : State :=
  let dst := leAt bs 6 2 % 4096
  if dst = devId s then keepGrant s bs
  else
    let r := sget dNat s.kw.route dst
    if r = 0 then raise s 0x070C noSource 0 else portSend s (r - 1) 0 bs

/-- The coordinator grants `cap` mW to device `d` (R403, R404). -/
def sendGrant (s : State) (d cap : Nat) : State :=
  let e := sget dNat s.kw.epochs d + 1
  let s := { s with kw := { s.kw with epochs := sset dNat d e s.kw.epochs } }
  let head := msgHead 0x03 0 48 (devId s) d (leBytes 4 e ++ leBytes 4 cap)
  routeGrant s (head ++ kmac256 s.kw.farmKey head 16 [] ++ zeros 16)

/-- The coordinator runs here: the root with COORD set. -/
def coordinates (s : State) : Bool := farmOn s && regBit s rKwFarmCfg 30 && (upPort s).isNone

/-- A SCORE of device `d` reaches Keep at the root: the increase whose decrease it confirms is granted (R404). -/
def noteScore (s : State) (d : Nat) (f : FarmScore) : State :=
  let s := { s with kw := { s.kw with scores := s.kw.scores.filter (fun e => e.1 != d) ++ [(d, f)] } }
  match s.kw.pairs.find? (fun q => q.down == d && q.downCap == f.cap) with
  | some q =>
    if coordinates s then sendGrant { s with kw := { s.kw with pairs := s.kw.pairs.erase q } } q.up q.upCap else s
  | none => s

/-- The fields of a SCORE message. -/
def scoreOf (bs : List Byte) : FarmScore :=
  { epoch := leAt bs 8 4, cap := leAt bs 12 4, floor := leAt bs 16 4, ceil := leAt bs 20 4, score := leAt bs 24 2 }

/-- SCORE_SEND (R402): SCORE_MS have passed on a device with farm power enabled. -/
def execScoreSend (s : State) : Host.Outcome State Fault Refusal :=
  .next (
    if !farmOn s then s
    else
      match upPort s with
      | some u =>
        let r := freeBytes s 2
        portSend r.2 u 0 (scoreMsg r.2 r.1)
      | none => noteScore s (devId s) (ownScore s))

/-- SCORE (R401): from a DOWN port it goes on unchanged on the UP port, and the port is recorded for its SRC; at the root
it goes to Keep. -/
def execScore (p : Nat) (s : State) : Host.Outcome State Fault Refusal :=
  onUnit 8 8 p s fun s =>
    match nextMsg s p 0 0x02 with
    | none => s
    | some (m, s) =>
      if !regBit s rKwTreeCfg (8 + p) then s
      else
        let src := leAt m.bytes 4 2 % 4096
        let s := { s with kw := { s.kw with route := sset dNat src (p + 1) s.kw.route } }
        match upPort s with
        | some u => portSend s u 0 m.bytes
        | none => noteScore s src (scoreOf m.bytes)

/-- GRANT (R401, R403): the oldest VL0 message of port `p` is a GRANT. -/
def execGrant (p : Nat) (s : State) : Host.Outcome State Fault Refusal :=
  onUnit 8 8 p s fun s =>
    match nextMsg s p 0 0x03 with
    | some (m, s) => routeGrant s m.bytes
    | none => s

/-- The better of two devices for the coordinator: by `worse`, ties to the lower DEVID. -/
def pickDevice (worse : FarmScore → FarmScore → Bool) (l : List (Nat × FarmScore)) : Option (Nat × FarmScore) :=
  l.foldl (fun m e => match m with
    | none => some e
    | some b => if worse b.2 e.2 || (b.2.score == e.2.score && decide (e.1 < b.1)) then some e else some b) none

/-- One turn of the loop of R404 over the devices not yet chosen, by fuel: the pairs (g, d). -/
def coordPairs : Nat → List (Nat × FarmScore) → List ((Nat × FarmScore) × (Nat × FarmScore))
  | 0, _ => []
  | fuel + 1, l =>
    let up := pickDevice (fun b e => decide (b.score < e.score)) (l.filter (fun e => decide (e.2.cap + 5000 ≤ e.2.ceil)))
    let down := pickDevice (fun b e => decide (e.score < b.score))
      (l.filter (fun e => decide (e.2.floor + 5000 ≤ e.2.cap)))
    match up, down with
    | some d, some g =>
      if d.2.score ≤ g.2.score + 1 then []
      else (g, d) :: coordPairs fuel (l.filter (fun e => e.1 != d.1 && e.1 != g.1))
    | _, _ => []

/-- COORDINATOR (R404): SCORE_MS have passed; up to 16 pairs move 5,000 mW each. A decrease that no SCORE has confirmed
by now is taken as rejected, and its increase is cancelled (DESIGN CHOICE: when a decrease counts as rejected is not stated, log
entry 97). -/
def execCoordinator (s : State) : Host.Outcome State Fault Refusal :=
  .next (
    if !coordinates s then s
    else
      let ps := coordPairs 16 s.kw.scores
      let s := { s with kw := { s.kw with
        pairs := ps.map (fun q => ⟨q.1.1, q.1.2.cap - 5000, q.2.1, q.2.2.cap + 5000⟩) } }
      ps.foldl (fun s q => sendGrant s q.1.1 (q.1.2.cap - 5000)) s)

/-! ### Events (R398) -/

/-- Size of the event ring of port `p` in records. -/
def evSize (s : State) (p : Nat) : Nat := 2 ^ regF s (rKwEvCfg p) 4 0

/-- EVENT (R398): the record of the oldest VL1 message of port `p` enters the event ring, or is dropped. -/
def execEvent (p : Nat) (s : State) : Host.Outcome State Fault Refusal :=
  onUnit 8 8 p s fun s =>
    match nextMsg s p 1 0x10 with
    | none => s
    | some (m, s) =>
      let prod := (reg s (rKwEvProd p)).toNat
      if !regBit s (rKwEvCfg p) 31 || (prod + 2 ^ 32 - (reg s (rKwEvCons p)).toNat) % 2 ^ 32 == evSize s p then
        countUp (raiseOnce s 0x0708 0 p 0) (rKwEvDrop p) 1
      else
        setRegN (memWrite s (reg64 s (rKwEvBase p) + 64 * (prod % evSize s p)) (slice m.bytes 16 64))
          (rKwEvProd p) (prod + 1)

/-! ### Remote memory (R395, R396) -/

/-- DPA of a request. -/
def msgDpa (bs : List Byte) : Nat := leAt bs 8 6 % 2 ^ 41

/-- An answer on VL3 to the requester of `m` (R394). -/
def answerPeer (s : State) (p ty flags status : Nat) (m : PeerRx) (data : List Byte) : State :=
  portSend s p 3 (msgHead ty flags (16 + data.length) (devId s) (leAt m.bytes 4 2 % 4096)
    (leBytes 2 status ++ zeros 4 ++ leBytes 2 (leAt m.bytes 14 2)) ++ data)

/-- A VL3 buffer for the answer of a request is free at port `p` (R392): the port holds fewer than 64 answers to send (DESIGN
CHOICE: the number of these buffers is not stated, and is taken as the receiver's, log entry 97). -/
def answerRoom (s : State) (p : Nat) : Bool := decide (((port s p).txq.filter (fun m => m.1 == 3)).length < 64)

/-- The oldest request of port `p` that is accepted (R392): one of type `ty`, once its answer has a buffer. -/
def nextReq (s : State) (p ty : Nat) : Option (PeerRx × State) := if answerRoom s p then nextMsg s p 2 ty else none

/-- MEM_WR (R396): the oldest VL2 message of port `p` is a write request. A refused one raises 0x0609 (R343) and 0x0707. -/
def execMemWr (p : Nat) (s : State) : Host.Outcome State Fault Refusal :=
  onUnit 8 8 p s fun s =>
    match nextReq s p 0x20 with
    | none => s
    | some (m, s) =>
      let a := msgDpa m.bytes
      match kindAt s a 64 with
      | some 3 | some 4 => answerPeer (memWrite s a (slice m.bytes 16 64)) p 0x30 0 0 m []
      | _ => answerPeer (raise (refuseAccess s) 0x0707 p 0) p 0x30 0 0x0707 m []

/-- MEM_RD (R396): the oldest VL2 message of port `p` is a read request; `errs` are the symbol errors of the line. A
refused one raises 0x0609 (R343) and 0x0707. -/
def execMemRd (p : Nat) (errs : List SymErr) (s : State) : Host.Outcome State Fault Refusal :=
  onUnit 8 8 p s fun s =>
    match nextReq s p 0x21 with
    | none => s
    | some (m, s) =>
      let a := msgDpa m.bytes
      match kindAt s a 64 with
      | some 1 | some 2 | some 3 | some 4 =>
        let r := readLine s (a / 64) errs
        if r.2.bad then answerPeer r.1 p 0x31 1 0x0604 m (padTo 64 r.2.bytes)
        else answerPeer r.1 p 0x31 0 0 m (padTo 64 r.2.bytes)
      | _ => answerPeer (raise (refuseAccess s) 0x0707 p 0) p 0x31 0 0x0707 m (zeros 64)

/-- The unit that waits on port `p` for RTAG `r` (R395), with the state in which it no longer waits. -/
def waitFor (s : State) (p r : Nat) (read : Bool) : Option (PeerWait × State) :=
  match s.kw.waits.find? (fun w => w.port == p && w.rtag == r && w.read == read) with
  | some w => some (w, { s with kw := { s.kw with waits := s.kw.waits.erase w } })
  | none => none

/-- WR_ACK (R395): the unit completes, with 0x0346 when the peer refused it. -/
def execWrAck (p : Nat) (s : State) : Host.Outcome State Fault Refusal :=
  onUnit 8 8 p s fun s =>
    match nextMsg s p 3 0x30 with
    | none => s
    | some (m, s) =>
      match waitFor s p (leAt m.bytes 14 2) false with
      | some (w, s) => unitDone s w.tile w.num w.unit (if leAt m.bytes 8 2 = 0 then 0 else 0x0346)
      | none => s

/-- RD_DATA (R395, R396): the unit's data come, poisoned or not, or the peer refused it. -/
def execRdData (p : Nat) (x : UnitEnv) (s : State) : Host.Outcome State Fault Refusal :=
  onUnit 8 8 p s fun s =>
    match nextMsg s p 3 0x31 with
    | none => s
    | some (m, s) =>
      match waitFor s p (leAt m.bytes 14 2) true with
      | some (w, s) =>
        if leAt m.bytes 8 2 = 0 ∨ bitN (leAt m.bytes 1 1) 0 then
          writeUnit s w.tile w.num w.unit w.dst (slice m.bytes 16 64) (bitN (leAt m.bytes 1 1) 0) x
        else unitDone s w.tile w.num w.unit 0x0346
      | none => s

end Sys2Proof.Machine
end

