-- ==== Sys2Proof/Machine/KeepOps.lean ====
section
/-! DEFINITION. Commands to Keep (spec/15 R432-R435, spec/17 R491-R495, R503): how a command is taken from the mailbox or from
MCTP, the checks of a critical command, responses. -/

namespace Sys2Proof.Machine

/-- The bytes of an ASCII string. -/
def ascii (t : String) : List Byte := t.toList.map (fun c => BitVec.ofNat 8 c.toNat)

/-! ### Keys (R475) -/

/-- The seed of the identity key. -/
def identitySeed (s : State) : List Byte := shake256 32 (s.fuse.uds ++ ascii "EX20-IDENTITY")
/-- The seed of the KEM key. -/
def kemSeed (s : State) : List Byte := shake256 64 (s.fuse.uds ++ ascii "EX20-KEM")
/-- An identity signature. -/
def identitySign (s : State) (ctx : String) (msg : List Byte) : List Byte :=
  padTo 2420 (Config.mldsaSign (identitySeed s) (ascii ctx) msg)
/-- The vendor key of the running firmware. -/
def vendorKey (s : State) : List Byte := slice (slotImage s (curRec s).slot) 64 1312
/-- The device has an owner. -/
def owned (s : State) : Bool := !s.kp.ownerKey.isEmpty
/-- The device UID as 8 bytes. -/
def uidBytes (s : State) : List Byte := leBytes 8 s.fuse.uid

/-! ### Which commands Keep serves -/

/-- Recovery, where the ROM serves RECOVERY_WRITE: BOOT_MODE 0b10, or S1 found no valid slot (R480, R484). -/
def inRecovery (s : State) : Bool := bootState s == 5 || (bootState s == 4 && stepOutcome s 1 == 5)

/-- Keep serves opcode `op` (R480, R484, R503). -/
def served (s : State) (op : Nat) : Bool :=
  match bootState s with
  | 4 => op == 1 || op == 2 || (inRecovery s && op == 8)
  | 5 => op == 1 || op == 2 || op == 8
  | _ => stepOutcome s 2 == 1

/-- The opcodes of R492. -/
def listedOpcode (op : Nat) : Bool :=
  [1, 2, 3, 4, 5, 6, 7, 8, 0x10, 0x11, 0x20, 0x21, 0x22, 0x23, 0x24, 0x25, 0x26, 0x27, 0x28].contains op

/-- ARM writes and GRANTs at the front of what waits are handled in their turn (R435), by fuel: a GRANT once Keep is free, an
ARM while no rewrite runs; while a load runs it finds LD_STATUS.BUSY (spec/10 R293). -/
def keepOn : Nat → State → State
  | 0, s => s
  | n + 1, s =>
    match s.kp.waiting with
    | .arm :: l => if s.kp.wiping then s else keepOn n (armNow (withKp s (fun k => { k with waiting := l })))
    | .grant b :: l => if keepBusy s then s else keepOn n (takeGrant (withKp s (fun k => { k with waiting := l })) b)
    | _ => s

/-- Keep goes on with what waits in front of the next command. -/
def keepNext (s : State) : State := keepOn s.kp.waiting.length s

/-! ### Responses (R432, R433, R493) -/

/-- A header of R432: OPCODE or STATUS in bytes 0-1. -/
def mbHeader (b0 b2 len tag : Nat) : List Byte :=
  leBytes 2 b0 ++ leBytes 2 b2 ++ leBytes 4 len ++ leBytes 4 tag ++ zeros 4

/-- The header with which a command came. -/
def cmdHeader (c : KpCmd) : List Byte := mbHeader c.opcode 0 c.payload.length c.tag

/-- The response goes out: into the response buffer with DONE and vector 0, or over MCTP, where one above 16 KiB gives way to
an empty one with STATUS 0x0807 (R503). -/
def respond (s : State) (c : KpCmd) (status : Nat) (body : List Byte) : State :=
  let msg := mbHeader status c.opcode body.length c.tag ++ body
  if c.mctp then
    let out := if 16384 < msg.length then mbHeader 0x0807 c.opcode 0 c.tag else msg
    withKp s (fun k => { k with mctpOut := out :: k.mctpOut })
  else
    let st := s.cx.mbStatus
    let st := setFld (setBit (setBit st 31 false) 30 true) 15 0 (wfld st 15 0 + 1)
    let s := { s with cx := { s.cx with respBuf := ssetMany dByte 0 msg s.cx.respBuf, mbStatus := st } }
    if wbit s.cx.mbCtrl 1 then msix s 0 else s

/-- A command that fails with a cause: the cause is raised and is the STATUS. -/
def failCmd (s : State) (c : KpCmd) (cause : Nat) : State := respond (raise s cause noSource 0) c cause []

/-- The response to a critical command that was accepted with `key` and `ctr`, tagged under that key (R493). -/
def respondTagged (s : State) (c : KpCmd) (key : List Byte) (ctr status : Nat) (body : List Byte) : State :=
  let plain := leBytes 8 ctr ++ body
  let head := mbHeader status c.opcode (plain.length + 16) c.tag
  respond s c status (plain ++ kmac256 key (head ++ plain) 16 (ascii "EX20-RSP"))

/-- An accepted command that then fails its own checks; the counter stays consumed (R494). -/
def failTagged (s : State) (c : KpCmd) (key : List Byte) (ctr cause : Nat) : State :=
  respondTagged (raise s cause noSource 0) c key ctr cause []

/-! ### Taking a command (R433, R435, R495) -/

/-- The command with opcode `op` that Keep takes now: the oldest that waits, or one over MCTP while none waits. While Keep is
occupied it takes none (R495). -/
def takeCmd (src : CmdSrc) (op : Nat) (s : State) : Option (KpCmd × State) :=
  if keepBusy s || !served s op then none
  else match src with
    | .queued => match s.kp.waiting with
      | .cmd c :: cs => if c.opcode = op then some (c, withKp s (fun k => { k with waiting := cs })) else none
      | _ => none
    | .mctp tag payload =>
      if s.kp.waiting.isEmpty then some ({ mctp := true, opcode := op, tag := tag % 2 ^ 32, payload := payload }, s) else none

/-- A command that Keep does not take now: one over MCTP waits behind the load or the commands before it (R435, R495). -/
def heldCmd (src : CmdSrc) (op : Nat) (s : State) : State :=
  match src with
  | .queued => s
  | .mctp tag payload =>
    if served s op then withKp s (fun k =>
      { k with waiting := k.waiting ++ [.cmd { mctp := true, opcode := op, tag := tag % 2 ^ 32, payload := payload }] })
    else s

/-- A command carried out, if Keep takes it; then what waits in front of the next command. A message above 16 KiB over MCTP is answered with 0x0807 (R503). -/
def onCommand (src : CmdSrc) (op : Nat) (s : State) (f : KpCmd → State → State) : State :=
  match takeCmd src op s with
  | none => heldCmd src op s
  | some (c, s) => if c.mctp && decide (16368 < c.payload.length) then failCmd s c 0x0807 else keepNext (f c s)

/-- A critical command fails R494: KP_EVENT.AUTH; failures of the tag and of the counter are counted. -/
def failAuth (s : State) (c : KpCmd) (cause : Nat) (counted : Bool) : State :=
  let s := if counted then withKp (countUp s rKpAuthFail 1) (fun k => { k with authRow := k.authRow + 1 }) else s
  kpEvent (failCmd s c cause) 2

/-- The checks of R494 in their order. When they pass, the last accepted counter is COUNTER and `f` runs with the key, COUNTER
and BODY. -/
def critical (c : KpCmd) (s : State) (f : List Byte → Nat → List Byte → State → State) : State :=
  match s.kp.kCmd with
  | none => failAuth s c 0x0B12 false
  | some key =>
    let n := c.payload.length
    let ctr := leAt c.payload 0 8
    if n < 24 then failAuth s c 0x0807 false
    else if kmac256 key (cmdHeader c ++ c.payload.take (n - 16)) 16 (ascii "EX20-CMD") ≠ c.payload.drop (n - 16) then
      failAuth s c 0x0B10 true
    else if ctr ≤ reg64 s rKpCmdCtr then failAuth s c 0x0B11 true
    else
      f key ctr ((c.payload.drop 8).take (n - 24))
        (withKp (setReg64 s rKpCmdCtr ctr) (fun k => { k with authRow := 0 }))

/-- A critical command carried out, if Keep takes it. -/
def onCritical (src : CmdSrc) (op : Nat) (s : State) (f : KpCmd → List Byte → Nat → List Byte → State → State) : State :=
  onCommand src op s (fun c s => critical c s (f c))

/-- A nonce is used (R487): whether it is the valid one; it is valid once. `late`: its 60 s are over. -/
def useNonce (s : State) (nonce : List Byte) (late : Bool) : State × Bool :=
  if s.kp.nonce = some nonce then (withKp s (fun k => { k with nonce := none }), !late) else (s, false)

/-! ### MAILBOX_GO (R433-R435) -/

/-- The command in the command buffer. -/
def bufferCmd (s : State) : KpCmd :=
  let h := sgetMany dByte s.cx.cmdBuf 0 16
  { mctp := false, opcode := leAt h 0 2, tag := leAt h 8 4, payload := sgetMany dByte s.cx.cmdBuf 16 (leAt h 4 4) }

/-- The header breaks R433: a reserved field, or LEN. -/
def headerBad (s : State) : Bool :=
  let h := sgetMany dByte s.cx.cmdBuf 0 16
  leAt h 2 2 != 0 || leAt h 12 4 != 0 || decide (258032 < leAt h 4 4)

/-- MAILBOX_GO (R433-R435, R492): BUSY sets and the command waits for Keep; a malformed or unlisted one is answered at once; a
GO while BUSY sets OVERRUN. -/
def execMailboxGo (s : State) : Host.Outcome State Fault Refusal :=
  .next (onBlock 11 s fun s =>
    if bootState s = 4 ∨ bootState s = 5 then s
    else if wbit s.cx.mbStatus 31 then
      raise { s with cx := { s.cx with mbStatus := setBit s.cx.mbStatus 29 true } } 0x0806 noSource 0
    else
      let s := { s with cx := { s.cx with mbStatus := setBit s.cx.mbStatus 31 true } }
      if headerBad s then failCmd s { bufferCmd s with payload := [] } 0x0807
      else if !listedOpcode (bufferCmd s).opcode then failCmd s (bufferCmd s) 0x0B13
      else withKp s (fun k => { k with waiting := k.waiting ++ [.cmd (bufferCmd s)] }))

/-- MCTP_CONTROL_MESSAGE (R503): answered from the end of S0. -/
def execMctpControlMessage (msg : List Byte) (s : State) : Host.Outcome State Fault Refusal :=
  .next (if stepOutcome s 0 = 1 then withKp s (fun k => { k with mctpOut := Config.mctpAnswer msg :: k.mctpOut }) else s)

end Sys2Proof.Machine
end

