-- ==== Sys2Proof/Machine/Keep.lean ====
section
/-! DEFINITION. The commands of Keep that read or reset (spec/17 R482, R485-R492, R499): identification, ledger, certificate,
keys, attestation, warm reset, recovery, the command key. LOAD stands in Machine/Loader.lean, the other critical commands in
Machine/KeepCritical.lean. -/

namespace Sys2Proof.Machine

/-! ### Identification and ledger -/

/-- The owner hash of reports: SHA3-256 of the owner key; zeros when unowned (R499). -/
def ownerHash (s : State) : List Byte := if owned s then sha3_256 s.kp.ownerKey else zeros 32

/-- GET_INFO (R492): the fields in the order of the table; the last 8 of the 64 bytes are free (log entry 35). -/
def execGetInfo (src : CmdSrc) (s : State) : Host.Outcome State Fault Refusal :=
  .next (onCommand src 1 s fun c s =>
    let f := freeBytes s 8
    respond f.2 c 0 (leBytes 4 (kpId s) ++ uidBytes s ++ leBytes 4 (reg s rKpBootStatus).toNat ++ leBytes 4 s.kp.svn
      ++ leBytes 4 s.fuse.antiRollback ++ ownerHash s ++ f.1))

/-- STEP[k] of a record as 8 bytes. -/
def bootStepBytes (x : StepRec) : List Byte := leBytes 8 (stepBits x)

/-- An event as 16 bytes. -/
def eventBytes (e : Nat × Nat × Nat) : List Byte := leBytes 1 e.1 ++ zeros 1 ++ leBytes 2 e.2.1 ++ zeros 4 ++ leBytes 8 e.2.2

/-- Byte 9 of a record. -/
def recStateByte (r : BootRec) : Nat :=
  r.slot % 4 + r.mode % 4 * 4 + b2n r.done * 16 + b2n r.degraded * 32 + b2n r.halted * 64

/-- Bytes 0-251 of a boot record (R482). -/
def recPlain (r : BootRec) : List Byte :=
  let one := fun (l : List Nat) n => ((List.range n).map (fun i => leBytes 1 (l.getD i 0))).flatten
  leBytes 4 0x4C425845 ++ leBytes 4 r.bootNo ++ leBytes 1 r.cause ++ leBytes 1 (recStateByte r) ++ leBytes 1 r.debug
    ++ leBytes 1 r.evcount ++ leBytes 4 r.timeMs
    ++ ((List.range 16).map (fun k => bootStepBytes (recStep r k))).flatten
    ++ one r.ch 16 ++ one r.grp 6 ++ one r.port 8 ++ one r.die 4 ++ zeros 2
    ++ padTo 64 (r.events.map eventBytes).flatten ++ zeros 8

/-- A boot record (R482) with its CRC. -/
def recBytes (r : BootRec) : List Byte := recPlain r ++ leBytes 4 (crc32 (recPlain r))

/-- The boot records, newest first: that of this start, then those in flash. -/
def records (s : State) : List BootRec :=
  match s.kp.cur with
  | some r => r :: s.kp.flash.ledger.filter (fun q => q.bootNo != r.bootNo)
  | none => s.kp.flash.ledger

/-- GET_LEDGER (R492): 1-16 records. -/
def execGetLedger (src : CmdSrc) (s : State) : Host.Outcome State Fault Refusal :=
  .next (onCommand src 2 s fun c s =>
    let n := leAt c.payload 0 2
    if c.payload.length ≠ 2 ∨ n < 1 ∨ 16 < n then failCmd s c 0x0807
    else respond s c 0 (((records s).take n).map recBytes).flatten)

/-- GET_CERT (R486). -/
def execGetCert (src : CmdSrc) (s : State) : Host.Outcome State Fault Refusal :=
  .next (onCommand src 3 s fun c s => respond s c 0 s.kp.flash.cert)

/-- GET_KEM_KEY (R486): the encapsulation key and an identity signature over it. -/
def execGetKemKey (src : CmdSrc) (s : State) : Host.Outcome State Fault Refusal :=
  .next (onCommand src 4 s fun c s =>
    let k := padTo 1184 (Config.mlkemPublic (kemSeed s))
    respond s c 0 (k ++ identitySign s "EX20-KEM-KEY" k))

/-- GET_CHALLENGE (R487): a fresh nonce, 32 free bytes; the one before it is no longer valid. -/
def execGetChallenge (src : CmdSrc) (s : State) : Host.Outcome State Fault Refusal :=
  .next (onCommand src 5 s fun c s =>
    let f := freeBytes s 32
    respond (withKp f.2 (fun k => { k with nonce := some f.1 })) c 0 f.1)

/-! ### Attestation (R499) -/

/-- The addresses of the registers of a row that are RWL, outside the tile windows. -/
def rowAddrs (r : RegRow) : List Nat :=
  if r.fields.any (fun f => f.acc == .rwl) then
    let bases := r.dims.foldl (fun as d => (as.map (fun a => (List.range d.1).map (fun i => a + d.2 * i))).flatten) [r.base]
    if r.w64 then (bases.map (fun a => [a, a + 4])).flatten else bases
  else []

/-- Every RWL register of BAR0 outside the tile windows, in ascending offset. -/
def rwlAddrs : List Nat :=
  sortBy id (((regBlocks.filter (fun b => decide (b.1 < 0xC00000))).map (fun b => (b.2.2.map rowAddrs).flatten)).flatten)

/-- M_CONFIG: the policy, then the RWL registers at the last accepted ARM. -/
def configDigest (s : State) : List Byte :=
  sha3_256 (padTo 16 s.kp.policy ++ match s.kp.armRegs with
    | some m => (rwlAddrs.map (fun a => leBytes 4 (sget regReset m a).toNat)).flatten
    | none => [])

/-- FLAGS of a report. -/
def reportFlags (s : State) : Nat :=
  b2n (regBit s rLdStatus 31) + 2 * b2n (regBit s rLdStatus 27) + 4 * b2n (regBit s rLdStatus 28)
    + 8 * b2n (regBit s rLdStatus 29) + 16 * b2n (regBit s rLdStatus 26) + 32 * b2n (owned s) + 64 * b2n (curRec s).degraded

/-- The digests of the loaded image; zeros when none is loaded. -/
def imageDigests (s : State) : List Byte :=
  match s.image with
  | some i => padTo 32 i.progDigest ++ padTo 32 i.weightDigest
  | none => zeros 64

/-- The latest link of each stream (R373). -/
def linkBytes (s : State) : List Byte :=
  ((List.range 16).map (fun n => ((List.range 8).map (fun j => leBytes 4 (reg s (rPvLink n j)).toNat)).flatten)).flatten

/-- Bytes 0-863 of a report for a verifier's nonce. -/
def reportPlain (s : State) (nonce : List Byte) : List Byte :=
  ascii "EXAT" ++ leBytes 2 1 ++ leBytes 1 (debugLevel s) ++ leBytes 1 (reportFlags s) ++ uidBytes s ++ leBytes 4 (kpId s)
    ++ leBytes 4 s.kp.svn ++ leBytes 4 s.fuse.antiRollback ++ leBytes 4 (curRec s).bootNo ++ padTo 32 nonce
    ++ padTo 32 s.kp.mKeep ++ ((List.range 4).map (fun d => padTo 32 (s.kp.mLoom.getD d []))).flatten
    ++ imageDigests s ++ configDigest s ++ ownerHash s ++ linkBytes s

/-- ATTEST (R499): the signed report. -/
def execAttest (src : CmdSrc) (s : State) : Host.Outcome State Fault Refusal :=
  .next (onCommand src 6 s fun c s =>
    if c.payload.length ≠ 32 then failCmd s c 0x0807
    else
      let r := reportPlain s c.payload
      respond s c 0 (r ++ identitySign s "EX20-ATTEST" r))

/-! ### Warm reset and recovery -/

/-- WARM_RESET (R485, R492): the response, then a warm reset with RESET_CAUSE 2. -/
def execWarmReset (src : CmdSrc) (e : BootEnv) (s : State) : Host.Outcome State Fault Refusal :=
  .next (onCommand src 7 s fun c s => warmStart 2 e (respond s c 0 []))

/-- A chunk laid into the image being received. -/
def overlay (bs : List Byte) (off : Nat) (chunk : List Byte) : List Byte :=
  padTo off bs ++ chunk ++ bs.drop (off + chunk.length)

/-- The received image is whole. -/
def recoveryWhole (bs : List Byte) : Bool := decide (Config.fwLength bs ≤ bs.length)

/-- The boot from S1 with slot A (R480). -/
def recoveryBoot (e : BootEnv) (s : State) : State :=
  let s := startFirmware (setBootState (withRec s (fun r => { r with halted := false })) 1) 0
  let s := if s.kp.flash.preferred % 2 = 0 then passStep s e 1 else endStep (raise s 0x0B04 noSource 0) e 1 2 0x0B04 0
  bootFrom 2 e s

/-- RECOVERY_WRITE (R480, R492): a chunk of at most 4 KiB is written to slot A; after the last one the image is verified and
booted from S1. Outside recovery the command is refused. -/
def execRecoveryWrite (src : CmdSrc) (e : BootEnv) (s : State) : Host.Outcome State Fault Refusal :=
  .next (onCommand src 8 s fun c s =>
    let chunk := c.payload.drop 4
    if !inRecovery s then failCmd s c 0x0B17
    else if c.payload.length < 4 ∨ 4096 < chunk.length ∨ 4 * 2 ^ 20 < leAt c.payload 0 4 + chunk.length then failCmd s c 0x0807
    else
      let img := overlay s.kp.recov (leAt c.payload 0 4) chunk
      let s := withKp s (fun k => { k with recov := img })
      let s := withFlash s (fun f => { f with slotA := img, bad := f.bad.erase 0 })
      if !recoveryWhole img then respond s c 0 []
      else
        let s := withKp s (fun k => { k with recov := [] })
        if fwValid s img then recoveryBoot e (respond s c 0 [])
        else respond (markBad (fwFails s img) 0) c 0x0B02 [])

/-! ### The command key (R491) -/

/-- KEY_ESTABLISH (R491): ciphertext, nonce, owner signature. `late`: the nonce is over 60 s old. -/
def execKeyEstablish (src : CmdSrc) (late : Bool) (s : State) : Host.Outcome State Fault Refusal :=
  .next (onCommand src 0x10 s fun c s =>
    let p := c.payload
    if !owned s || s.kp.ownerLost then failCmd s c 0x0B12
    else if p.length ≠ 3540 then failCmd s c 0x0807
    else
      let ct := slice p 0 1088
      let nonce := slice p 1088 32
      let u := useNonce s nonce late
      if !u.2 || !Config.mldsaVerify s.kp.ownerKey (ascii "EX20-KEY") (ct ++ nonce) (slice p 1120 2420) then
        failCmd u.1 c 0x0B16
      else
        let key := shake256 32 (ascii "EX20-CMDKEY" ++ padTo 32 (Config.mlkemDecaps (kemSeed s) ct) ++ nonce)
        respond (withKp (setReg64 u.1 rKpCmdCtr 0) (fun k => { k with kCmd := some key })) c 0 [])

end Sys2Proof.Machine
end

