-- ==== Sys2Proof/Machine/KeepCritical.lean ====
section
/-! DEFINITION. The critical commands of Keep (spec/17 R484, R488-R490, R493-R498, R500-R502): cap, firmware, farm power, debug
levels, zeroize, fuses, policy, ledger, ownership. -/

namespace Sys2Proof.Machine

/-! ### What ends at once: zeroize and the test modes (R378, R502) -/

/-- Records on their way are written no more. -/
def dropRecords (s : State) : State :=
  let s := dropC1 s
  { s with ob := { s.ob with chains := smap (fun _ => {}) (fun c => { c with links := [], stale := 0 }) s.ob.chains } }

/-- Every weft job stops without a completion record: queues, running jobs, cores, tickets and channels are empty. -/
def stopJobs (s : State) : State :=
  let s := { s with sched := { s.sched with queue := [], running := [], reserved := none, aborts := [] }
                    weft := { s.weft with cores := [], tickets := [], chans := [] }
                    rd := { s.rd with packets := [], credits := [], wires := [] }
                    kw := { s.kw with waits := [] } }
  (List.range 16).foldl noteQueue s

/-- Tile stores, pick stores, pages, accumulators and macro selections cleared (R124, R502, spec/08 MXR). -/
def clearTiles (s : State) : State :=
  { s with ts := []
           tile := { s.tile with pick := [], cells := [], chk := [], dsum := [], aexp := [], pages := [], acc := [], sat := [] }
           weft := { s.weft with xa := [], sel := [] } }

/-- The loader registers at their reset values; no image is loaded (R299). -/
def clearLoader (s : State) : State :=
  { withLd (resetRegs s rLdStatus 0x60) none with image := none, jobs := {} }

/-- K_cmd, its counter, the farm power key and the debug level erased (R485, R502). -/
def eraseKeys (s : State) : State :=
  let s := withKp (setReg64 s rKpCmdCtr 0) (fun k => { k with kCmd := none })
  setF { s with kw := { s.kw with farmKey := [] } } rKpDebug 1 0 0

/-- The clearing of ZEROIZE without DDR4 (R502): the run ends without further records - its last blocks close (R370), but
their link records are not written - and what R502 lists is cleared. Event 5 enters the ledger and KP_EVENT.ZEROIZED
sets. -/
def zeroize (s : State) : State :=
  let s := if runActive s then abortRun (provRunEnd s) stLocked else s
  let s := eraseKeys (clearLoader (clearTiles (stopJobs (dropRecords s))))
  kpEvent (ledgerEvent s 5 0) 4

/-- Memory_Active falls while DDR4 is rewritten. -/
def memoryInactive (s : State) : State := setRegBit s rCxMemStatus 30 false

/-- Every line of every channel in service is zero (R334). -/
def memoryZero (s : State) : State := { s with bb := { s.bb with mem := [], bad := [] } }

/-- Every line is zero, and Memory_Active rises again with vector 1 (R502). -/
def memoryRewritten (s : State) : State := msix (setRegBit (memoryZero s) rCxMemStatus 30 true) 1

/-! ### SET_CAP, FARM_POWER (R451, R496) -/

/-- SET_CAP (R451): the response shows PM_CAP_EFF. -/
def execSetCap (src : CmdSrc) (s : State) : Host.Outcome State Fault Refusal :=
  .next (onCritical src 0x21 s fun c key ctr body s =>
    if body.length ≠ 4 then failTagged s c key ctr 0x0807
    else
      let r := setPackageCap s (leAt body 0 4) 1
      respondTagged r.1 c key ctr (if r.2 then 0 else 0x0A02) (leBytes 4 (reg r.1 rPmCapEff).toNat))

/-- Bytes combined by exclusive or. -/
def xorBytes (a b : List Byte) : List Byte := List.zipWith (fun x y => x ^^^ y) a b

/-- FARM_POWER (R493, R496): EN 1 installs the unwrapped key when the policy allows it; EN 0 erases it. -/
def execFarmPower (src : CmdSrc) (s : State) : Host.Outcome State Fault Refusal :=
  .next (onCritical src 0x23 s fun c key ctr body s =>
    let en := leAt body 0 1 % 2 == 1
    if body.length ≠ 40 then failTagged s c key ctr 0x0807
    else if en && leAt s.kp.policy 2 1 == 0 then failTagged s c key ctr 0x0B17
    else
      let k := if en then xorBytes (slice body 8 32) (shake256 32 (ascii "EX20-WRAP" ++ key ++ leBytes 8 ctr)) else []
      let s := setRegBit (setRegBit s rKwFarmCfg 31 en) rKwFarmCfg 30 (leAt body 1 1 % 2 == 1)
      respondTagged { s with kw := { s.kw with farmKey := k } } c key ctr 0 [])

/-! ### FW_UPDATE, FUSE_ADVANCE (R497, R498) -/

/-- The bytes of [dpa, dpa + len) of WEFT and HDM regions, with whether a line was uncorrectable; none elsewhere. -/
def readUpdate (s : State) (dpa len : Nat) (errs : List (Nat × List SymErr)) : Option (State × Bool × List Byte) :=
  if everyBlock s dpa len (fun k => k == 3 || k == 4) then
    let r := readLines s dpa len errs
    some (r.1, r.2.isSome, memBytes r.1 dpa len)
  else none

/-- The content of slot `k` (2: the boot image) replaced. A slot's BAD flag clears and it becomes the preferred one. -/
def writeSlot (s : State) (k : Nat) (bs : List Byte) : State :=
  withFlash s (fun f => match k with
    | 0 => { f with slotA := bs, bad := f.bad.erase 0, preferred := 0 }
    | 1 => { f with slotB := bs, bad := f.bad.erase 1, preferred := 1 }
    | _ => { f with bootImg := bs })

/-- A slot whose write failed holds free bytes (R504, 0x0B0A). -/
def spoilSlot (s : State) (k len : Nat) : State :=
  let b := freeBytes s len
  withFlash b.2 (fun f => match k with
    | 0 => { f with slotA := b.1 }
    | 1 => { f with slotB := b.1 }
    | _ => { f with bootImg := b.1 })

/-- FW_UPDATE (R497): `flashOk`: the slot reads back as written; `warm`: the body asks for a warm reset. -/
def execFwUpdate (src : CmdSrc) (flashOk warm : Bool) (errs : List (Nat × List SymErr)) (e : BootEnv) (s : State) :
    Host.Outcome State Fault Refusal :=
  .next (onCritical src 0x22 s fun c key ctr body s =>
    let dpa := leAt body 0 8
    let len := leAt body 8 4
    let slot := leAt body 12 1
    if body.length ≠ 16 then failTagged s c key ctr 0x0807
    else if 2 < slot ∨ slot = (curRec s).slot % 4 ∧ slot < 2 ∨ (if slot = 2 then 16 else 4) * 2 ^ 20 < len then
      failTagged s c key ctr 0x0B17
    else match readUpdate s dpa len errs with
      | none => failTagged s c key ctr 0x0B17
      | some (s, bad, bs) =>
        if bad then respondTagged s c key ctr 0x0604 []
        else if slot < 2 && !fwValid s bs then
          respondTagged (fwFails s bs) c key ctr (if fwSigned s bs then 0x0B03 else 0x0B02) []
        else if !flashOk then failTagged (spoilSlot s slot len) c key ctr 0x0B0A
        else
          let s := respondTagged (writeSlot s slot bs) c key ctr 0 []
          if warm && decide (slot < 2) then warmStart 4 e s else s)

/-- FUSE_ADVANCE (R498): fuses are blown up to the SVN of the running firmware; `blown`: they blow. -/
def execFuseAdvance (src : CmdSrc) (blown : Bool) (s : State) : Host.Outcome State Fault Refusal :=
  .next (onCritical src 0x26 s fun c key ctr _ s =>
    let v := s.kp.svn
    if Config.fwSvn s.kp.flash.golden < v ∨ (curRec s).slot = 2 ∨ 64 < v ∨ !blown then failTagged s c key ctr 0x0B1B
    else
      let v := max v s.fuse.antiRollback
      respondTagged { s with fuse := { s.fuse with antiRollback := v } } c key ctr 0 (leBytes 4 v))

/-! ### DEBUG_UNLOCK (R500, R501) -/

/-- A debug level takes effect: a change enters the ledger and KP_EVENT.DEBUG. -/
def setDebug (s : State) (lvl : Nat) : State :=
  if debugLevel s = lvl then s
  else
    let s := withRec (setF s rKpDebug 1 0 lvl) (fun r => { r with debug := max r.debug lvl })
    kpEvent (ledgerEvent s 4 0) 3

/-- DEBUG_UNLOCK (R501): level, nonce, signature by the owner (levels 1, 2) or the vendor (level 3). Level 0 needs no signature.
ZEROIZE without DDR4 precedes level 3. -/
def execDebugUnlock (src : CmdSrc) (late : Bool) (s : State) : Host.Outcome State Fault Refusal :=
  .next (onCritical src 0x24 s fun c key ctr body s =>
    let lvl := leAt body 0 1
    let nonce := slice body 8 32
    if body.length < 8 then failTagged s c key ctr 0x0807
    else if lvl = 0 then respondTagged (setDebug s 0) c key ctr 0 []
    else if leAt s.kp.policy 1 1 < lvl ∨ 3 < lvl then failTagged s c key ctr 0x0B15
    else if body.length ≠ 2460 then failTagged s c key ctr 0x0807
    else
      let u := useNonce s nonce late
      let signer := if lvl = 3 then vendorKey s else s.kp.ownerKey
      if !u.2 then failTagged u.1 c key ctr 0x0B16
      else if !Config.mldsaVerify signer (ascii "EX20-DEBUG") (leBytes 1 lvl ++ nonce ++ uidBytes s) (slice body 40 2420) then
        failTagged u.1 c key ctr 0x0B15
      else respondTagged (setDebug (if lvl = 3 then zeroize u.1 else u.1) lvl) c key ctr 0 [])

/-! ### ZEROIZE (R502) -/

/-- ZEROIZE (R502): the response is tagged under the key that the command erases. With flag DDR4 Memory_Active falls and the
rewrite begins. -/
def execZeroize (src : CmdSrc) (s : State) : Host.Outcome State Fault Refusal :=
  .next (onCritical src 0x25 s fun c key ctr body s =>
    if body.length ≠ 4 then failTagged s c key ctr 0x0807
    else
      let s := zeroize s
      let s := if leAt body 0 4 % 2 = 1 then withKp (memoryInactive s) (fun k => { k with wiping := true }) else s
      respondTagged s c key ctr 0 [])

/-- ZEROIZE_DDR4_DONE (R502): every line is zero, Memory_Active rises with vector 1, and a warm reset with RESET_CAUSE 5
follows. -/
def execZeroizeDdr4Done (e : BootEnv) (s : State) : Host.Outcome State Fault Refusal :=
  .next (if !s.kp.wiping then s
    else warmStart 5 e (memoryRewritten s))

/-! ### Owner record, ledger (R484, R488-R490) -/

/-- Both copies of the owner record written, A then B, each with the sequence number incremented. -/
def writeOwner (s : State) (key policy : List Byte) : State :=
  let n := ((ownerRecord s).getD {}).seq
  withFlash s (fun f => { f with ownerA := some { key := key, policy := policy, seq := (n + 1) % 2 ^ 32 }
                                 ownerB := some { key := key, policy := policy, seq := (n + 2) % 2 ^ 32 } })

/-- The transfer once it is authorised (R488): clearing with DDR4, the owner record, the response, the warm reset with
RESET_CAUSE 6. `answer` writes the response. -/
def transferOwner (newKey : List Byte) (e : BootEnv) (answer : State → State) (s : State) : State :=
  warmStart 6 e (answer (writeOwner (memoryRewritten (memoryInactive (zeroize s))) newKey defaultPolicy))

/-- The checks that every transfer passes: nonce and signature over public key, nonce and UID. -/
def transferOk (s : State) (signer body : List Byte) (late : Bool) : State × Bool :=
  let u := useNonce s (slice body 1312 32) late
  (u.1, u.2 && Config.mldsaVerify signer (ascii "EX20-OWNER") (slice body 0 1344 ++ uidBytes s) (slice body 1344 2420))

/-- OWNER_TRANSFER (R488, R490): on an owned device the command is critical and the current owner signs; else the vendor. -/
def execOwnerTransfer (src : CmdSrc) (late : Bool) (e : BootEnv) (s : State) : Host.Outcome State Fault Refusal :=
  .next (if owned s then
      onCritical src 0x11 s fun c key ctr body s =>
        if body.length ≠ 3764 then failTagged s c key ctr 0x0807
        else
          let r := transferOk s s.kp.ownerKey body late
          if r.2 then transferOwner (slice body 0 1312) e (fun s => respondTagged s c key ctr 0 []) r.1
          else failTagged r.1 c key ctr 0x0B16
    else
      onCommand src 0x11 s fun c s =>
        if c.payload.length ≠ 3764 then failCmd s c 0x0807
        else
          let r := transferOk s (vendorKey s) c.payload late
          if r.2 then transferOwner (slice c.payload 0 1312) e (fun s => respond s c 0 []) r.1
          else failCmd r.1 c 0x0B16)

/-- SET_POLICY (R489): both copies are written with the new policy, which is in effect at once; `flashOk`: they read back. -/
def execSetPolicy (src : CmdSrc) (flashOk : Bool) (s : State) : Host.Outcome State Fault Refusal :=
  .next (onCritical src 0x27 s fun c key ctr body s =>
    if body.length ≠ 16 then failTagged s c key ctr 0x0807
    else if !flashOk then
      failTagged (withFlash s (fun f => { f with ownerA := none })) c key ctr 0x0B0A
    else respondTagged (withKp (writeOwner s s.kp.ownerKey body) (fun k => { k with policy := body })) c key ctr 0 [])

/-- Counts named by a mask return to 0. -/
def clearMasked (mask : Nat) (l : List Nat) : List Nat :=
  (List.range l.length).map (fun i => if bitN mask i then 0 else l.getD i 0)

/-- LEDGER_CLEAR (R484): the failure counts of the named steps, channels, lane groups, ports and dies; the masks of the four item
groups are 3 bytes each (log entry 36). -/
def clearCounts (body : List Byte) (r : BootRec) : BootRec :=
  let steps := leAt body 0 2
  { r with steps := (List.range 16).map (fun k => { recStep r k with fails := if bitN steps k then 0 else (recStep r k).fails })
           ch := clearMasked (leAt body 4 3) r.ch
           grp := clearMasked (leAt body 7 3) r.grp
           port := clearMasked (leAt body 10 3) r.port
           die := clearMasked (leAt body 13 3) r.die }

/-- LEDGER_CLEAR (R484, R492). -/
def execLedgerClear (src : CmdSrc) (s : State) : Host.Outcome State Fault Refusal :=
  .next (onCritical src 0x28 s fun c key ctr body s =>
    if body.length ≠ 16 then failTagged s c key ctr 0x0807
    else
      let s := withRec s (clearCounts body)
      let s := (List.range 16).foldl (fun s k => setReg64 s (rKpStep k) (stepBits (recStep (curRec s) k))) s
      respondTagged (writeRecord s) c key ctr 0 [])

end Sys2Proof.Machine
end

