-- ==== Sys2Proof/Machine/Obs.lean ====
section
/-! DEFINITION. Snapshots, eye scan and boundary scan (spec/18 R506-R517, R520-R523, spec/13 R378). -/

namespace Sys2Proof.Machine

/-! ### Requests (R508-R510) -/

/-- SNAP_IN_EDGE (R508): a rising edge with raw time tag `tag`; an edge with a negative calibrated time is counted and ignored
(R57). -/
def execSnapInEdge (tag : Nat) (s : State) : Host.Outcome State Fault Refusal :=
  .next (
    let c := (tag : Int) + sextI 16 (regF s rTbSkewSnapIn 15 0)
    if !runActive s then s
    else if c < 0 then prerunEvent s
    else snapRequest s (c.toNat / 256 + snapDelay s) 0)

/-- AT_GO (R508): the tick in SN_AT is named; one less than 2 ticks ahead is refused. -/
def execAtGo (s : State) : Host.Outcome State Fault Refusal :=
  .next (onBlock 11 s fun s =>
    if !runActive s then s
    else if reg64 s rSnAt < s.tb.tick + 2 then raise s 0x0BB2 noSource 0
    else snapRequest s (reg64 s rSnAt) 2)

/-- SNAPSHOT_NOW (R508): outside a run the banks latch at once and SN_TAG reads 0; ignored in a run; missed while HELD. -/
def execSnapshotNow (s : State) : Host.Outcome State Fault Refusal :=
  .next (onBlock 11 s fun s =>
    if runActive s then s
    else if regBit s rSnStatus 31 then snapMissed s
    else
      let s := latchBanks (setF s rSnStatus 2 0 4) 0
      { s with ob := { s.ob with pendTick := none } })

/-- SNAPSHOT_LATCH (R510): at the pending latch tick the banks latch and SNAP_OUT goes high for one tick period. The tick edge
of a run does the same of itself. -/
def execSnapshotLatch (s : State) : Host.Outcome State Fault Refusal := .next (snapLatch s)

/-- SNAP_OUT_END (R510): one tick period after the latch edge. -/
def execSnapOutEnd (s : State) : Host.Outcome State Fault Refusal :=
  .next { s with ob := { s.ob with outTick := none }, pins := { s.pins with snapOut := false } }

/-- SNAPSHOT_RELEASE (R510): HELD clears. -/
def execSnapshotRelease (s : State) : Host.Outcome State Fault Refusal :=
  .next (onBlock 11 s fun s => setRegBit s rSnStatus 31 false)

/-! ### Bank words (R506, R511) -/

/-- The blocks as a bank holds them. -/
def thaw (z : Snap) : State :=
  { regs := z.regs, tb := z.tb, bm := z.bm, tr := z.tr, bb := z.bb, ts := z.ts, tile := z.tile, warp := z.warp
    weft := z.weft, sched := z.sched, kw := z.kw, pm := z.pm, marks := z.marks, image := z.image }

/-- Bits of a list, the first in bit 0. -/
def maskBits (l : List Bool) : Nat := ofBitsLsb l

/-- What the bank of warp tile `t` holds. -/
def warpBank (z : State) (t : Nat) : List Nat :=
  [z.tb.cyc / 2, phaseOf z z.tb.tick, maskBits ((List.range 8).map (fun i => i == 0 || sget dFalse z.warp.preds (8 * t + i)))]
    ++ (List.range 4).map (fun p => (sget (fun _ => ([] : List Token)) z.warp.tokens (4 * t + p)).length)
    ++ (List.range 8).map (fun k => (sget (fun _ => ({} : Skein)) z.warp.skeins (8 * t + k)).frames.length)
    ++ (List.range 4).map (fun b => maskBits ((List.range 128).map (fun c => satBit z t b c)))
    ++ z.marks.map (fun e => e.2.mark)

/-- The reason of R513 for which a core stands now; 16 while it issues. -/
def coreStall (c : Core) : Nat :=
  if c.state = coreIdle ∨ c.state = coreEnded then 0
  else if c.state = coreStopping ∨ c.state = coreTrapped then 15
  else match c.waiting with
    | some w => stallReason w.kind
    | none => 16

/-- What the bank of weft tile `t` holds: an instruction that waits is the one outstanding. -/
def weftBank (z : State) (t : Nat) : List Nat :=
  let c := sget (fun _ => ({} : Core)) z.weft.cores t
  [c.state, c.pc, b2n c.waiting.isSome, coreStall c, c.jobid,
   (z.weft.tickets.filter (fun k => k.tile == t && k.status.isNone)).length, c.eclass]

/-- The bank of unit `u` of subsystem `k`, as its size in words and what it holds; none where there is none. The bank of the
scheduler's stream `u` begins at word 2,048 of unit `u` (log entry 34). -/
def bankOf (s z : State) (k u w : Nat) : Option (Nat × List Nat) :=
  match k with
  | 9 => if u = 0 then some (8, [reg64 z rSnTag, z.tb.q, (reg z rTbWeftOp).toNat, tbState z]) else none
  | 2 => if planeOf s u = 1 then some (32, warpBank z u) else none
  | 3 =>
    if 2048 ≤ w then
      (if u < 16 then some (2052, [jobsQueued z u, (((streamQueue z u).head?.map (fun j => leAt j.desc 0 4)).getD 0),
        (reg z rWfGranted).toNat, (reg z rWfBudget).toNat]) else none)
    else if planeOf s u = 2 then some (32, weftBank z u) else none
  | 1 => if u < laneCount s then some (4, [(reg z (rBmLaneStatus u)).toNat, (reg z (rBmLaneDmeas u)).toNat,
      (bmLane z u).bolts.length * slotLen (streamLong z (laneStream z u))]) else none
  | 5 => if u < 16 then some (64, ((List.range 8).map (fun m =>
      let x := machine z u m
      x.st :: x.flags :: (x.cnt ++ x.tval))).flatten ++ [(reg z (rTrGate u)).toNat, lastAccepted z u]) else none
  | 6 => if u < 16 then some (8, [(reg z (rBbStStatus u)).toNat, reg64 z (rBbBobWptr u),
      ((z.bb.pend.filter (fun p => streamDie z p.stream == streamDie z u)).map (fun p => p.data.length)).sum]) else none
  | 7 => if u < 8 then
      let x := sget (fun _ => ({} : PeerPort)) z.kw.ports u
      some (8, (reg z (rKwPortStatus u)).toNat :: (x.sent ++ x.freed)) else none
  | 10 => if u = 0 then some (8, [(reg z rPmPEst).toNat, (reg z rPmBubble).toNat, (reg z rPmCapEff).toNat,
      (reg z rPmThermStatus).toNat, (reg z rTbWeftOp).toNat]) else none
  | _ => none

/-- Word `w` of a tile's bank mirrors tile store: words 32-1,055 of unit t of subsystem 2 (warp tiles) or 3 (weft tiles). -/
def tileStoreWord (s : State) (k u w : Nat) : Bool :=
  decide (32 ≤ w) && decide (w < 1056) && ((k == 2 && planeOf s u == 1) || (k == 3 && planeOf s u == 2))

/-- What SN_DATA shows of the banks: a tile-store word, a word of another bank (its layout is open), 0 outside every bank. -/
def bankData (s : State) (z : Snap) (k u w : Nat) : Nat :=
  let y := thaw z
  if tileStoreWord s k u w then ofLe (tsRead y u (regF y rSnTsAddr 18 12 * 4096 + 4 * (w - 32)) 4)
  else match bankOf s y k u w with
    | some (n, content) => if w < n then Config.bankWord k u w content % 2 ^ 32 else 0
    | none => 0

/-- SN_DATA_READ (R511): the bank word that SN_SEL selects; a tile-store word reads 0 below debug level 1 and sets DENIED. -/
def execSnDataRead (s : State) : Host.Outcome State Fault Refusal :=
  .next (
    if !reachable s rSnData then { s with readData := 0 }
    else
      let k := regF s rSnSel 31 24
      let u := regF s rSnSel 23 16
      let w := regF s rSnSel 15 0
      let deny := tileStoreWord s k u w && debugLevel s == 0
      let v := match s.snap with
        | some z => if deny then 0 else bankData s z k u w
        | none => 0
      { setRegBit s rSnStatus 29 deny with readData := BitVec.ofNat 32 v })

/-! ### Eye scan (R515, R516) -/

/-- The lane of EY register set `i` is up: 0-95 stream, 96-127 peer, 128-143 CXL. -/
def eyeLaneUp (s : State) (i : Nat) : Bool :=
  if i < 96 then decide (1 ≤ laneState s i) && decide (laneState s i ≤ 4)
  else if i < 128 then portState s ((i - 96) / 4) == 2
  else cxUp s && decide (i - 128 < regF s rCxLinkStatus 4 0)

/-- The registers of lane `i` answer. -/
def onEye (i : Nat) (s : State) (f : State → State) : Host.Outcome State Fault Refusal :=
  onUnit 144 144 i s fun s => if reachable s (rEyCtrl i) then f s else s

/-- EY_STATUS of lane `i`: BUSY, DONE, ABORTED, WHY. -/
def setEye (s : State) (i : Nat) (busy done aborted : Bool) (why : Nat) : State :=
  let s := setRegN s (rEyStatus i) (b2n busy * 2 ^ 31 + b2n done * 2 ^ 30 + b2n aborted * 2 ^ 29 + why * 2 ^ 27)
  setRegBit s (rEyCtrl i) 31 busy

/-- DWELL of lane `i`, clamped to 10-40. -/
def eyeDwell (s : State) (i : Nat) : Nat := max 10 (min 40 (regF s (rEyCtrl i) 29 24))

/-- EYE_SCAN_GO (R516): a write of `v` with GO to EY_CTRL of lane `i` places the sampler and starts a point; ignored while one
runs; a lane that is not up ends it at once. -/
def execEyeScanGo (i : Nat) (v : Word) (s : State) : Host.Outcome State Fault Refusal :=
  onEye i s fun s =>
    if regBit s (rEyStatus i) 31 then s
    else
      let s := setReg s (rEyCtrl i) (v &&& 0x3F7F003F#32)
      if eyeLaneUp s i then setEye (setReg (setReg s (rEyBits i) 0) (rEyErrs i) 0) i true false false 0
      else setEye s i false false true 3

/-- EYE_SCAN_ABORT (R516): ABORT, or the loss of the lane, ends the point of lane `i` before its last bit. EY_BITS and EY_ERRS keep
what has been compared so far, which is free (log entry 88). -/
def execEyeScanAbort (i : Nat) (laneLost : Bool) (s : State) : Host.Outcome State Fault Refusal :=
  onEye i s fun s =>
    if !regBit s (rEyStatus i) 31 then s
    else
      let r := freeBytes s 16
      let bits := leAt r.1 0 8 % 2 ^ (eyeDwell s i - 10)
      let s := setRegN (setRegN r.2 (rEyBits i) bits) (rEyErrs i) (satN 32 (leAt r.1 8 8 % (1024 * (bits + 1))))
      setEye s i false false true (if laneLost then 1 else 2)

/-- EYE_SCAN_DONE (R516): 2^DWELL bits of lane `i` have been compared, and `errs` of them disagreed. -/
def execEyeScanDone (i errs : Nat) (s : State) : Host.Outcome State Fault Refusal :=
  onEye i s fun s =>
    if !regBit s (rEyStatus i) 31 then s
    else
      let s := setRegN s (rEyBits i) (2 ^ (eyeDwell s i - 10))
      setEye (setRegN s (rEyErrs i) (satN 32 (min errs (2 ^ eyeDwell s i)))) i false true false 0

/-! ### Boundary scan (R520-R523, R378) -/

/-- IDCODE (R521): version, part number, manufacturer, 1. -/
def idcode (s : State) : Nat :=
  (if s.fuse.stepA0 then 0 else 1) * 2 ^ 28 + (if s.fuse.grade192 then 0x0E21 else 0x0E20) * 2 ^ 12 + 0x2B6 * 2 + 1

/-- The instruction register. -/
def setIr (s : State) (code : Nat) : State := { s with ob := { s.ob with tapIr := code } }

/-- Nothing is written any more: records on their way, capture bytes not yet visible, completions (R378). -/
def silence (s : State) : State :=
  let s := dropRecords s
  { s with sched := { s.sched with completions := [] }
           bb := { s.bb with cap := smap (fun _ => {}) (fun c => { c with unwritten := [] }) s.bb.cap } }

/-- Operation ends (R378): the run, every weft job, the CXL link; ledger event 3. Only a reset returns the device to
operation. -/
def enterTestMode (s : State) : State :=
  let s := ledgerEvent (raise s 0x0BB3 noSource 0) 3 0x0BB3
  let s := if runActive s then abortRun s stFailed else lockEnds s stFailed
  let s := silence (stopJobs s)
  let s := if cxUp s then linkLost (raise s 0x0803 noSource 0) else s
  { s with tb := { s.tb with sysclkLost := true }, ob := { s.ob with testMode := true } }

/-- A driven instruction at Update-IR (R522): the pins follow their update cells. -/
def driven (s : State) (code : Nat) : State :=
  let s := if s.ob.testMode || !s.pins.powered then s else enterTestMode s
  { setIr s code with ob := { (setIr s code).ob with pinsSafe := false } }

/-- TAP_RESET (R520, R522): IDCODE is selected; after a driven instruction the pins take the safe state. -/
def execTapReset (s : State) : Host.Outcome State Fault Refusal :=
  .next { setIr s 1 with ob := { (setIr s 1).ob with pinsSafe := s.ob.testMode } }

/-- EXTEST (R522). -/
def execExtest (s : State) : Host.Outcome State Fault Refusal := .next (driven s 0x00)
/-- EXTEST_PULSE (R522). -/
def execExtestPulse (s : State) : Host.Outcome State Fault Refusal := .next (driven s 0x04)
/-- EXTEST_TRAIN (R522). -/
def execExtestTrain (s : State) : Host.Outcome State Fault Refusal := .next (driven s 0x05)
/-- CLAMP (R522). -/
def execClamp (s : State) : Host.Outcome State Fault Refusal := .next (driven s 0x06)
/-- HIGHZ (R522). -/
def execHighz (s : State) : Host.Outcome State Fault Refusal := .next (driven s 0x07)

/-- IDCODE (R521): the identification register is selected and shown; the pins stay with the core. -/
def execIdcode (s : State) : Host.Outcome State Fault Refusal :=
  .next { setIr s 0x01 with readData := BitVec.ofNat 32 (idcode s) }
/-- Cells of the boundary register of the grade (R4, R520). -/
def boundaryCells (s : State) : Nat := if s.fuse.grade192 then 2604 else 3412

/-- SAMPLE_PRELOAD (R520): the boundary cells are sampled or preloaded; what they take is free (log entry 76). The pins stay with
the core. -/
def execSamplePreload (s : State) : Host.Outcome State Fault Refusal :=
  let n := boundaryCells s
  let r := freeBytes (setIr s 0x02) n
  .next { r.2 with ob := { r.2.ob with cells := r.1.map (fun b => b.getLsbD 0) } }
/-- BYPASS (R520): the code 0xFF and every other one, a private code below debug level 3 among them. -/
def execBypass (s : State) : Host.Outcome State Fault Refusal := .next (setIr s 0xFF)

end Sys2Proof.Machine
end

