-- ==== Sys2Proof/Machine/TilePorts.lean ====
section
/-! DEFINITION. The indirect ports of a tile (spec/10 R298, spec/01 R33): TILE_IA_DATA and the page commands. -/

namespace Sys2Proof.Machine

/-- The ports of tile `t` exist and are released (R30). -/
def onPort (t : Nat) (s : State) (f : State → State) : Host.Outcome State Fault Refusal :=
  onUnit 256 (tileCount s) t s fun s => if reachable s (rTileIaSel t) then f s else s

/-- TARGET of TILE_IA_SEL. -/
def portTarget (s : State) (t : Nat) : Nat := regF s (rTileIaSel t) 1 0
/-- The byte address of TILE_IA_ADDR, aligned to 4. -/
def portAddr (s : State) (t : Nat) : Nat := regF s (rTileIaAddr t) 18 0 / 4 * 4
/-- TILE_IA_ADDR advances. -/
def portAdvance (s : State) (t : Nat) : State := setF s (rTileIaAddr t) 18 0 ((portAddr s t + 4) % 2 ^ 19)

/-- The pick store word that byte address `a` lies in. -/
def pickKey (t a : Nat) : Nat := 8192 * t + a / 8

/-- The word that the port shows. The pick store ends at byte 0xFFFF. -/
def portWord (s : State) (t : Nat) : Nat :=
  let a := portAddr s t
  if portTarget s t = 0 then ofLe (tsRead s t a 4)
  else if a < 65536 then fld (sget dDWord s.tile.pick (pickKey t a)).toNat (a % 8 * 8 + 31) (a % 8 * 8) else 0

/-- A word stored through the port. -/
def portStore (s : State) (t : Nat) (v : Word) : State :=
  let a := portAddr s t
  if portTarget s t = 0 then tsWrite s t a (leBytes 4 v.toNat)
  else if a < 65536 then
    let w := (sget dDWord s.tile.pick (pickKey t a)).toNat
    let w := setFldN w (a % 8 * 8 + 31) (a % 8 * 8) v.toNat
    { s with tile := { s.tile with pick := sset dDWord (pickKey t a) (BitVec.ofNat 64 w) s.tile.pick } }
  else s

/-- TILE_IA_DATA (R298, R33): a read (no word) or a write through the data port of tile `t`. A write that is not accepted sets
DENIED whatever the target; a reserved target ignores the access; a read in a run returns 0 below debug level 1. -/
def execTileIaData (t : Nat) (w : Option Word) (s : State) : Host.Outcome State Fault Refusal :=
  onPort t s fun s =>
    let gone := decide (2 ≤ portTarget s t)
    match w with
    | none =>
      if gone then { s with readData := 0 }
      else portAdvance { s with readData := if portsReadable s then BitVec.ofNat 32 (portWord s t) else 0 } t
    | some v =>
      if !portWritable s then portDenied s t
      else if gone then s
      else portAdvance (portStore (portAccepted s t) t v) t

/-- The page command in progress at tile `t`: OP, macro, page, digit mode. -/
def setPageCmd (s : State) (t : Nat) (x : Option (Nat × Nat × Nat × Bool)) : State :=
  let s := setRegBit s (rTileIaStatus t) 0 x.isSome
  { s with tile := { s.tile with pageCmd := sset (fun _ => none) t x s.tile.pageCmd } }

/-- IA_PAGE_WRITE (R298, R98): the page is written from the page buffer in the digit mode named; it is valid at IA_PAGE_DONE. -/
def execIaPageWrite (t m p : Nat) (signed : Bool) (s : State) : Host.Outcome State Fault Refusal :=
  onPort t s fun s =>
    if !portWritable s || regBit s (rTileIaStatus t) 0 then portDenied s t
    else setPageCmd (spoilPage (portAccepted s t) t (m % 16) (p % 8)) t (some (1, m % 16, p % 8, signed))

/-- IA_PAGE_READ (R298, R33): the page's cells are copied to the page buffer, between runs. -/
def execIaPageRead (t m p : Nat) (s : State) : Host.Outcome State Fault Refusal :=
  onPort t s fun s =>
    if runActive s || regBit s (rTileIaStatus t) 0 then portDenied s t
    else setPageCmd (setRegBit s (rTileIaStatus t) 1 false) t (some (2, m % 16, p % 8, false))

/-- The bytes of the page buffer of tile `t`. -/
def pageBuffer (s : State) (t : Nat) : List Byte := sgetMany dByte s.tile.pageBuf (3072 * t) 3072

/-- IA_PAGE_DONE (R298): after 96 arithmetic cycles the page command of tile `t` is done and BUSY clears. -/
def execIaPageDone (t : Nat) (s : State) : Host.Outcome State Fault Refusal :=
  onUnit 256 (tileCount s) t s fun s =>
    match sget (fun _ => none) s.tile.pageCmd t with
    | none => s
    | some (1, m, p, signed) => setPageCmd (writePage s t m p signed (rowsOf (pageBuffer s t))) t none
    | some (_, m, p, _) =>
      let bs := ((List.range 96).map (fun r => leBytes 32 (pageRow s t m p r))).flatten
      setPageCmd { s with tile := { s.tile with pageBuf := ssetMany dByte (3072 * t) bs s.tile.pageBuf } } t none

end Sys2Proof.Machine
end

