-- ==== Sys2Proof/Machine/HostAccess.lean ====
section
/-! DEFINITION. Whole register accesses (spec/00 R11-R14, spec/01 R28-R34, spec/15 R432, R436): a write or read at an offset of BAR0
or BAR2, at configuration space or at an HDM decoder, with the action that a bit of it starts. A 64-bit access is two 32-bit ones, the
lower offset first (R29), so each half is a command of its own. -/

namespace Sys2Proof.Machine

/-- The state that a command leaves; where the model stops, the state as it was. -/
def leaves (o : Host.Outcome State Fault Refusal) (s : State) : State :=
  match o with
  | .next t => t
  | _ => s

/-! ### Writes whose bits start an action -/

/-- A write of `v` to TB_CTRL: LOCK_EN, then ARM, then STOP (R36, R40, R41, R53; log entry 92). -/
def tbCtrlWrite (v : Word) (s : State) : State :=
  let s := if wbit v 0 then leaves (execLockEnSet s) s
    else if regBit s rTbCtrl 0 then leaves (execLockEnClear s) s else s
  let s := if wbit v 1 then leaves (execArm s) s else s
  if wbit v 2 then leaves (execStop s) s else s

/-- A write of `v` to WF_Q_CTRL of stream `n`: RESUME, then ABORT (R265, R266; log entry 92). -/
def qCtrlWrite (n : Nat) (v : Word) (s : State) : State :=
  let s := if wbit v 1 then leaves (execResume n s) s else s
  if wbit v 0 then leaves (execAbort n [] s) s else s

/-- A write of `v` to SN_CTRL: RELEASE, AT_GO, NOW (R508, R510; log entry 92). -/
def snCtrlWrite (v : Word) (s : State) : State :=
  let s := if wbit v 2 then leaves (execSnapshotRelease s) s else s
  let s := if wbit v 1 then leaves (execAtGo s) s else s
  if wbit v 0 then leaves (execSnapshotNow s) s else s

/-- A write of `v` to EY_CTRL of lane `i`: ABORT, then GO; without either the placement is stored (R516). -/
def eyCtrlWrite (i a : Nat) (v : Word) (s : State) : State :=
  let s' := if wbit v 30 then leaves (execEyeScanAbort i false s) s else s
  if wbit v 31 then leaves (execEyeScanGo i v s') s'
  else if wbit v 30 then s' else bar0Write s' a v

/-- A write of `v` to TILE_IA_CMD of tile `t` (spec/10, TILE_IA_CMD): other values of OP are ignored. -/
def iaCmdWrite (t : Nat) (v : Word) (s : State) : State :=
  match wfld v 1 0 with
  | 1 => leaves (execIaPageWrite t (wfld v 11 8) (wfld v 14 12) (wbit v 15) s) s
  | 2 => leaves (execIaPageRead t (wfld v 11 8) (wfld v 14 12) s) s
  | _ => s

/-- A write to a register of the tile window of tile `t` at offset `o` that starts an action; none for the other registers. -/
def tileAction (s : State) (t o : Nat) (v : Word) : Option State :=
  if o = 0x114 then some (leaves (execFaultRingRelease t (wfld v 7 0) s) s)
  else if o = 0x1100 then some (if wbit v 0 then leaves (execWtSlackClr t s) s else s)
  else if o = 0x3008 then some (leaves (execTileIaData t (some v) s) s)
  else if o = 0x300C then some (iaCmdWrite t v s)
  else none

/-- A write to a register of a stream, port or region block that starts an action; none for the other registers. -/
def unitAction (s : State) (a : Nat) (v : Word) : Option State :=
  if inUnits a (rWfQCfg 0) 0x80 16 0 then
    let n := (a - rWfQCfg 0) / 0x80
    match a % 0x80 with
    | 0x04 => some (qCtrlWrite n v s)
    | 0x18 => some (leaves (execWfSqProd n (wfld v 15 0) s) s)
    | 0x2C => some (leaves (execWfCqCons n (wfld v 15 0) s) s)
    | 0x30 => some (leaves (execWfPos n (wfld v 20 0) s) s)
    | _ => none
  else if inUnits a (rTrForce 0) 0x100 16 0 && a % 0x100 == rTrForce 0 % 0x100 then
    some (if wbit v 0 then leaves (execForce ((a - rTrForce 0) / 0x100) s) s else s)
  else if inUnits a (rBbStCtrl 0) 0x80 16 0 && a % 0x80 == rBbStCtrl 0 % 0x80 then
    some (if wbit v 0 then leaves (execRearm ((a - rBbStCtrl 0) / 0x80) s) s else s)
  else if inUnits a (rBbRgBase 0) 0x20 32 0 && a % 0x20 == 0x10 && wbit v 31 then
    some (leaves (execRegionValidWrite ((a - rBbRgBase 0) / 0x20) (wfld v 30 28) (wfld v 19 16) s) s)
  else if inUnits a (rEyCtrl 0) 0x10 144 0 && a % 0x10 == rEyCtrl 0 % 0x10 then
    some (eyCtrlWrite ((a - rEyCtrl 0) / 0x10) a v s)
  else if inUnits a (rKwPortCfg 0) 0x80 8 0 && a % 0x80 == rKwPortCfg 0 % 0x80 && wbit v 31 != regBit s a 31 then
    let p := (a - rKwPortCfg 0) / 0x80
    some (if wbit v 31 then leaves (execPortTrain p v s) s else leaves (execPortOff p v s) s)
  else none

/-- A 32-bit write of `v` at BAR0 address `a` with whatever it starts. -/
def regWrite (s : State) (a : Nat) (v : Word) : State :=
  if !reachable s a then s
  else if a = rTbCtrl then tbCtrlWrite v s
  else if a = rSnCtrl then snCtrlWrite v s
  else if a = rCxBiasCtrl ∧ wbit v 31 then leaves (execBiasFlip (wbit v 0) s) s
  else
    match (if 0xC00000 ≤ a then tileAction s ((a - 0xC00000) / 0x4000) (a % 0x4000) v else unitAction s a v) with
    | some q => q
    | none => bar0Write s a v

/-- A 32-bit read at BAR0 address `a` with its side effects; TILE_IA_DATA and SN_DATA are read through their own commands. -/
def regRead (s : State) (a : Nat) : State × Word :=
  if reachable s a && (decide (0xC00000 ≤ a) && a % 0x4000 == 0x3008) then
    let q := leaves (execTileIaData ((a - 0xC00000) / 0x4000) none s) s
    ({ q with readData := s.readData }, q.readData)
  else if reachable s a && a == rSnData then
    let q := leaves (execSnDataRead s) s
    ({ q with readData := s.readData }, q.readData)
  else bar0Read s a

/-! ### BAR2: mailbox and doorbells (R34, R432, R436) -/

/-- The stream and offset of a doorbell page that BAR2 offset `a` lies in. -/
def doorbell (a : Nat) : Option (Nat × Nat) :=
  if 0x80000 ≤ a ∧ a < 0x90000 then some ((a - 0x80000) / 0x1000, a % 0x1000) else none

/-- A 32-bit write of `v` at BAR2 offset `a`: IRQ_EN and then GO of MB_CTRL, the doorbells, the rest of the mailbox. -/
def mboxWrite (s : State) (a : Nat) (v : Word) : State :=
  match doorbell a with
  | some (n, 0x0) => leaves (execWfSqProd n (wfld v 15 0) s) s
  | some (n, 0xC) => leaves (execWfCqCons n (wfld v 15 0) s) s
  | some _ => s
  | none =>
    let q := bar2Write s a v
    if a = 0 ∧ wbit v 0 then leaves (execMailboxGo q) q else q

/-- A 32-bit read at BAR2 offset `a`. -/
def mboxRead (s : State) (a : Nat) : Word :=
  match doorbell a with
  | some (n, 0x0) => regView s (rWfSqProd n)
  | some (n, 0x4) => regView s (rWfSqCons n)
  | some (n, 0x8) => regView s (rWfCqProd n)
  | some (n, 0xC) => regView s (rWfCqCons n)
  | some _ => 0
  | none => bar2View s a

/-! ### The commands -/

/-- Every byte of the word is enabled. -/
abbrev wholeWord (be : Nat) : Prop := be % 16 = 15

/-- The answer of a read kept where the reader finds it. -/
def answered (r : State × Word) : State := { r.1 with readData := r.2 }

/-- REGISTER_WRITE (R11, R12, R29): a 32-bit write to a register, or a write to a field that the host sets. A write with partial byte
enables is ignored and completes normally. -/
def execRegisterWrite (x : RegTarget) (v : HostWord) (s : State) : Host.Outcome State Fault Refusal :=
  .next (
    if ¬ wholeWord v.be then s
    else match x with
    | .bar0 a => regWrite s a (BitVec.ofNat 32 v.val)
    | .bar2 a => mboxWrite s a (BitVec.ofNat 32 v.val)
    | .cfg f => cfgWrite s f v.val
    | .hdm i f => if i ≤ 1 then hdmWrite s i f v.val else s)

/-- RC_READ (R11, R13, R29): a 32-bit read returns the register whole, whatever its byte enables, and has the register's side
effects: RC fields clear. Configuration space does not answer before the link's block is released. -/
def execRcRead (a : HostRead) (s : State) : Host.Outcome State Fault Refusal :=
  .next (match a.x with
    | .bar0 a => answered (regRead s a)
    | .bar2 a => answered (s, mboxRead s a)
    | .cfg f => if released s 8 then answered (s, BitVec.ofNat 32 (cfgView s f)) else s
    | .hdm i f => answered (s, if released s 8 && decide (i ≤ 1) then BitVec.ofNat 32 (hdmView s i f) else 0))

/-- REG64_LOW_READ (R14): the low half is returned and the high half latched. -/
def execReg64LowRead (a : HostAt) (s : State) : Host.Outcome State Fault Refusal :=
  .next (match wide a.addr with
    | some (_, false) => answered (bar0Read s a.addr)
    | _ => s)

/-- REG64_HIGH_READ (R14): the latched value, which empties the latch; with an empty latch the current high half. -/
def execReg64HighRead (a : HostAt) (s : State) : Host.Outcome State Fault Refusal :=
  .next (match wide a.addr with
    | some (_, true) => answered (bar0Read s a.addr)
    | _ => s)

/-- REG64_LOW_WRITE (R14): the value waits in the staging register. -/
def execReg64LowWrite (a : Nat) (v : HostHalf) (s : State) : Host.Outcome State Fault Refusal :=
  .next (match wide a with
    | some (_, false) => if wholeWord v.be then bar0Write s a v.val else s
    | _ => s)

/-- REG64_HIGH_WRITE (R14): staged low half and high half are committed together. -/
def execReg64HighWrite (a : Nat) (v : HostHalf) (s : State) : Host.Outcome State Fault Refusal :=
  .next (match wide a with
    | some (_, true) => if wholeWord v.be then bar0Write s a v.val else s
    | _ => s)

end Sys2Proof.Machine
end

