-- ==== Sys2Proof/Machine/Loader.lean ====
section
/-! DEFINITION. LOAD and LOAD_COMPLETE (spec/10 R293-R297, spec/17 R492, R495). -/

namespace Sys2Proof.Machine

/-- The response body of a LOAD. -/
def ldStatusBytes (s : State) : List Byte := leBytes 4 (reg s rLdStatus).toNat

/-- LOAD (R294): the check pass. On success the write pass is in progress and Keep is occupied until LOAD_COMPLETE; `errs` are
the symbol errors of the DDR4 lines read. -/
def execLoad (src : CmdSrc) (errs : List (Nat × List SymErr)) (s : State) : Host.Outcome State Fault Refusal :=
  .next (onCritical src 0x20 s fun c key ctr body s =>
    if body.length ≠ 16 then failTagged s c key ctr 0x0807
    else
      let r := loadFirst s (some (c, key, ctr)) (leAt body 0 8) (leAt body 8 4) none errs
      match r.2 with
      | some e => respondTagged r.1 c key ctr e.cause (ldStatusBytes r.1)
      | none => r.1)

/-- LOAD_COMPLETE (R294, R295): the write pass ends, and the command that asked for the load is answered. -/
def execLoadComplete (errs : List (Nat × List SymErr)) (s : State) : Host.Outcome State Fault Refusal :=
  .next (match s.kp.ld.job with
    | none => s
    | some j =>
      let r := loadSecond s j errs
      let status := match r.2 with | some e => e.cause | none => 0
      keepNext (match j.cmd with
        | some (c, key, ctr) => respondTagged r.1 c key ctr status (ldStatusBytes r.1)
        | none => r.1))

end Sys2Proof.Machine
end

