-- ==== Sys2Proof/Machine/NetCycle.lean ====
section
/-! DEFINITION. A REED cycle of Reed's packets (spec/07 R199, R200, R203; spec/16 R456): credits, the subchannels that warp slots and
delivery lanes leave free, the order of VCs and inputs, the flits that move, and the bubbles of C2 and C4. -/

namespace Sys2Proof.Machine

/-! ### Buffers and credits (R199) -/

/-- A buffer by its node, input and VC. -/
def bufferKey (node inp vc : Nat) : Nat := (64 * node + inp) * 8 + vc

/-- Flits that the buffer holds for a VC: 8 in a mesh router, 16 in a station or the hub. -/
def bufferDepth (node : Nat) : Nat := if node < 256 then 8 else 16

/-- Credits of a buffer in use. -/
def creditsUsed (s : State) (key : Nat) : Nat := sget dNat s.rd.credits key

/-- A credit has come back to its sender; one above the buffer depth is discarded with cause 0x0405. -/
def landCredit (s : State) (key : Nat) : State :=
  let u := creditsUsed s key
  if u = 0 then raise s 0x0405 (key / 512 % 2 ^ 16) (key % 8)
  else { s with rd := { s.rd with credits := sset dNat key (u - 1) s.rd.credits } }

/-- REED cycles in which a credit returns from input `inp` of `node`: 4 over a bridge, else 1. -/
def creditLat (node inp : Nat) : Nat :=
  if (node == hubNode && decide (inp < 32))
      || (decide (innerNode 0 ≤ node) && decide (node < outerNode 0) && decide (8 ≤ inp) && decide (inp < 16)) then 4 else 1

/-- The credits that may be used from this cycle on. -/
def landCredits (s : State) : State :=
  let due := s.rd.wires.filter (fun w => w.2 ≤ s.rd.now)
  due.foldl (fun s w => landCredit s w.1) { s with rd := { s.rd with wires := s.rd.wires.filter (fun w => s.rd.now < w.2) } }

/-! ### Subchannels (R186, R200) -/

/-- Subchannels of an output that packets may use: those of a Spindle bridge are 2 and 3. -/
def packetSubs (node out : Nat) : Nat :=
  if (decide (node < 256) && decide (node / 8 % 8 = 0) && out == 0) || (node == hubNode && decide (out < 32))
      || (decide (innerNode 0 ≤ node) && decide (node < outerNode 0) && decide (out < 16)) then 12 else 15

/-- Subchannels of an output that warp slots and delivery lanes hold in this REED cycle. -/
def heldNow (s : State) (node out : Nat) : Nat :=
  if !runActive s then 0
  else if node ≤ 256 then
    match periodStart s s.tb.tick with
    | some t =>
      if regBit s rRdStatus 16 then heldMask s node out (phaseOf s t) s.tb.cyc
      else if node < 256 ∧ out = 0 then laneMask s node else 0
    | none => if node < 256 ∧ out = 0 then laneMask s node else 0
  else if outerNode 0 ≤ node ∧ node < endNode 0 ∧ out < 8 then laneHeld s (node - outerNode 0) out 8
  else 0

/-- Subchannels of an output that packets are granted in this REED cycle. -/
def freeSubs (s : State) (node out : Nat) : Nat :=
  ((List.range 4).filter (fun i => bitN (packetSubs node out) i && !bitN (heldNow s node out) i)).length

/-! ### What stands where -/

/-- The part of a packet at one place of its way: the packet's index and the place's, its VC, the flits that have gone on, the cycle
from which the first flit here may leave (none when none is here), and the next place. -/
structure Part where
  pkt : Nat
  idx : Nat
  hop : Hop
  vc : Nat
  gone : Nat
  ready : Option Nat
  next : Hop
deriving DecidableEq, Repr

/-- The parts of packet `k`, from the last place to the first; `gone` flits lie beyond. -/
def partsOf (k vc : Nat) : List (Hop × List Nat) → Nat → List Part × Nat
  | [], _ => ([], 0)
  | [w], _ => ([], w.2.length)
  | w :: v :: ws, i =>
    let r := partsOf k vc (v :: ws) (i + 1)
    (⟨k, i, w.1, vc, r.2, w.2.head?, v.1⟩ :: r.1, r.2 + w.2.length)

/-- Every part that holds flits or has begun and not ended. -/
def parts (s : State) : List Part :=
  ((List.range s.rd.packets.length).map (fun k =>
    match s.rd.packets[k]? with
    | some p => (partsOf k p.vc p.way 0).1.filter (fun a => a.ready.isSome || (a.gone != 0 && a.gone != packetFlits p))
    | none => [])).flatten

/-- Part `a` stands before part `b` in one buffer: its flit came earlier, or as early in an earlier packet. -/
def before (a b : Part) : Bool :=
  a.hop.node == b.hop.node && a.hop.inp == b.hop.inp && a.vc == b.vc
    && match a.ready, b.ready with
      | some x, some y => decide (x < y) || (x == y && decide (a.pkt < b.pkt))
      | _, _ => false

/-- The head flit of a buffer, which may leave in this cycle. -/
def atHead (s : State) (ps : List Part) (a : Part) : Bool :=
  (match a.ready with | some c => decide (c ≤ s.rd.now) | none => false) && !(ps.any (fun b => before b a))

/-- Another packet is passing the output on the VC: its flits keep together (DESIGN CHOICE, log entry 90). -/
def taken (ps : List Part) (a : Part) : Bool :=
  a.gone == 0 && ps.any (fun b => b.hop.node == a.hop.node && b.hop.out == a.hop.out && b.vc == a.vc && b.pkt != a.pkt
    && b.gone != 0)

/-- The sender holds a credit for the next buffer; an endpoint needs none (R202). -/
def hasCredit (s : State) (a : Part) : Bool :=
  decide (endNode 0 ≤ a.next.node)
    || decide (creditsUsed s (bufferKey a.next.node a.next.inp a.vc) < bufferDepth a.next.node)

/-! ### Bubbles (spec/16 R456) -/

/-- The bubble fraction of a class in 64ths (PM_BUBBLE): of C2 and C4, whose opportunities are injection cycles. -/
def bubbleOf (s : State) (cls : Nat) : Nat :=
  match cls with
  | 2 => regF s rPmBubble 30 24
  | 4 => regF s rPmBubble 6 0
  | _ => 0

/-- The opportunities of an endpoint's class. -/
def oppKey (node cls : Nat) : Nat := 2 * node + cls / 4

/-- A part at its endpoint that a bubble holds back. -/
def bubbled (s : State) (a : Part) : Bool :=
  decide (endNode 0 ≤ a.hop.node)
    && isBubble (bubbleOf s (vcClass a.vc)) (sget dNat s.rd.opps (oppKey a.hop.node (vcClass a.vc)))

/-- The opportunities used in this cycle, each counted once. -/
def countOpps (s : State) (ps : List Part) : State :=
  let ks := ((ps.filter (fun a => decide (endNode 0 ≤ a.hop.node) && bubbleOf s (vcClass a.vc) != 0)).map
    (fun a => oppKey a.hop.node (vcClass a.vc))).eraseDups
  ks.foldl (fun s k => { s with rd := { s.rd with opps := sset dNat k ((sget dNat s.rd.opps k + 1) % 64) s.rd.opps } }) s

/-! ### Grants (R200) -/

/-- The key of an output's VC. -/
def outKey (a : Part) : Nat := (64 * a.hop.node + a.hop.out) * 8 + a.vc

/-- How far the part's input lies behind the input served last. -/
def turn (s : State) (a : Part) : Nat := (a.hop.inp + 63 - sget (fun _ => 63) s.rd.served (outKey a)) % 64

/-- The part that a VC of an output serves: the first input in round-robin order. -/
def servedPart (s : State) (ps : List Part) : Option Part :=
  ps.foldl (fun m a => match m with
    | none => some a
    | some b => if turn s a < turn s b then some a else some b) none

/-- The parts that an output grants: one of each VC in the order of R200, while a subchannel is free. -/
def grants (s : State) (node out : Nat) (ps : List Part) : List Part :=
  ([2, 4, 3, 1, 0, 5].filterMap (fun vc =>
    servedPart s (ps.filter (fun a => a.hop.node == node && a.hop.out == out && a.vc == vc)))).take (freeSubs s node out)

/-- A C1 packet has gone from the hub to its client (R203): the longest crossing, and one above 256 REED cycles is late. -/
def c1Crossing (s : State) (p : Packet) (cycles : Nat) : State :=
  let s := if 256 < cycles then raise s 0x0406 (p.dst % 2 ^ 16) (cycles % 2 ^ 16) else s
  if regF s rRdC1Maxlat 15 0 < cycles then setF s rRdC1Maxlat 15 0 (satN 16 cycles) else s

/-- One flit moved on: into the next place, with a credit of its buffer used and one of this buffer on its way back. -/
def moveFlit (s : State) (a : Part) : State :=
  match s.rd.packets[a.pkt]? with
  | none => s
  | some p =>
    let here := p.way.getD a.idx (a.hop, [])
    let there := p.way.getD (a.idx + 1) (a.next, [])
    let at_ := s.rd.now + a.hop.lat
    let way := setAt (setAt p.way a.idx (here.1, here.2.drop 1)) (a.idx + 1) (there.1, there.2 ++ [at_])
    let q := { p with way := way, hubAt := if a.next.node = hubNode ∧ a.gone = 0 then some at_ else p.hubAt }
    let key := bufferKey a.next.node a.next.inp a.vc
    let s := { s with rd := { s.rd with
      packets := setAt s.rd.packets a.pkt q
      served := sset (fun _ => 63) (outKey a) a.hop.inp s.rd.served
      credits := if endNode 0 ≤ a.next.node then s.rd.credits else sset dNat key (creditsUsed s key + 1) s.rd.credits
      wires := if endNode 0 ≤ a.hop.node then s.rd.wires
        else s.rd.wires ++ [(bufferKey a.hop.node a.hop.inp a.vc, s.rd.now + 2 + creditLat a.hop.node a.hop.inp)] } }
    if p.vc = 2 ∧ p.dst < treadleNode ∧ a.gone + 1 = packetFlits p ∧ endNode 0 ≤ a.next.node then
      match p.hubAt with
      | some h => c1Crossing s p (at_ - h)
      | none => s
    else s

/-- The head flits that waited in routers and the hub counted (RD_CNT). -/
def countStalls (s : State) (ps : List Part) : State :=
  ((ps.filter (fun a => a.hop.node ≤ 256)).map (fun a => 8 * a.hop.node + a.vc)).eraseDups.foldl
    (fun s k => { s with rd := { s.rd with stalls := sset dNat k (satN 32 (sget dNat s.rd.stalls k + 1)) s.rd.stalls } }) s

/-- A REED cycle of Reed's packets: every output grants, the flits move together, heads that stay have waited. -/
def networkCycle (s : State) : State :=
  let s := landCredits s
  let ps := parts s
  let heads := ps.filter (atHead s ps)
  let able := heads.filter (fun a => !taken ps a && hasCredit s a)
  let cands := able.filter (fun a => !bubbled s a)
  let go := (((cands.map (fun a => (a.hop.node, a.hop.out))).eraseDups).map (fun o => grants s o.1 o.2 cands)).flatten
  let s := go.foldl moveFlit (countStalls (countOpps s able) (heads.filter (fun a => !go.contains a)))
  { s with rd := { s.rd with now := s.rd.now + 1 } }

end Sys2Proof.Machine
end

