-- ==== Sys2Proof/Machine/Packets.lean ====
section
/-! DEFINITION. The commands of Reed's packets (spec/07 R195-R208): injection, the credit that returns, and what each kind of packet
does where it arrives. Packets of one source, destination and VC arrive in order (R204). -/

namespace Sys2Proof.Machine

/-! ### Requests that await a response (R196, R202) -/

/-- Node `n` awaits a register response with tag `g`: the buffer of that tag is held. -/
def awaitsRead (s : State) (n g : Nat) : Bool := s.rd.reads.any (fun r => r.node == n && r.rtag == g && r.answer.isNone)

/-- The response buffer of node `n` for tag `g` holding `a`. -/
def setRead (s : State) (n g : Nat) (a : Option (Nat × Nat)) : State :=
  { s with rd := { s.rd with reads := s.rd.reads.filter (fun r => !(r.node == n && r.rtag == g)) ++ [⟨n, g, a⟩] } }

/-- A requester whose request was discarded receives an error completion with status 0x0404 (R196): the ticket of a SHUTTLE_REQ
(R237), the response buffer of a REG_RD. The discard itself has raised the cause. -/
def errorCompletion (s : State) (p : Packet) : State :=
  if p.kind = kShReq then mapTicket s p.src p.addr (fun k => { k with status := some 0x0404 })
  else if p.kind = kRegRd then setRead s p.src p.rtag (some (0x0404, 0))
  else s

/-- The packet is one that its endpoint may issue: its source exists, its VC is that of its kind (R197), and a REG_RD has a free buffer
for its response (R202). -/
def issuable (s : State) (p : Packet) : Bool :=
  nodeOk s p.src && kindVc p.kind == some p.vc && !(p.kind == kRegRd && awaitsRead s p.src p.rtag)

/-- The flits with which an endpoint hands a packet to Reed: the header, its VC that of the kind (R197), and the payload. -/
def issueFlits (dst src kind rtag addr chan : Nat) (payload : List Byte) : List Byte :=
  headerFlit { dst := dst, src := src, vc := (kindVc kind).getD 7, kind := kind, rtag := rtag, addr := addr, chan := chan,
               payload := payload } ++ payload

/-- PACKET_INJECTION (R195, R196): an endpoint hands a packet to Reed, its header flit and payload flits. It waits in the
endpoint's queue for credits and grants; `ecc`: what its flits meet on their first link (R208). -/
def execPacketInjection (dst src kind rtag addr chan : Nat) (payload : List Byte) (ecc : Nat) (s : State) :
    Host.Outcome State Fault Refusal :=
  .next (
    match readFlits (issueFlits dst src kind rtag addr chan payload) with
    | none => s
    | some p =>
      if !issuable s p then s
      else if packetOk s p then
        let r := flitsMeet (if p.kind = kRegRd then setRead s p.src p.rtag none else s) p ecc
        inject r.1 r.2
      else errorCompletion (inject s p) p)

/-- The buffer that node `n` injects into. -/
def injectKey (n vc : Nat) : Nat :=
  let l := link (endNode n) 0
  bufferKey l.1 l.2.1 vc

/-- CREDIT_RETURN (R199): a credit of VC `vc` comes back to the sender at node `n`, the first on its wire if one is there. -/
def execCreditReturn (n vc : Nat) (s : State) : Host.Outcome State Fault Refusal :=
  .next (
    if 6 ≤ vc || !nodeOk s n then s
    else
      let k := injectKey n vc
      landCredit { s with rd := { s.rd with wires := s.rd.wires.eraseP (fun w => w.1 == k) } } k)

/-! ### Arrival -/

/-- A WRITE absorbed into the tile store (R202): the payload without its padding; one that fills a slot of a ring sets its sideband
(R132). -/
def absorbWrite (s : State) (p : Packet) : State :=
  let r := received s p
  let s := tsWrite r.2 p.dst p.addr (r.1.take (16 * payloadFlits p - p.rtag / 32 % 16))
  if bitN p.rtag 4 then setSide s p.dst p.addr ⟨true, p.rtag % 16⟩ else s

/-- WRITE (R202): the oldest packet from `src` on VC0 reaches tile `dst`. -/
def execWrite (src : Nat) (dst : Arrival) (s : State) : Host.Outcome State Fault Refusal :=
  onUnit 256 (tileCount s) dst.node s fun s =>
    match arriving s src dst.node 0 kWrite with
    | some p => let r := takePacket s p dst.ecc; absorbWrite r.1 r.2
    | none => s

/-- TOKEN (R205): one entry of the channel waits at its destination. -/
def execToken (src : Nat) (dst : Arrival) (s : State) : Host.Outcome State Fault Refusal :=
  onUnit 256 (tileCount s) dst.node s fun s =>
    match arriving s src dst.node 0 kToken with
    | some p =>
      let s := (takePacket s p dst.ecc).1
      let g := (core s dst.node).prog
      let x := chanSt s g p.chan
      setChanSt s g p.chan { x with waiting := x.waiting + 1 }
    | none => s

/-- CREDIT (R205): one credit of the channel returns to its source, tile `dst` of the packet. -/
def execCredit (src : Nat) (dst : Arrival) (s : State) : Host.Outcome State Fault Refusal :=
  onUnit 256 (tileCount s) dst.node s fun s =>
    match arriving s src dst.node 1 kCredit with
    | some p =>
      let s := (takePacket s p dst.ecc).1
      let g := (core s dst.node).prog
      let x := chanSt s g p.chan
      setChanSt s g p.chan { x with credits := x.credits + 1 }
    | none => s

/-- REG_WR (R197): the write of the 32-bit register at ADDR, a BAR0 offset, reaches its block (log entry 90). -/
def execRegWr (src : Nat) (dst : Arrival) (s : State) : Host.Outcome State Fault Refusal :=
  .next (
    match arriving s src dst.node 3 kRegWr with
    | some p =>
      let t := takePacket s p dst.ecc
      let r := received t.1 t.2
      regWrite r.2 p.addr (BitVec.ofNat 32 (leAt r.1 0 4))
    | none => s)

/-- REG_RD (R197, R202): the register read reaches its block, which has room for a response; it returns a REG_RESP with the request's
tag. -/
def execRegRd (src : Nat) (dst : Arrival) (s : State) : Host.Outcome State Fault Refusal :=
  .next (
    match arriving s src dst.node 3 kRegRd with
    | some p =>
      if queuedAt s dst.node kRegResp ≠ 0 then s
      else
        let r := regRead (takePacket s p dst.ecc).1 p.addr
        inject r.1 { dst := src, src := dst.node, vc := 4, kind := kRegResp, rtag := p.rtag, addr := p.addr, chan := 0,
                     payload := leBytes 4 r.2.toNat }
    | none => s)

/-- REG_RESP (R197): the response reaches its requester, whose buffer for the tag takes it. -/
def execRegResp (src : Nat) (dst : Arrival) (s : State) : Host.Outcome State Fault Refusal :=
  .next (
    match arriving s src dst.node 4 kRegResp with
    | some p =>
      let t := takePacket s p dst.ecc
      let r := received t.1 t.2
      setRead { r.2 with readData := BitVec.ofNat 32 (leAt r.1 0 4) } dst.node p.rtag (some (0, leAt r.1 0 4))
    | none => s)

/-- TELEMETRY (R197): a telemetry packet reaches its destination and leaves Reed. -/
def execTelemetry (src : Nat) (dst : Arrival) (s : State) : Host.Outcome State Fault Refusal :=
  .next (
    match arriving s src dst.node 5 kTelemetry with
    | some p => (takePacket s p dst.ecc).1
    | none => s)

end Sys2Proof.Machine
end

