-- ==== Sys2Proof/Machine/WeftExact.lean ====
section
/-! DEFINITION. Uahomer-D exact accumulators (spec/04 R120, spec/08 R232, R233). -/

namespace Sys2Proof.Machine

/-- Classes of a lane. -/
abbrev xFinite : Nat := 0
/-- +INF. -/
abbrev xPInf : Nat := 1
/-- −INF. -/
abbrev xNInf : Nat := 2
/-- NAN. -/
abbrev xNan : Nat := 3

/-- A finite sum held in 320 bits: beyond them the lane takes the INF class of its sign and overflow is raised (R120). -/
def xFit (v : Int) : XLane × Nat :=
  if v < -(2 ^ 319 : Nat) then (⟨0, xNInf⟩, flOF)
  else if ((2 ^ 319 : Nat) : Int) ≤ v then (⟨0, xPInf⟩, flOF)
  else (⟨v, xFinite⟩, 0)

/-- Two lanes added, with the class rules of R120. -/
def xAddLane (a b : XLane) : XLane × Nat :=
  if a.cls = xNan ∨ b.cls = xNan then (⟨0, xNan⟩, if b.cls = xNan then flNV else 0)
  else if a.cls = xFinite ∧ b.cls = xFinite then xFit (a.value + b.value)
  else if a.cls = xFinite then (⟨0, b.cls⟩, 0)
  else if b.cls = xFinite then (a, 0)
  else if a.cls = b.cls then (a, 0)
  else (⟨0, xNan⟩, flNV)

/-- An FP32 value as a lane: its value in units of 2^-149 or its class. -/
def xOfF32 (b : Nat) : XLane :=
  match fdecode f32 b with
  | .nan _ => ⟨0, xNan⟩
  | .inf neg => ⟨0, if neg then xNInf else xPInf⟩
  | .fin neg m e =>
    let v : Int := (m * 2 ^ (e + 149).toNat : Nat)
    ⟨if neg then -v else v, xFinite⟩

/-- RNE to FP32 of an exact value in units of 2^-149. -/
def xRound (v : Int) : Nat × Nat := fpack f32 (decide (v < 0)) v.natAbs (-149) false

/-- The read-out of a lane (R120). -/
def xRead (l : XLane) : Nat × Nat :=
  match l.cls with
  | 0 => if l.value = 0 then (0, 0) else xRound l.value
  | 1 => (f32.infBits, 0)
  | 2 => (f32.infBits + 2 ^ 31, 0)
  | _ => (f32.nan, 0)

/-- XCLR. -/
def execXclr (t : Nat) (f : WFields) (e : WEnv) (s : State) : Host.Outcome State Fault Refusal :=
  weftSimple t f e { opc := 0x80, rd := 4 } false s fun s _ => setX s t f.rd (List.replicate 64 {})

/-- XADD: enabled lanes take v[RA] as FP32. -/
def execXadd (t : Nat) (f : WFields) (e : WEnv) (s : State) : Host.Outcome State Fault Refusal :=
  weftInstr t f e { opc := 0x81, rd := 4, ra := 32 } true s fun s g =>
    let x := getX s t f.rd
    let v := getV s t f.ra
    let rs := (List.range 64).map (fun i =>
      if bitN g i then xAddLane (x.getD i {}) (xOfF32 (v.getD i 0)) else (x.getD i {}, 0))
    flagged s t 4 (rs.foldl (fun fl r => fl ||| r.2) 0) fun s => setX s t f.rd (rs.map (·.1))

/-- XRD. -/
def execXrd (t : Nat) (f : WFields) (e : WEnv) (s : State) : Host.Outcome State Fault Refusal :=
  weftInstr t f e { opc := 0x82, rd := 32, ra := 4 } true s fun s g =>
    let rs := (getX s t f.ra).map xRead
    let fl := (List.range 64).foldl (fun fl i => if bitN g i then fl ||| (rs.getD i (0, 0)).2 else fl) 0
    flagged s t 4 fl fun s => setV s t f.rd g (rs.map (·.1))

/-- The exact sum of lanes with the class rules of R120, by which adding a NaN raises invalid; a finite sum may leave 320 bits before it is rounded. -/
def xSum (ls : List XLane) : Nat × Nat :=
  let inf := fun c => ls.any (fun l => l.cls == c)
  if inf xNan then (f32.nan, flNV)
  else if inf xPInf && inf xNInf then (f32.nan, flNV)
  else if inf xPInf then (f32.infBits, 0)
  else if inf xNInf then (f32.infBits + 2 ^ 31, 0)
  else
    let v := (ls.map (·.value)).sum
    if v = 0 then (0, 0) else xRound v

/-- XSUM. -/
def execXsum (t : Nat) (f : WFields) (e : WEnv) (s : State) : Host.Outcome State Fault Refusal :=
  weftInstr t f e { opc := 0x83, rd := 32, ra := 4 } false s fun s _ =>
    let r := xSum (getX s t f.ra)
    flagged s t 4 r.2 fun s => setS s t f.rd r.1

/-- An exact image (R233). The 320 bits of a lane that is not FINITE are not stated: they are the free bytes `fr` (log
entry 22). -/
def exactImage (ls : List XLane) (fr : List Byte) : List Byte :=
  ((List.range 64).map (fun i =>
    let l := ls.getD i {}
    (if l.cls = xFinite then leBytes 40 (encI 320 l.value) else (fr.drop (40 * i)).take 40)
      ++ leBytes 1 l.cls ++ zeros 7)).flatten

/-- Lane `i` of an exact image. -/
def imageLane (bs : List Byte) (i : Nat) : XLane :=
  let c := leAt bs (48 * i + 40) 1
  ⟨if c = xFinite then sextI 320 (leAt bs (48 * i) 40) else 0, c⟩

/-- The image keeps R233. -/
def imageOk (bs : List Byte) : Bool :=
  (List.range 64).all (fun i => decide (leAt bs (48 * i + 40) 1 ≤ 3) && leAt bs (48 * i + 41) 7 == 0)

/-- XST. -/
def execXst (t : Nat) (f : WFields) (e : WEnv) (s : State) : Host.Outcome State Fault Refusal :=
  weftInstr t f e { opc := 0x84, ra := 4, rb := 32, imm := immAny } false s fun s _ =>
    let a := effAddr s t f.rb f
    withAccess s 4 a 3072 64 [] fun _ =>
      let ls := getX s t f.ra
      let r := if ls.all (fun l => l.cls == xFinite) then ([], s) else freeBytes s 2560
      .done (tsWrite r.2 t a (exactImage ls r.1)) none

/-- XLD and XACC: the image at EA, refused by 0x0311 when a word that can be read makes it invalid, then by 0x0306 when a
word cannot be read (R246). -/
def withImage (s : State) (t : Nat) (f : WFields) (bad : List Nat) (k : List XLane → WRes) : WRes :=
  let a := effAddr s t f.ra f
  withAccess s 4 a 3072 64 [] fun _ =>
    let bs := tsRead s t a 3072
    let wrong := (List.range 64).any (fun i =>
      !bad.contains ((a + 48 * i + 40) / 8) && !(decide (leAt bs (48 * i + 40) 1 ≤ 3) && leAt bs (48 * i + 41) 7 == 0))
    if wrong then .trap s { cause := 0x0311, unit := 4, addr := a }
    else if hitsBad bad a 3072 then .trap s { cause := 0x0306, unit := 4, addr := a }
    else k ((List.range 64).map (imageLane bs))

/-- XLD. -/
def execXld (t : Nat) (f : WFields) (e : WEnv) (s : State) : Host.Outcome State Fault Refusal :=
  weftInstr t f e { opc := 0x85, rd := 4, ra := 32, imm := immAny } false s fun s _ =>
    withImage s t f e.bad fun ls => .done (setX s t f.rd ls) none

/-- XACC. -/
def execXacc (t : Nat) (f : WFields) (e : WEnv) (s : State) : Host.Outcome State Fault Refusal :=
  weftInstr t f e { opc := 0x86, rd := 4, ra := 32, imm := immAny } false s fun s _ =>
    withImage s t f e.bad fun ls =>
      let rs := List.zipWith xAddLane (getX s t f.rd) ls
      flagged s t 4 (rs.foldl (fun fl r => fl ||| r.2) 0) (fun s => setX s t f.rd (rs.map (·.1))) (effAddr s t f.ra f)

end Sys2Proof.Machine
end

