-- ==== Sys2Proof/Machine/WeftMacro.lean ====
section
/-! DEFINITION. Uahomer-D macro instructions (spec/08 R234-R236) and VQNT (R230, R231). -/

namespace Sys2Proof.Machine

/-! ### Pages -/

/-- MXW: one page from 3,072 bytes at s[RA]. An uncorrectable source leaves the page not valid (R236). -/
def execMxw (t : Nat) (f : WFields) (e : WEnv) (s : State) : Host.Outcome State Fault Refusal :=
  weftInstr t f e { opc := 0x90, ra := 32, imm := immLt 256 } false s fun s _ =>
    let a := getS s t f.ra
    let m := fld f.imm 3 0
    let p := fld f.imm 6 4
    withAccess s 5 a 3072 1 [] fun _ =>
      if hitsBad e.bad a 3072 then .done (spoilPage s t m p) none
      else .done (writePage s t m p (bitN f.imm 7) (rowsOf (tsRead s t a 3072))) none

/-- MXWF8: four pages from 12,288 bytes at s[RA]. -/
def execMxwf8 (t : Nat) (f : WFields) (e : WEnv) (s : State) : Host.Outcome State Fault Refusal :=
  weftInstr t f e { opc := 0x91, ra := 32, imm := fun v => decide (v < 512) && !bitN v 7 && v / 16 % 4 == 0 } false s fun s _ =>
    let a := getS s t f.ra
    let m := fld f.imm 3 0
    let base := fld f.imm 6 4
    withAccess s 5 a 12288 1 [] fun _ =>
      if hitsBad e.bad a 12288 then
        .done ((List.range 4).foldl (fun s j => spoilPage s t m (base + j)) s) none
      else
        let r := writeF8Set s t m base (if bitN f.imm 8 then e5m2 else e4m3) (tsRead s t a 12288)
        let s := countUp r.1 (rTileUflowCnt t) r.2.1
        .done (if r.2.2 then setRegBit s (rTileArith t) 10 true else s) none

/-! ### Selections and steps -/

/-- No selection. -/
abbrev dSel : Nat → Option (Nat × Nat) := fun _ => none
/-- The weight set that MXS last selected on macro `m`: base page and format. -/
def selection (s : State) (t m : Nat) : Option (Nat × Nat) := sget dSel s.weft.sel (16 * t + m)

/-- MXS. -/
def execMxs (t : Nat) (f : WFields) (e : WEnv) (s : State) : Host.Outcome State Fault Refusal :=
  weftInstr t f e { opc := 0x92, imm := immLt (2 ^ 21) } false s fun s _ =>
    let ms := (List.range 16).filter (bitN f.imm)
    let base := fld f.imm 18 16
    let fmt := fld f.imm 20 19
    match ms.find? (fun m => !setLayoutOk s t m base fmt) with
    | some m => .trap (setRegBit s (rTileArith t) 11 true) { cause := 0x0323, unit := 5, sub := m }
    | none => .done { s with weft := { s.weft with
        sel := ms.foldl (fun l m => sset dSel (16 * t + m) (some (base, fmt)) l) s.weft.sel } } none

/-- The sets of the participating macros, or the macro that has no selection or breaks R97. -/
def selectedSets (s : State) (t : Nat) (d : StepDesc) : Nat ⊕ List (Nat × Nat × Nat) :=
  match (stepMacros d).find? (fun m => match selection s t m with
      | none => true
      | some x => !setLayoutOk s t m x.1 x.2) with
  | some m => .inl m
  | none => .inr ((stepMacros d).map (fun m => (m, (selection s t m).getD (0, 0))))

/-- The slot-ring channel that feeds the ring of a step. -/
def ringChan (s : State) (t : Nat) (d : StepDesc) : Option ChanDecl :=
  s.jobs.chans.find? (fun c => c.prog == (core s t).prog && c.ring && c.dst == t && c.addr == 16 * d.ring)

/-- What a step reads from tile store, as (address, bytes) (R164, R127, R131). -/
def stepReads (d : StepDesc) : List (Nat × Nat) :=
  let k := (stepMacros d).length
  if !d.block then [(16 * d.asrc, ceilDiv (actBits d.afmt * 96 * k) 8)]
  else
    ((List.range (3 * k)).map (fun i =>
      [(blockSlot d.ring d.ringlen (d.bseq + i), 32), (scaleSlot d.sring d.ringlen (d.bseq + i), 2)])).flatten
      ++ (outerAddrs d).map (fun x => (x.1, 4)) ++ [(16 * d.wst, 384 * k + 512 * (outerAddrs d).length)]

/-- The descriptor names F8 weights, by the selections, in integer mode (R103, R164). -/
def f8NotBlock (s : State) (t : Nat) (d : StepDesc) : Bool :=
  !d.block && (stepMacros d).any (fun m => match selection s t m with
    | some x => x.2 == 3
    | none => false)

/-- A step that is no receive of the channel it reads (R239): an entry is held, no channel's buffer is the ring at RING, or its
blocks are not the next events. -/
def stepSync (s : State) (t : Nat) (d : StepDesc) : Option Trap :=
  match ringChan s t d with
  | none => some (syncTrap 0 0 0 0)
  | some c => match heldTrap s t c.chan with
    | some x => some x
    | none => notNextMany t c.chan true (3 * (stepMacros d).length) s

/-- The traps of the descriptor's step before it issues, in the order of R246: a region out of tile store, then the checks of
R235 and R239. A malformed descriptor's regions are those that its fields give. -/
def stepTrap (s : State) (t a : Nat) (bytes : List Byte) : Option Trap :=
  let d := stepDesc bytes
  if (stepReads d).any (fun x => decide (tsSize < x.1 + x.2)) then some { cause := 0x0304, unit := 5, addr := a }
  else if !stepDescOk false bytes || f8NotBlock s t d then some { cause := 0x0312, unit := 5, addr := a }
  else match selectedSets s t d with
    | .inl m => some { cause := 0x0323, unit := 5, sub := m, addr := a }
    | .inr sets => match sets.find? (fun x => !setValid s t x.1 x.2.1 x.2.2) with
      | some x => some { cause := 0x0324, unit := 5, sub := x.1, addr := a }
      | none =>
        if !d.block then none
        else if !outersOk s t d [] then some { cause := 0x032B, unit := 10, addr := a }
        else stepSync s t d

/-- What the blocks of a step bring: the state with their slots empty, the blocks, whether one is not finite. -/
structure BlocksIn where
  st : State
  blocks : List BlockIn
  bad : Bool

/-- Block `i` of a weft step read: one receive event, the credit returned, the outer scale of a replayed block taken
from those sent with the blocks (R145, R235, log entry 20). -/
def weftBlock (t : Nat) (d : StepDesc) (c : ChanDecl) (bad : List Nat) (x : BlocksIn) (i : Nat) : BlocksIn :=
  let n := d.bseq + i
  let da := blockSlot d.ring d.ringlen n
  let sa := scaleSlot d.sring d.ringlen n
  let (b, uf, nf) := readBlock x.st t d n bad
  let replay := bitN (scaleEntry x.st t sa) 12
  let s := countUp (clearSlots x.st t da sa) (rTileUflowCnt t) uf
  let k := chanSt s c.prog c.chan
  let s := setChanSt s c.prog c.chan { k with
    waiting := k.waiting - 1, recvd := k.recvd + 1, replays := if replay then k.replays.drop 1 else k.replays }
  let s := returnCredit (seqAdvance s t) t c
  ⟨s, x.blocks ++ [{ b with replay := if replay then some (k.replays.headD 0) else none }], x.bad || nf⟩

/-- A step that has set a SAT bit: ACC_SAT of the job, and cause 0x0321 raised without a trap (R122, R123, R263). -/
def jobSat (s : State) (t : Nat) (sat : Bool) : State :=
  if sat then
    let s := raise s 0x0321 t 0
    setCore s t { core s t with jobFlags := (core s t).jobFlags ||| 1 }
  else s

/-- The end of a step: its results stand, and F8_NONFINITE or MACRO_CHECK traps after it (R236, R122). -/
def stepDone (t a : Nat) (o : StepOut) (nonfinite : Bool) : WRes :=
  let r := applyStep o.st t o.work
  let s := jobSat r.1 t r.2
  if nonfinite || o.nonfinite.isSome then
    .trap (setRegBit s (rTileArith t) 10 true)
      { cause := 0x0322, unit := 5, sub := o.nonfinite.getD 0, addr := a }
  else match o.mism with
    | (_, m, p, g) :: _ => .trap s { cause := 0x0320, unit := 5, sub := m, detail := p + 8 * g, addr := a }
    | [] => .done s none

/-- The flag of TILE_ARITH that a trap before the step sets: LAYOUT or PAGE_INV (R123). -/
def stepTrapFlag (s : State) (t cause : Nat) : State :=
  if cause = 0x0323 then setRegBit s (rTileArith t) 11 true
  else if cause = 0x0324 then setRegBit s (rTileArith t) 12 true
  else s

/-- The blocks' pairs that a step waits on (R136): none once each matches. With TILE_SCALE_TMO.CYCLES 0 the bound is reached at
once. -/
def pairWait (s : State) (t a : Nat) (w : Nat × Nat) : WRes :=
  if regF s (rTileScaleTmo t) 23 0 = 0 then .trap s { cause := 0x0328, unit := 10, addr := a, exp := w.1, obs := w.2 }
  else .wait s ⟨4, a, w.1, w.2⟩

/-- MXR (R235): one step under the descriptor at EA, of which no rule asks an alignment. -/
def execMxr (t : Nat) (f : WFields) (e : WEnv) (s : State) : Host.Outcome State Fault Refusal :=
  weftInstr t f e { opc := 0x93, ra := 32, imm := immAny } false s fun s _ =>
    let a := effAddr s t f.ra f
    withAccess s 5 a 32 1 [] fun _ =>
      let bytes := tsRead s t a 32
      let d := stepDesc bytes
      match stepTrap s t a bytes with
      | some x => .trap (stepTrapFlag s t x.cause) x
      | none =>
        let sets := (stepMacros d).map (fun m => (m, (selection s t m).getD (0, 0)))
        match (if d.block then latePair s t d (3 * sets.length) else none) with
        | some w => pairWait s t a w
        | none =>
          if hitsBad e.bad a 32 || (stepReads d).any (fun x => hitsBad e.bad x.1 x.2) then
            .trap s { cause := 0x0306, unit := 5, addr := a }
          else if !d.block then stepDone t a (intStep s t d sets [] e.ups) false
          else match ringChan s t d with
            | none => .done s none
            | some c =>
              let x := (List.range (3 * sets.length)).foldl (weftBlock t d c []) ⟨s, [], false⟩
              stepDone t a (blockStep x.st t d sets x.blocks [] e.ups) x.bad

/-! ### Banks -/

/-- MXC. -/
def execMxc (t : Nat) (f : WFields) (e : WEnv) (s : State) : Host.Outcome State Fault Refusal :=
  weftSimple t f e { opc := 0x94, imm := immLt 4 } false s fun s _ => clearBank s t (f.imm % 4)

/-- The bank lane of lane `i`: IMM[1:0] bank, IMM[2] half. -/
def bankLane (f : WFields) (i : Nat) : Nat := 64 * (f.imm / 4 % 2) + i

/-- ACCRD. -/
def execAccrd (t : Nat) (f : WFields) (e : WEnv) (s : State) : Host.Outcome State Fault Refusal :=
  weftSimple t f e { opc := 0x95, rd := 32, imm := immLt 8 } true s fun s g =>
    setV s t f.rd g ((List.range 64).map (fun i => (accLane s t (f.imm % 4) (bankLane f i)).toNat))

/-- ACCSAT. -/
def execAccsat (t : Nat) (f : WFields) (e : WEnv) (s : State) : Host.Outcome State Fault Refusal :=
  weftSimple t f e { opc := 0x96, rd := 8, imm := immLt 8 } true s fun s g =>
    setPLanes s t f.rd g ((List.range 64).map (fun i => satBit s t (f.imm % 4) (bankLane f i)))

/-- ACCWR. -/
def execAccwr (t : Nat) (f : WFields) (e : WEnv) (s : State) : Host.Outcome State Fault Refusal :=
  weftSimple t f e { opc := 0x97, ra := 32, imm := immLt 8 } true s fun s g =>
    let v := getV s t f.ra
    (List.range 64).foldl (fun s i =>
      if bitN g i then setLaneSat s t (f.imm % 4) (bankLane f i) (BitVec.ofNat 32 (v.getD i 0)) false else s) s

/-! ### VQNT (R230, R231) -/

/-- A quantise descriptor. -/
structure QDesc where
  src : Nat
  tsr : Nat
  dst : Nat
  rlist : Nat
  count : Nat
  rlcap : Nat
  chan : Nat
  block : Bool
  zp : Int
deriving DecidableEq, Repr

/-- A quantise descriptor from its 32 bytes. -/
def qDesc (b : List Byte) : QDesc :=
  { src := leAt b 0 4, tsr := leAt b 4 4, dst := leAt b 8 4, rlist := leAt b 12 4, count := leAt b 16 4
    rlcap := leAt b 20 2, chan := leAt b 24 1, block := bitN (leAt b 25 1) 0, zp := sextI 9 (leAt b 26 2) }

/-- The descriptor keeps R230. -/
def qDescOk (b : List Byte) : Bool :=
  let d := qDesc b
  d.count % 32 == 0 && decide (32 ≤ d.count) && decide (d.count ≤ 131072) && leAt b 25 1 / 2 == 0
    && leAt b 26 2 / 512 == 0 && leAt b 28 4 == 0

/-- The regions of a VQNT in tile store (R225, R230): elements, record, and the replay list or the codes, whose format the record
names. -/
def qRegions (s : State) (t : Nat) (d : QDesc) : List (Nat × Nat) :=
  [(d.src, 4 * d.count), (d.tsr, 96),
   if d.block then (d.rlist, 4 * d.rlcap) else (d.dst, d.count * qBits (scaleRec (tsRead s t d.tsr 96)).fmt / 8)]

/-- The first region out of tile store (0x0304). -/
def vqRange (s : State) (t : Nat) (d : QDesc) : Option Trap := (qRegions s t d).findSome? (fun x => accessTrap 3 x.1 x.2 1 [])

/-- A block on its way: the block slot and the scale slot of the consumer's ring, then the TOKEN (R230, R132). -/
def sendSlots (s : State) (t : Nat) (c : ChanDecl) (fmt n : Nat) (q : QBlock) (replay : Option Nat) : State :=
  let bits := qBits fmt
  let k := n % max 1 c.depth
  let s := injectWrites s t c.dst (c.addr + 32 * k) (padTo 32 (packElems bits (q.elems.map (encI bits)))) (some (n % 16))
  let s := injectWrites s t c.dst (Config.scaleRing c.prog c.chan + 2 * k)
    (leBytes 2 (q.code + n % 16 * 2 ^ 8 + 2 ^ 12 * b2n replay.isSome)) (some (n % 16))
  let s := sendToken (takeCredit s c) t c
  match replay with
  | some o => let x := chanSt s c.prog c.chan
              setChanSt s c.prog c.chan { x with replays := x.replays ++ [o] }
  | none => s

/-- What a block-mode VQNT has come to. -/
inductive VqRes where
  | sent (s : State) (p : VqProg)
  | stopped (s : State) (p : VqProg) (x : Option Trap)

/-- The replayed block (R144): its outer scale and the block; none when replay fails (R146). -/
def replayBlock (fmt : Nat) (ys : List Nat) : Option (Nat × QBlock) :=
  let o := (divScale (blockAmax fmt ys) (16 * qmax fmt)).1
  if posFinite o then some (o, quantBlock fmt o ys) else none

/-- One more block of a VQNT (R230, R231): it waits for a credit, replays a missed block, and is one send event. -/
def vqBlock (t a : Nat) (d : QDesc) (fmt : Nat) (c : ChanDecl) (ys : List Nat) (s : State) (p : VqProg) : VqRes :=
  if (chanSt s c.prog c.chan).credits = 0 then .stopped s p none
  else
    let b := (ys.drop (32 * p.next)).take 32
    let q := quantBlock fmt p.outer b
    let fail : Trap := { cause := 0x0329, unit := 10, addr := a }
    if !q.missed then
      let s := sendSlots s t c fmt p.next q none
      .sent (seqAdvance (countUp s (rTileUflowCnt t) q.uflow) t) { p with next := p.next + 1 }
    else match replayBlock fmt b with
      | none => .stopped s p (some fail)
      | some (o, q2) =>
        if d.rlcap ≤ p.replays then .stopped s p (some fail)
        else
          let s := sendSlots (tsWrite s t (d.rlist + 4 * p.replays) (leBytes 4 o)) t c fmt p.next q2 (some o)
          let s := countUp (countUp s (rTileUflowCnt t) q2.uflow) (rTileReplayCnt t) 1
          let s := setCore s t { core s t with jobFlags := (core s t).jobFlags ||| 2 ^ 6 }
          .sent (seqAdvance s t) { p with next := p.next + 1, replays := p.replays + 1, missed := true }

/-- The blocks of a VQNT until one waits, fails, or none is left. -/
def vqRun (t a : Nat) (d : QDesc) (fmt : Nat) (c : ChanDecl) (ys : List Nat) : Nat → State → VqProg → VqRes
  | 0, s, p => .sent s p
  | n + 1, s, p => match vqBlock t a d fmt c ys s p with
    | .sent s p => vqRun t a d fmt c ys n s p
    | r => r

/-- The beginning of an execution (R139): the outer scale is chosen, and OUTER and JUMP_LEFT are stored; or the execution that
waits for a credit goes on. -/
def vqBegin (s : State) (t : Nat) (d : QDesc) (r : ScaleRec) : State × VqProg :=
  match (core s t).vq with
  | some p => (s, p)
  | none =>
    let c := chooseOuter r
    let b := recBegin d.tsr c.2
    (tsWrite s t b.1 b.2, ⟨0, c.1, 0, false⟩)

/-- Second pass in block mode: from the beginning or from where the wait for a credit left it. -/
def vqBlocks (s : State) (t a : Nat) (d : QDesc) (r : ScaleRec) (c : ChanDecl) (ys : List Nat) : WRes :=
  let b := vqBegin s t d r
  match vqRun t a d r.fmt c ys (d.count / 32 - b.2.next) b.1 b.2 with
  | .sent s p =>
    let s := (recEnd d.tsr r (blockAmax r.fmt ys) p.missed).foldl (fun s b => tsWrite s t b.1 b.2) s
    let s := tsWrite s t (a + 22) (leBytes 2 p.replays)
    .done (setCore s t { core s t with vq := none }) none
  | .stopped s p none => .wait (setCore s t { core s t with vq := some p }) ⟨0, c.chan, 0, 0⟩
  | .stopped s p (some x) => .trap (tsWrite s t (a + 22) (leBytes 2 p.replays)) x

/-- The sync checks of a block-mode VQNT (R239): no entry held, a slot-ring channel from this tile, every block the next
send event. -/
def vqSync (s : State) (t : Nat) (d : QDesc) : Trap ⊕ ChanDecl :=
  match heldTrap s t d.chan, chanDecl s (core s t).prog d.chan with
  | some x, _ => .inl x
  | none, none => .inl (syncTrap 0 d.chan 0 d.chan)
  | none, some c =>
    if !c.ring || c.src != t then .inl (syncTrap 0 d.chan 0 d.chan)
    else
      let left := d.count / 32 - (match (core s t).vq with | some p => p.next | none => 0)
      match notNextMany t d.chan false left s with
      | some x => .inl x
      | none => .inr c

/-- The record of a VQNT keeps R137: aligned, in tile store, BLOCK and its fields 0, and no F8 format in integer mode. -/
def vqRecordOk (bytes : List Byte) (d : QDesc) : Bool :=
  d.tsr % 32 == 0 && scaleRecOk true bytes && (d.block || decide ((scaleRec bytes).fmt ≤ 3))

/-- The two passes of a VQNT whose accesses and events are in order; `c` is its channel in block mode. -/
def vqPasses (s : State) (t a : Nat) (d : QDesc) (r : ScaleRec) (bad : List Nat) (c : Option ChanDecl) : WRes :=
  let ys := tsElems s t [] d.src 32 d.count
  if hitsBad bad a 32 || hitsBad bad d.tsr 96 || hitsBad bad d.src (4 * d.count) then
    .trap s { cause := 0x0306, unit := 3, addr := a }
  else if anyNonfinite ys then .trap s { cause := 0x032A, unit := 10, addr := a }
  else match c with
    | some c => vqBlocks s t a d r c ys
    | none =>
      let q := quantInt r.fmt r.outer d.zp ys
      let s := tsWrite s t d.dst (packElems (qBits r.fmt) (q.1.map (encI (qBits r.fmt))))
      .done (tsWrite (countUp s (rTileUflowCnt t) q.2) t (a + 22) (leBytes 2 0)) none

/-- The checks of a VQNT before its first pass, in the order of R246: a region out of tile store, then the descriptor (R230), the
record (R137) and, in block mode, the sync sequence; the channel when they pass. -/
def vqChecks (s : State) (t a : Nat) (b : List Byte) : Trap ⊕ Option ChanDecl :=
  let d := qDesc b
  match vqRange s t d with
  | some x => .inl x
  | none =>
    if a % 32 ≠ 0 || !qDescOk b then .inl { cause := 0x0311, unit := 3, addr := a }
    else if !vqRecordOk (tsRead s t d.tsr 96) d then .inl { cause := 0x032B, unit := 10, addr := a }
    else if !d.block then .inr none
    else match vqSync s t d with
      | .inl x => .inl x
      | .inr c => .inr (some c)

/-- VQNT. -/
def execVqnt (t : Nat) (f : WFields) (e : WEnv) (s : State) : Host.Outcome State Fault Refusal :=
  weftInstr t f e { opc := 0x78, ra := 32, imm := immAny } false s fun s _ =>
    let a := effAddr s t f.ra f
    withAccess s 3 a 32 1 [] fun _ =>
      let b := tsRead s t a 32
      match vqChecks s t a b with
      | .inl x => .trap s x
      | .inr c => vqPasses s t a (qDesc b) (scaleRec (tsRead s t (qDesc b).tsr 96)) e.bad c

end Sys2Proof.Machine
end

