-- ==== Sys2Proof/Machine/WeftVector.lean ====
section
/-! DEFINITION. Uahomer-D vector instructions (spec/08 R226-R229): integer, floating point, moves, conversions, Philox
draws. -/

namespace Sys2Proof.Machine

/-! ### Integer lanes (R226) -/

/-- The signed value of a lane. -/
abbrev sl (v : Nat) : Int := sextI 32 v

/-- An integer as a lane, modulo 2^32. -/
def wrap32 (x : Int) : Nat := encI 32 x

/-- An integer as a lane, saturated. -/
def sat32 (x : Int) : Nat := wrap32 (clampI (-2 ^ 31) (2 ^ 31 - 1) x)

/-- A lane operation on v[RA] and v[RB] into v[RD]. -/
def laneOp (opc : Nat) (t : Nat) (f : WFields) (e : WEnv) (s : State) (op : Nat → Nat → Nat) : Host.Outcome State Fault Refusal :=
  weftSimple t f e { opc := opc, rd := 32, ra := 32, rb := 32 } true s fun s g =>
    setV s t f.rd g (List.zipWith op (getV s t f.ra) (getV s t f.rb))

/-- VADD. -/
def execVadd (t : Nat) (f : WFields) (e : WEnv) (s : State) : Host.Outcome State Fault Refusal :=
  laneOp 0x50 t f e s fun a b => wrap32 (a + b)
/-- VSUB. -/
def execVsub (t : Nat) (f : WFields) (e : WEnv) (s : State) : Host.Outcome State Fault Refusal :=
  laneOp 0x51 t f e s fun a b => wrap32 ((a : Int) - b)
/-- VADDS. -/
def execVadds (t : Nat) (f : WFields) (e : WEnv) (s : State) : Host.Outcome State Fault Refusal :=
  laneOp 0x52 t f e s fun a b => sat32 (sl a + sl b)
/-- VSUBS. -/
def execVsubs (t : Nat) (f : WFields) (e : WEnv) (s : State) : Host.Outcome State Fault Refusal :=
  laneOp 0x53 t f e s fun a b => sat32 (sl a - sl b)
/-- VMUL. -/
def execVmul (t : Nat) (f : WFields) (e : WEnv) (s : State) : Host.Outcome State Fault Refusal :=
  laneOp 0x54 t f e s fun a b => wrap32 (a * b)
/-- VMULS. -/
def execVmuls (t : Nat) (f : WFields) (e : WEnv) (s : State) : Host.Outcome State Fault Refusal :=
  laneOp 0x55 t f e s fun a b => sat32 (sl a * sl b)
/-- VAND. -/
def execVand (t : Nat) (f : WFields) (e : WEnv) (s : State) : Host.Outcome State Fault Refusal :=
  laneOp 0x56 t f e s fun a b => a &&& b
/-- VOR. -/
def execVor (t : Nat) (f : WFields) (e : WEnv) (s : State) : Host.Outcome State Fault Refusal :=
  laneOp 0x57 t f e s fun a b => a ||| b
/-- VXOR. -/
def execVxor (t : Nat) (f : WFields) (e : WEnv) (s : State) : Host.Outcome State Fault Refusal :=
  laneOp 0x58 t f e s fun a b => a ^^^ b
/-- VSHL. -/
def execVshl (t : Nat) (f : WFields) (e : WEnv) (s : State) : Host.Outcome State Fault Refusal :=
  laneOp 0x59 t f e s fun a b => wrap32 (a * 2 ^ (b % 32) : Nat)
/-- VSHR. -/
def execVshr (t : Nat) (f : WFields) (e : WEnv) (s : State) : Host.Outcome State Fault Refusal :=
  laneOp 0x5A t f e s fun a b => a / 2 ^ (b % 32)
/-- VSRA. -/
def execVsra (t : Nat) (f : WFields) (e : WEnv) (s : State) : Host.Outcome State Fault Refusal :=
  laneOp 0x5B t f e s fun a b => wrap32 (sl a / 2 ^ (b % 32))
/-- VMIN. -/
def execVmin (t : Nat) (f : WFields) (e : WEnv) (s : State) : Host.Outcome State Fault Refusal :=
  laneOp 0x5C t f e s fun a b => wrap32 (min (sl a) (sl b))
/-- VMAX. -/
def execVmax (t : Nat) (f : WFields) (e : WEnv) (s : State) : Host.Outcome State Fault Refusal :=
  laneOp 0x5D t f e s fun a b => wrap32 (max (sl a) (sl b))
/-- A condition code on lanes (R221, R226). -/
def condV (cond a b : Nat) : Bool :=
  match cond with
  | 0 => a == b
  | 1 => a != b
  | 2 => decide (sl a < sl b)
  | 3 => decide (sl a ≤ sl b)
  | 4 => decide (a < b)
  | _ => decide (a ≤ b)

/-- VCMP. -/
def execVcmp (t : Nat) (f : WFields) (e : WEnv) (s : State) : Host.Outcome State Fault Refusal :=
  weftSimple t f e { opc := 0x5E, rd := 8, ra := 32, rb := 32, rc := 6 } true s fun s g =>
    setPLanes s t f.rd g (List.zipWith (condV f.rc) (getV s t f.ra) (getV s t f.rb))
/-- VSEL. -/
def execVsel (t : Nat) (f : WFields) (e : WEnv) (s : State) : Host.Outcome State Fault Refusal :=
  weftSimple t f e { opc := 0x5F, rd := 32, ra := 32, rb := 32, rc := 8 } true s fun s g =>
    let p := getP s t f.rc
    let a := getV s t f.ra
    let b := getV s t f.rb
    setV s t f.rd g ((List.range 64).map (fun i => if bitN p i then a.getD i 0 else b.getD i 0))

/-! ### Floating-point lanes (R227) -/

/-- The OR of the flags of the enabled lanes. -/
def laneFlags (g : Nat) (rs : List (Nat × Nat)) : Nat :=
  (List.range 64).foldl (fun fl i => if bitN g i then fl ||| (rs.getD i (0, 0)).2 else fl) 0

/-- Lane results into v[RD] with their flags. -/
def fpLanes (s : State) (t rd g : Nat) (rs : List (Nat × Nat)) : WRes :=
  flagged s t 3 (laneFlags g rs) fun s => setV s t rd g (rs.map (·.1))

/-- A binary operation in MODE 0 (FP32) or 1 (BF16 pairs). -/
def fpBinary (opc : Nat) (t : Nat) (f : WFields) (e : WEnv) (s : State) (op : FFmt → Nat → Nat → Nat × Nat) :
    Host.Outcome State Fault Refusal :=
  weftInstr t f e { opc := opc, rd := 32, ra := 32, rb := 32, imm := immLt 2 } true s fun s g =>
    let one := fun a b => if f.imm = 0 then op f32 a b else onPairs (fun x y _ => op bf16 x y) a b 0
    fpLanes s t f.rd g (List.zipWith one (getV s t f.ra) (getV s t f.rb))

/-- VFADD. -/
def execVfadd (t : Nat) (f : WFields) (e : WEnv) (s : State) : Host.Outcome State Fault Refusal :=
  fpBinary 0x60 t f e s fadd
/-- VFSUB. -/
def execVfsub (t : Nat) (f : WFields) (e : WEnv) (s : State) : Host.Outcome State Fault Refusal :=
  fpBinary 0x61 t f e s fsub
/-- VFMUL. -/
def execVfmul (t : Nat) (f : WFields) (e : WEnv) (s : State) : Host.Outcome State Fault Refusal :=
  fpBinary 0x62 t f e s fmul
/-- VFMAX. -/
def execVfmax (t : Nat) (f : WFields) (e : WEnv) (s : State) : Host.Outcome State Fault Refusal :=
  fpBinary 0x64 t f e s fmax
/-- VFMIN. -/
def execVfmin (t : Nat) (f : WFields) (e : WEnv) (s : State) : Host.Outcome State Fault Refusal :=
  fpBinary 0x65 t f e s fmin
/-- One lane of VFMA in MODE 0 FP32, 1 BF16 pairs, 2 BF16 × BF16 + FP32. -/
def fmaLane (mode a b c : Nat) : Nat × Nat :=
  match mode with
  | 0 => ffma f32 f32 a b c
  | 1 => onPairs (ffma bf16 bf16) a b c
  | _ => ffma bf16 f32 (a % 2 ^ 16) (b % 2 ^ 16) c

/-- VFMA. -/
def execVfma (t : Nat) (f : WFields) (e : WEnv) (s : State) : Host.Outcome State Fault Refusal :=
  weftInstr t f e { opc := 0x63, rd := 32, ra := 32, rb := 32, rc := 32, imm := immLt 3 } true s fun s g =>
    let a := getV s t f.ra
    let b := getV s t f.rb
    let c := getV s t f.rc
    fpLanes s t f.rd g ((List.range 64).map (fun i => fmaLane f.imm (a.getD i 0) (b.getD i 0) (c.getD i 0)))
/-- A condition code of VFCMP (R227: 0 EQ, 1 NE, 2 LT, 3 LE) as a code of R165, in which `fcmp` counts. -/
def vfcmpCond (rc : Nat) : Nat :=
  match rc with
  | 0 => 2
  | 1 => 3
  | 2 => 0
  | _ => 1

/-- VFCMP. -/
def execVfcmp (t : Nat) (f : WFields) (e : WEnv) (s : State) : Host.Outcome State Fault Refusal :=
  weftInstr t f e { opc := 0x66, rd := 8, ra := 32, rb := 32, rc := 4 } true s fun s g =>
    let a := getV s t f.ra
    let b := getV s t f.rb
    flagged s t 3 (laneFlags g (List.zipWith (fun x y => (0, fcmpFlags x y)) a b)) fun s =>
      setPLanes s t f.rd g (List.zipWith (fcmp (vfcmpCond f.rc)) a b)
/-- VFABS. -/
def execVfabs (t : Nat) (f : WFields) (e : WEnv) (s : State) : Host.Outcome State Fault Refusal :=
  weftInstr t f e { opc := 0x67, rd := 32, ra := 32, imm := immLt 2 } true s fun s g =>
    let one := fun x => if f.imm = 0 then fabs f32 x else fabs bf16 (x % 2 ^ 16) + fabs bf16 (x / 2 ^ 16) * 2 ^ 16
    .done (setV s t f.rd g ((getV s t f.ra).map one)) none
/-- A function of FP32 lanes (R118). -/
def fpUnary (opc : Nat) (t : Nat) (f : WFields) (e : WEnv) (s : State) (op : Nat → Nat × Nat) : Host.Outcome State Fault Refusal :=
  weftInstr t f e { opc := opc, rd := 32, ra := 32 } true s fun s g => fpLanes s t f.rd g ((getV s t f.ra).map op)

/-- VEXP2. -/
def execVexp2 (t : Nat) (f : WFields) (e : WEnv) (s : State) : Host.Outcome State Fault Refusal :=
  fpUnary 0x68 t f e s fexp2
/-- VLOG2. -/
def execVlog2 (t : Nat) (f : WFields) (e : WEnv) (s : State) : Host.Outcome State Fault Refusal :=
  fpUnary 0x69 t f e s flog2
/-- VRCP. -/
def execVrcp (t : Nat) (f : WFields) (e : WEnv) (s : State) : Host.Outcome State Fault Refusal :=
  fpUnary 0x6A t f e s frcp
/-- VRSQ. -/
def execVrsq (t : Nat) (f : WFields) (e : WEnv) (s : State) : Host.Outcome State Fault Refusal :=
  fpUnary 0x6B t f e s frsq
/-- VFRED: disabled lanes enter the tree as +0. R227 does not mark it "lane": g[0] says whether it executes (log entry 21). -/
def execVfred (t : Nat) (f : WFields) (e : WEnv) (s : State) : Host.Outcome State Fault Refusal :=
  weftInstr t f e { opc := 0x6C, rd := 32, ra := 32 } false s fun s g =>
    let v := getV s t f.ra
    let r := fred ((List.range 64).map (fun i => if bitN g i then v.getD i 0 else 0))
    flagged s t 3 r.2 fun s => setS s t f.rd r.1

/-! ### Moves (R228) -/

/-- VBCST. -/
def execVbcst (t : Nat) (f : WFields) (e : WEnv) (s : State) : Host.Outcome State Fault Refusal :=
  weftSimple t f e { opc := 0x70, rd := 32, ra := 32 } true s fun s g =>
    setV s t f.rd g (List.replicate 64 (getS s t f.ra % 2 ^ 32))
/-- VEXT. -/
def execVext (t : Nat) (f : WFields) (e : WEnv) (s : State) : Host.Outcome State Fault Refusal :=
  weftSimple t f e { opc := 0x71, rd := 32, ra := 32, imm := immLt 64 } false s fun s _ =>
    setS s t f.rd (wrap64 (sl ((getV s t f.ra).getD f.imm 0)))
/-- VINS. -/
def execVins (t : Nat) (f : WFields) (e : WEnv) (s : State) : Host.Outcome State Fault Refusal :=
  weftSimple t f e { opc := 0x72, rd := 32, ra := 32, imm := immLt 64 } false s fun s _ =>
    setV s t f.rd (2 ^ f.imm) (List.replicate 64 (getS s t f.ra % 2 ^ 32))
/-- VPERM. -/
def execVperm (t : Nat) (f : WFields) (e : WEnv) (s : State) : Host.Outcome State Fault Refusal :=
  weftSimple t f e { opc := 0x73, rd := 32, ra := 32, rb := 32 } true s fun s g =>
    let a := getV s t f.ra
    setV s t f.rd g ((getV s t f.rb).map (fun i => a.getD (i % 64) 0))
/-- VIOTA. -/
def execViota (t : Nat) (f : WFields) (e : WEnv) (s : State) : Host.Outcome State Fault Refusal :=
  weftSimple t f e { opc := 0x74, rd := 32 } true s fun s g => setV s t f.rd g (List.range 64)
/-- VIRED: the exact sum of the enabled lanes. -/
def execVired (t : Nat) (f : WFields) (e : WEnv) (s : State) : Host.Outcome State Fault Refusal :=
  weftSimple t f e { opc := 0x75, rd := 32, ra := 32 } false s fun s g =>
    let v := getV s t f.ra
    setS s t f.rd (wrap64 (((List.range 64).map (fun i => if bitN g i then sl (v.getD i 0) else 0)).sum))
/-- A lane that holds `n` result bits of a conversion to an integer, extended by sign unless U8. -/
def extendInt (n : Nat) (signed : Bool) (r : Nat × Nat) : Nat × Nat :=
  (if signed then wrap32 (sextI n r.1) else r.1, r.2)

/-- VCVT from one format code to another (R117, R228): 0 FP32, 1 BF16, 2 I32, 3 I8, 4 U8, 5 I4, 6 D2, 7 E4M3, 8 E5M2;
none for a pair with no row in R117. -/
def vcvt (src dst : Nat) : Option (Nat → Nat × Nat) :=
  match src, dst with
  | 0, 1 => some f32ToBf16
  | 0, 2 => some (f32ToInt 32 (-2 ^ 31) (2 ^ 31 - 1))
  | 0, 3 => some (fun x => extendInt 8 true (f32ToInt 8 (-128) 127 x))
  | 0, 4 => some (fun x => extendInt 8 false (f32ToInt 8 0 255 x))
  | 0, 5 => some (fun x => extendInt 4 true (f32ToInt 4 (-8) 7 x))
  | 0, 6 => some (fun x => extendInt 2 true (f32ToInt 2 (-2) 1 x))
  | 0, 7 => some (f32ToF8 e4m3)
  | 0, 8 => some (f32ToF8 e5m2)
  | 1, 0 => some (fun x => (toF32 bf16 (x % 2 ^ 16), 0))
  | 2, 0 => some i32ToF32
  | 7, 0 => some (fun x => (toF32 e4m3 (x % 256), 0))
  | 8, 0 => some (fun x => (toF32 e5m2 (x % 256), 0))
  | _, _ => none

/-- VCVT. -/
def execVcvt (t : Nat) (f : WFields) (e : WEnv) (s : State) : Host.Outcome State Fault Refusal :=
  weftInstr t f e { opc := 0x76, rd := 32, ra := 32, imm := fun v => decide (v < 256) && (vcvt (v % 16) (v / 16)).isSome } true s
    fun s g => match vcvt (f.imm % 16) (f.imm / 16) with
      | some op => fpLanes s t f.rd g ((getV s t f.ra).map op)
      | none => .done s none
/-- One round of Philox-4x32. -/
def philoxRound (k0 k1 : Nat) (c : Nat × Nat × Nat × Nat) : Nat × Nat × Nat × Nat :=
  let p0 := 0xD2511F53 * c.1
  let p1 := 0xCD9E8D57 * c.2.2.1
  (p1 / 2 ^ 32 ^^^ c.2.1 ^^^ k0, p1 % 2 ^ 32, p0 / 2 ^ 32 ^^^ c.2.2.2 ^^^ k1, p0 % 2 ^ 32)

/-- Philox-4x32 of `n` rounds, the key raised by the round constants between rounds. -/
def philox : Nat → Nat → Nat → Nat × Nat × Nat × Nat → Nat × Nat × Nat × Nat
  | 0, _, _, c => c
  | n + 1, k0, k1, c => philox n ((k0 + 0x9E3779B9) % 2 ^ 32) ((k1 + 0xBB67AE85) % 2 ^ 32) (philoxRound k0 k1 c)

/-- The word of a Philox output that IMM[17:16] names. -/
def philoxWord (k : Nat) (c : Nat × Nat × Nat × Nat) : Nat :=
  match k with
  | 0 => c.1
  | 1 => c.2.1
  | 2 => c.2.2.1
  | _ => c.2.2.2

/-- VRNG (R229). -/
def execVrng (t : Nat) (f : WFields) (e : WEnv) (s : State) : Host.Outcome State Fault Refusal :=
  weftSimple t f e { opc := 0x77, rd := 32, ra := 32, rb := 32, imm := immLt (2 ^ 18) } true s fun s g =>
    let c := core s t
    let a := getS s t f.ra
    let c1 := fld a 47 32 + f.imm % 2 ^ 16 * 2 ^ 16
    setV s t f.rd g ((List.range 64).map (fun i =>
      philoxWord (f.imm / 2 ^ 16 % 4)
        (philox 10 c.rngk0 c.rngk1 (a % 2 ^ 32, c1, (i + 64 * (getS s t f.rb % 2 ^ 26)) % 2 ^ 32, 0))))

end Sys2Proof.Machine
end

