-- ==== Sys2Proof/Machine/Dispatch.lean ====
section
/-! DEFINITION. Which meaning each command has: one arm per row of spec/opcode_table.json. -/

namespace Sys2Proof.Machine

def exec (i : Instr) (s : State) : Host.Outcome State Fault Refusal :=
  match i with
  | .powerUp => Sys2Proof.Machine.execPowerUp s
  | .sysRstNAssert hot => Sys2Proof.Machine.execSysRstNAssert hot s
  | .sysRstNRelease e => Sys2Proof.Machine.execSysRstNRelease e s
  | .memoryActive fail e => Sys2Proof.Machine.execMemoryActive fail e s
  | .stepTimeout e => Sys2Proof.Machine.execStepTimeout e s
  | .watchdog e => Sys2Proof.Machine.execWatchdog e s
  | .railUndervoltage hot => Sys2Proof.Machine.execRailUndervoltage hot s
  | .aonUndervoltage => Sys2Proof.Machine.execAonUndervoltage s
  | .powerLoss => Sys2Proof.Machine.execPowerLoss s
  | .lockEnSet => Sys2Proof.Machine.execLockEnSet s
  | .lockEnClear => Sys2Proof.Machine.execLockEnClear s
  | .tickLocked hz => Sys2Proof.Machine.execTickLocked hz s
  | .tickLockFail => Sys2Proof.Machine.execTickLockFail s
  | .avsDone ok => Sys2Proof.Machine.execAvsDone ok s
  | .arm => Sys2Proof.Machine.execArm s
  | .stop => Sys2Proof.Machine.execStop s
  | .runStopEnd => Sys2Proof.Machine.execRunStopEnd s
  | .runSyncEdge => Sys2Proof.Machine.execRunSyncEdge s
  | .tickLost => Sys2Proof.Machine.execTickLost s
  | .holdoverExit => Sys2Proof.Machine.execHoldoverExit s
  | .holdoverExpired => Sys2Proof.Machine.execHoldoverExpired s
  | .sysclkLost => Sys2Proof.Machine.execSysclkLost s
  | .weftPllUnlock => Sys2Proof.Machine.execWeftPllUnlock s
  | .droopDetected die mv weft => Sys2Proof.Machine.execDroopDetected die mv weft s
  | .tickOverrun => Sys2Proof.Machine.execTickOverrun s
  | .trigInEdge a0 rising tag => Sys2Proof.Machine.execTrigInEdge a0 rising tag s
  | .bolt a0 tick j pos bits => Sys2Proof.Machine.execBolt a0 tick j pos bits s
  | .laneDown a0 => Sys2Proof.Machine.execLaneDown a0 s
  | .frameDelivery n flits => Sys2Proof.Machine.execFrameDelivery n flits s
  | .backChannelBolt a0 tick j => Sys2Proof.Machine.execBackChannelBolt a0 tick j s
  | .warpMxr w sd ups => Sys2Proof.Machine.execWarpMxr w sd ups s
  | .warpMxc w bank => Sys2Proof.Machine.execWarpMxc w bank s
  | .req w vd half => Sys2Proof.Machine.execReq w vd half s
  | .qnt w vd => Sys2Proof.Machine.execQnt w vd s
  | .cvt w vd => Sys2Proof.Machine.execCvt w vd s
  | .warpAdd w vd => Sys2Proof.Machine.execWarpAdd w vd s
  | .warpMul w vd => Sys2Proof.Machine.execWarpMul w vd s
  | .warpFma w vd => Sys2Proof.Machine.execWarpFma w vd s
  | .warpMax w vd => Sys2Proof.Machine.execWarpMax w vd s
  | .warpMin w vd => Sys2Proof.Machine.execWarpMin w vd s
  | .exp2 w vd => Sys2Proof.Machine.execExp2 w vd s
  | .log2 w vd => Sys2Proof.Machine.execLog2 w vd s
  | .rcp w vd => Sys2Proof.Machine.execRcp w vd s
  | .rsq w vd => Sys2Proof.Machine.execRsq w vd s
  | .red w vd => Sys2Proof.Machine.execRed w vd s
  | .pset w vd pd => Sys2Proof.Machine.execPset w vd pd s
  | .movv w vd => Sys2Proof.Machine.execMovv w vd s
  | .bmov w vd half => Sys2Proof.Machine.execBmov w vd half s
  | .send w addr len tag => Sys2Proof.Machine.execSend w addr len tag s
  | .skpush w addr len sk => Sys2Proof.Machine.execSkpush w addr len sk s
  | .skpop w addr sk => Sys2Proof.Machine.execSkpop w addr sk s
  | .sksend w tag sk => Sys2Proof.Machine.execSksend w tag sk s
  | .htk w port route tag cnt slack => Sys2Proof.Machine.execHtk w port route tag cnt slack s
  | .mark w umask => Sys2Proof.Machine.execMark w umask s
  | .sco w bank lg cnt stream sc => Sys2Proof.Machine.execSco w bank lg cnt stream sc s
  | .burstArrival t p => Sys2Proof.Machine.execBurstArrival t p s
  | .tokenExpired t p a0 => Sys2Proof.Machine.execTokenExpired t p a0 s
  | .warpFlitArrival r ecc => Sys2Proof.Machine.execWarpFlitArrival r ecc s
  | .packetInjection dst src kind rtag addr chan payload ecc => Sys2Proof.Machine.execPacketInjection dst src kind rtag addr chan payload ecc s
  | .creditReturn n vc => Sys2Proof.Machine.execCreditReturn n vc s
  | .write src dst => Sys2Proof.Machine.execWrite src dst s
  | .token src dst => Sys2Proof.Machine.execToken src dst s
  | .credit src dst => Sys2Proof.Machine.execCredit src dst s
  | .shuttleReq t n u x => Sys2Proof.Machine.execShuttleReq t n u x s
  | .shuttleResp t n u => Sys2Proof.Machine.execShuttleResp t n u s
  | .regWr src dst => Sys2Proof.Machine.execRegWr src dst s
  | .regRd src dst => Sys2Proof.Machine.execRegRd src dst s
  | .regResp src dst => Sys2Proof.Machine.execRegResp src dst s
  | .telemetry src dst => Sys2Proof.Machine.execTelemetry src dst s
  | .evaluation n => Sys2Proof.Machine.execEvaluation n s
  | .treadleTimerExpiry n m j => Sys2Proof.Machine.execTreadleTimerExpiry n m j s
  | .trigOutPulseEnd j => Sys2Proof.Machine.execTrigOutPulseEnd j s
  | .force n => Sys2Proof.Machine.execForce n s
  | .c1Record n ecc => Sys2Proof.Machine.execC1Record n ecc s
  | .c1Commit n toTreadle ecc => Sys2Proof.Machine.execC1Commit n toTreadle ecc s
  | .decisionMissing n => Sys2Proof.Machine.execDecisionMissing n s
  | .bobbinWrite n => Sys2Proof.Machine.execBobbinWrite n s
  | .rearm n => Sys2Proof.Machine.execRearm n s
  | .regionValidWrite r kind stream => Sys2Proof.Machine.execRegionValidWrite r kind stream s
  | .refresh c k => Sys2Proof.Machine.execRefresh c k s
  | .zqCalibration c => Sys2Proof.Machine.execZqCalibration c s
  | .dimmTempRead c temp => Sys2Proof.Machine.execDimmTempRead c temp s
  | .scrub c errs => Sys2Proof.Machine.execScrub c errs s
  | .linkRecord n => Sys2Proof.Machine.execLinkRecord n s
  | .wfSqProd n v => Sys2Proof.Machine.execWfSqProd n v s
  | .wfCqCons n v => Sys2Proof.Machine.execWfCqCons n v s
  | .descriptorFetch n x => Sys2Proof.Machine.execDescriptorFetch n x s
  | .jobAdmission => Sys2Proof.Machine.execJobAdmission s
  | .reservedJob n => Sys2Proof.Machine.execReservedJob n s
  | .energyGrant t => Sys2Proof.Machine.execEnergyGrant t s
  | .jobEnd t => Sys2Proof.Machine.execJobEnd t s
  | .jobTrapEnd t => Sys2Proof.Machine.execJobTrapEnd t s
  | .completionRecord n x => Sys2Proof.Machine.execCompletionRecord n x s
  | .jobTimeLimit t => Sys2Proof.Machine.execJobTimeLimit t s
  | .abort n xs => Sys2Proof.Machine.execAbort n xs s
  | .resume n => Sys2Proof.Machine.execResume n s
  | .wfPos n v => Sys2Proof.Machine.execWfPos n v s
  | .shuttleTicketComplete t n => Sys2Proof.Machine.execShuttleTicketComplete t n s
  | .waitTimeout t => Sys2Proof.Machine.execWaitTimeout t s
  | .scaleTagTimeout t => Sys2Proof.Machine.execScaleTagTimeout t s
  | .nop t opc f e => Sys2Proof.Machine.execNop t opc f e s
  | .fence t f e => Sys2Proof.Machine.execFence t f e s
  | .trap t f e => Sys2Proof.Machine.execTrap t f e s
  | .jend t f e => Sys2Proof.Machine.execJend t f e s
  | .brk t f e => Sys2Proof.Machine.execBrk t f e s
  | .mfc t f e => Sys2Proof.Machine.execMfc t f e s
  | .mtc t f e => Sys2Proof.Machine.execMtc t f e s
  | .add t f e => Sys2Proof.Machine.execAdd t f e s
  | .sub t f e => Sys2Proof.Machine.execSub t f e s
  | .mul t f e => Sys2Proof.Machine.execMul t f e s
  | .mulh t f e => Sys2Proof.Machine.execMulh t f e s
  | .mulhu t f e => Sys2Proof.Machine.execMulhu t f e s
  | .and t f e => Sys2Proof.Machine.execAnd t f e s
  | .or t f e => Sys2Proof.Machine.execOr t f e s
  | .xor t f e => Sys2Proof.Machine.execXor t f e s
  | .shl t f e => Sys2Proof.Machine.execShl t f e s
  | .shr t f e => Sys2Proof.Machine.execShr t f e s
  | .sra t f e => Sys2Proof.Machine.execSra t f e s
  | .min t f e => Sys2Proof.Machine.execMin t f e s
  | .max t f e => Sys2Proof.Machine.execMax t f e s
  | .minu t f e => Sys2Proof.Machine.execMinu t f e s
  | .maxu t f e => Sys2Proof.Machine.execMaxu t f e s
  | .cmp t f e => Sys2Proof.Machine.execCmp t f e s
  | .addi t f e => Sys2Proof.Machine.execAddi t f e s
  | .li t f e => Sys2Proof.Machine.execLi t f e s
  | .lih t f e => Sys2Proof.Machine.execLih t f e s
  | .andi t f e => Sys2Proof.Machine.execAndi t f e s
  | .ori t f e => Sys2Proof.Machine.execOri t f e s
  | .xori t f e => Sys2Proof.Machine.execXori t f e s
  | .shli t f e => Sys2Proof.Machine.execShli t f e s
  | .shri t f e => Sys2Proof.Machine.execShri t f e s
  | .srai t f e => Sys2Proof.Machine.execSrai t f e s
  | .cmpi t f e => Sys2Proof.Machine.execCmpi t f e s
  | .plog t f e => Sys2Proof.Machine.execPlog t f e s
  | .pmov t f e => Sys2Proof.Machine.execPmov t f e s
  | .prd t f e => Sys2Proof.Machine.execPrd t f e s
  | .br t f e => Sys2Proof.Machine.execBr t f e s
  | .bany t f e => Sys2Proof.Machine.execBany t f e s
  | .ball t f e => Sys2Proof.Machine.execBall t f e s
  | .jal t f e => Sys2Proof.Machine.execJal t f e s
  | .jr t f e => Sys2Proof.Machine.execJr t f e s
  | .ld64 t f e => Sys2Proof.Machine.execLd64 t f e s
  | .ld32 t f e => Sys2Proof.Machine.execLd32 t f e s
  | .ld32u t f e => Sys2Proof.Machine.execLd32u t f e s
  | .ld16 t f e => Sys2Proof.Machine.execLd16 t f e s
  | .ld16u t f e => Sys2Proof.Machine.execLd16u t f e s
  | .ld8 t f e => Sys2Proof.Machine.execLd8 t f e s
  | .ld8u t f e => Sys2Proof.Machine.execLd8u t f e s
  | .st64 t f e => Sys2Proof.Machine.execSt64 t f e s
  | .st32 t f e => Sys2Proof.Machine.execSt32 t f e s
  | .st16 t f e => Sys2Proof.Machine.execSt16 t f e s
  | .st8 t f e => Sys2Proof.Machine.execSt8 t f e s
  | .vld t f e => Sys2Proof.Machine.execVld t f e s
  | .vst t f e => Sys2Proof.Machine.execVst t f e s
  | .vldp t f e => Sys2Proof.Machine.execVldp t f e s
  | .vstp t f e => Sys2Proof.Machine.execVstp t f e s
  | .vldx t f e => Sys2Proof.Machine.execVldx t f e s
  | .vadd t f e => Sys2Proof.Machine.execVadd t f e s
  | .vsub t f e => Sys2Proof.Machine.execVsub t f e s
  | .vadds t f e => Sys2Proof.Machine.execVadds t f e s
  | .vsubs t f e => Sys2Proof.Machine.execVsubs t f e s
  | .vmul t f e => Sys2Proof.Machine.execVmul t f e s
  | .vmuls t f e => Sys2Proof.Machine.execVmuls t f e s
  | .vand t f e => Sys2Proof.Machine.execVand t f e s
  | .vor t f e => Sys2Proof.Machine.execVor t f e s
  | .vxor t f e => Sys2Proof.Machine.execVxor t f e s
  | .vshl t f e => Sys2Proof.Machine.execVshl t f e s
  | .vshr t f e => Sys2Proof.Machine.execVshr t f e s
  | .vsra t f e => Sys2Proof.Machine.execVsra t f e s
  | .vmin t f e => Sys2Proof.Machine.execVmin t f e s
  | .vmax t f e => Sys2Proof.Machine.execVmax t f e s
  | .vcmp t f e => Sys2Proof.Machine.execVcmp t f e s
  | .vsel t f e => Sys2Proof.Machine.execVsel t f e s
  | .vfadd t f e => Sys2Proof.Machine.execVfadd t f e s
  | .vfsub t f e => Sys2Proof.Machine.execVfsub t f e s
  | .vfmul t f e => Sys2Proof.Machine.execVfmul t f e s
  | .vfma t f e => Sys2Proof.Machine.execVfma t f e s
  | .vfmax t f e => Sys2Proof.Machine.execVfmax t f e s
  | .vfmin t f e => Sys2Proof.Machine.execVfmin t f e s
  | .vfcmp t f e => Sys2Proof.Machine.execVfcmp t f e s
  | .vfabs t f e => Sys2Proof.Machine.execVfabs t f e s
  | .vexp2 t f e => Sys2Proof.Machine.execVexp2 t f e s
  | .vlog2 t f e => Sys2Proof.Machine.execVlog2 t f e s
  | .vrcp t f e => Sys2Proof.Machine.execVrcp t f e s
  | .vrsq t f e => Sys2Proof.Machine.execVrsq t f e s
  | .vfred t f e => Sys2Proof.Machine.execVfred t f e s
  | .vbcst t f e => Sys2Proof.Machine.execVbcst t f e s
  | .vext t f e => Sys2Proof.Machine.execVext t f e s
  | .vins t f e => Sys2Proof.Machine.execVins t f e s
  | .vperm t f e => Sys2Proof.Machine.execVperm t f e s
  | .viota t f e => Sys2Proof.Machine.execViota t f e s
  | .vired t f e => Sys2Proof.Machine.execVired t f e s
  | .vcvt t f e => Sys2Proof.Machine.execVcvt t f e s
  | .vrng t f e => Sys2Proof.Machine.execVrng t f e s
  | .vqnt t f e => Sys2Proof.Machine.execVqnt t f e s
  | .xclr t f e => Sys2Proof.Machine.execXclr t f e s
  | .xadd t f e => Sys2Proof.Machine.execXadd t f e s
  | .xrd t f e => Sys2Proof.Machine.execXrd t f e s
  | .xsum t f e => Sys2Proof.Machine.execXsum t f e s
  | .xst t f e => Sys2Proof.Machine.execXst t f e s
  | .xld t f e => Sys2Proof.Machine.execXld t f e s
  | .xacc t f e => Sys2Proof.Machine.execXacc t f e s
  | .mxw t f e => Sys2Proof.Machine.execMxw t f e s
  | .mxwf8 t f e => Sys2Proof.Machine.execMxwf8 t f e s
  | .mxs t f e => Sys2Proof.Machine.execMxs t f e s
  | .mxr t f e => Sys2Proof.Machine.execMxr t f e s
  | .mxc t f e => Sys2Proof.Machine.execMxc t f e s
  | .accrd t f e => Sys2Proof.Machine.execAccrd t f e s
  | .accsat t f e => Sys2Proof.Machine.execAccsat t f e s
  | .accwr t f e => Sys2Proof.Machine.execAccwr t f e s
  | .shq t f e => Sys2Proof.Machine.execShq t f e s
  | .shw t f e => Sys2Proof.Machine.execShw t f e s
  | .sht t f e => Sys2Proof.Machine.execSht t f e s
  | .chsend t f e => Sys2Proof.Machine.execChsend t f e s
  | .chrecv t f e => Sys2Proof.Machine.execChrecv t f e s
  | .chrel t f e => Sys2Proof.Machine.execChrel t f e s
  | .chpoll t f e => Sys2Proof.Machine.execChpoll t f e s
  | .energy t f e => Sys2Proof.Machine.execEnergy t f e s
  | .load src errs => Sys2Proof.Machine.execLoad src errs s
  | .loadComplete errs => Sys2Proof.Machine.execLoadComplete errs s
  | .tileIaData t w => Sys2Proof.Machine.execTileIaData t w s
  | .iaPageWrite t m p signed => Sys2Proof.Machine.execIaPageWrite t m p signed s
  | .iaPageRead t m p => Sys2Proof.Machine.execIaPageRead t m p s
  | .iaPageDone t => Sys2Proof.Machine.execIaPageDone t s
  | .faultRingRelease t n => Sys2Proof.Machine.execFaultRingRelease t n s
  | .portTrain p v => Sys2Proof.Machine.execPortTrain p v s
  | .portOff p v => Sys2Proof.Machine.execPortOff p v s
  | .portUp p dev pp => Sys2Proof.Machine.execPortUp p dev pp s
  | .portTrainFail p => Sys2Proof.Machine.execPortTrainFail p s
  | .portRetrain p => Sys2Proof.Machine.execPortRetrain p s
  | .portDown p => Sys2Proof.Machine.execPortDown p s
  | .peerBolt p j tag bits => Sys2Proof.Machine.execPeerBolt p j tag bits s
  | .replayTimeout p => Sys2Proof.Machine.execReplayTimeout p s
  | .timeCheckSend => Sys2Proof.Machine.execTimeCheckSend s
  | .timeCheck p => Sys2Proof.Machine.execTimeCheck p s
  | .scoreSend => Sys2Proof.Machine.execScoreSend s
  | .score p => Sys2Proof.Machine.execScore p s
  | .grant p => Sys2Proof.Machine.execGrant p s
  | .coordinator => Sys2Proof.Machine.execCoordinator s
  | .event p => Sys2Proof.Machine.execEvent p s
  | .memWr p => Sys2Proof.Machine.execMemWr p s
  | .memRd p errs => Sys2Proof.Machine.execMemRd p errs s
  | .wrAck p => Sys2Proof.Machine.execWrAck p s
  | .rdData p x => Sys2Proof.Machine.execRdData p x s
  | .perstN => Sys2Proof.Machine.execPerstN s
  | .linkUp cxl speed width => Sys2Proof.Machine.execLinkUp cxl speed width s
  | .linkDown => Sys2Proof.Machine.execLinkDown s
  | .hdmDecoderCommit a0 => Sys2Proof.Machine.execHdmDecoderCommit a0 s
  | .hostMemRead hpa errs => Sys2Proof.Machine.execHostMemRead hpa errs s
  | .hostMemWrite hpa mask bs poison errs => Sys2Proof.Machine.execHostMemWrite hpa mask bs poison errs s
  | .biasFlip target => Sys2Proof.Machine.execBiasFlip target s
  | .biasFlipDone n dirty => Sys2Proof.Machine.execBiasFlipDone n dirty s
  | .hostSnoop l inv => Sys2Proof.Machine.execHostSnoop l inv s
  | .atsInvalidation pg n => Sys2Proof.Machine.execAtsInvalidation pg n s
  | .mailboxGo => Sys2Proof.Machine.execMailboxGo s
  | .mctpControlMessage msg => Sys2Proof.Machine.execMctpControlMessage msg s
  | .getInfo src => Sys2Proof.Machine.execGetInfo src s
  | .getLedger src => Sys2Proof.Machine.execGetLedger src s
  | .getCert src => Sys2Proof.Machine.execGetCert src s
  | .getKemKey src => Sys2Proof.Machine.execGetKemKey src s
  | .getChallenge src => Sys2Proof.Machine.execGetChallenge src s
  | .attest src => Sys2Proof.Machine.execAttest src s
  | .warmReset src e => Sys2Proof.Machine.execWarmReset src e s
  | .recoveryWrite src e => Sys2Proof.Machine.execRecoveryWrite src e s
  | .keyEstablish src late => Sys2Proof.Machine.execKeyEstablish src late s
  | .ownerTransfer src late e => Sys2Proof.Machine.execOwnerTransfer src late e s
  | .setCap src => Sys2Proof.Machine.execSetCap src s
  | .fwUpdate src flashOk warm errs e => Sys2Proof.Machine.execFwUpdate src flashOk warm errs e s
  | .farmPower src => Sys2Proof.Machine.execFarmPower src s
  | .debugUnlock src late => Sys2Proof.Machine.execDebugUnlock src late s
  | .zeroize src => Sys2Proof.Machine.execZeroize src s
  | .zeroizeDdr4Done e => Sys2Proof.Machine.execZeroizeDdr4Done e s
  | .fuseAdvance src blown => Sys2Proof.Machine.execFuseAdvance src blown s
  | .setPolicy src flashOk => Sys2Proof.Machine.execSetPolicy src flashOk s
  | .ledgerClear src => Sys2Proof.Machine.execLedgerClear src s
  | .pmcControlUpdate x => Sys2Proof.Machine.execPmcControlUpdate x s
  | .pmcMeasurement core => Sys2Proof.Machine.execPmcMeasurement core s
  | .pmcOpStep stretched => Sys2Proof.Machine.execPmcOpStep stretched s
  | .pmbusPoll vals => Sys2Proof.Machine.execPmbusPoll vals s
  | .tempSample qs => Sys2Proof.Machine.execTempSample qs s
  | .thermalTrip k => Sys2Proof.Machine.execThermalTrip k s
  | .vrHot => Sys2Proof.Machine.execVrHot s
  | .snapInEdge tag => Sys2Proof.Machine.execSnapInEdge tag s
  | .atGo => Sys2Proof.Machine.execAtGo s
  | .snapshotNow => Sys2Proof.Machine.execSnapshotNow s
  | .snapshotLatch => Sys2Proof.Machine.execSnapshotLatch s
  | .snapshotRelease => Sys2Proof.Machine.execSnapshotRelease s
  | .wtSlackClr t => Sys2Proof.Machine.execWtSlackClr t s
  | .eyeScanGo a0 v => Sys2Proof.Machine.execEyeScanGo a0 v s
  | .eyeScanAbort a0 laneLost => Sys2Proof.Machine.execEyeScanAbort a0 laneLost s
  | .eyeScanDone a0 errs => Sys2Proof.Machine.execEyeScanDone a0 errs s
  | .tapReset => Sys2Proof.Machine.execTapReset s
  | .extest => Sys2Proof.Machine.execExtest s
  | .extestPulse => Sys2Proof.Machine.execExtestPulse s
  | .extestTrain => Sys2Proof.Machine.execExtestTrain s
  | .clamp => Sys2Proof.Machine.execClamp s
  | .highz => Sys2Proof.Machine.execHighz s
  | .idcode => Sys2Proof.Machine.execIdcode s
  | .samplePreload => Sys2Proof.Machine.execSamplePreload s
  | .bypass => Sys2Proof.Machine.execBypass s
  | .registerWrite x v => Sys2Proof.Machine.execRegisterWrite x v s
  | .rcRead a => Sys2Proof.Machine.execRcRead a s
  | .reg64LowRead a => Sys2Proof.Machine.execReg64LowRead a s
  | .reg64HighWrite a v => Sys2Proof.Machine.execReg64HighWrite a v s
  | .railBackInDcBand e => Sys2Proof.Machine.execRailBackInDcBand e s
  | .perstNDeassertion => Sys2Proof.Machine.execPerstNDeassertion s
  | .vrHotNHigh => Sys2Proof.Machine.execVrHotNHigh s
  | .snapOutEnd => Sys2Proof.Machine.execSnapOutEnd s
  | .portSlotTransmit p tag => Sys2Proof.Machine.execPortSlotTransmit p tag s
  | .clockRecoveryLock a0 => Sys2Proof.Machine.execClockRecoveryLock a0 s
  | .reg64HighRead a => Sys2Proof.Machine.execReg64HighRead a s
  | .reg64LowWrite a v => Sys2Proof.Machine.execReg64LowWrite a v s
  | .snDataRead => Sys2Proof.Machine.execSnDataRead s

end Sys2Proof.Machine
end

