-- ==== Sys2Proof/Machine/Step.lean ====
section
/-! DEFINITION. One step: the command at the front of the queue runs on the state whose queue is the rest; on an empty
queue one REED cycle passes (log entry 1). -/

namespace Sys2Proof.Machine

/-- What passes while no command waits: one REED cycle, in which a pending weft operating point takes effect (R51), Reed's packets move
(R200) and, in a run, the warp clock goes on to its next pulse and tick (R44). -/
def idle (s : State) : State := reedCycle (networkCycle (applyOpStep s))

/-- One step of the block. -/
def step (s : State) : Host.Outcome State Fault Refusal :=
  match s.pending with
  | [] => .next (idle s)
  | c :: rest => exec c { s with pending := rest }

/-- `s` with the command that the word spells at the front of its queue; `s` itself where the word spells none. -/
def State.withFetchWord (s : State) (nbits w : Nat) : State :=
  match decodeTableWord nbits w with
  | some c => { s with pending := c :: s.pending }
  | none => s

end Sys2Proof.Machine
end

