-- ==== Sys2Proof/Safety.lean ====
section
/-! DEFINITION. What counts as a sound state of the machine, in the terms that the statements use: every memory, register
file and table of units that the model holds as a sparse store stands in the canonical form of Machine/Sparse.lean. -/

namespace Sys2Proof.Machine

/-- DDR4 keeps its canonical form (spec/12 R335). -/
abbrev Memory.wf (s : State) : Prop := swf dByte s.bb.mem = true

/-- A memory channel that nothing has trained. -/
abbrev dMemChan : Nat → ChanSt := fun _ => {}

/-- The lanes and streams of Beam (spec/03). -/
def wfBm (x : BmSt) : Prop := swf dLane x.lanes = true ∧ swf dStream x.streams = true

/-- The stores of Treadle: tables, machines, scores, trigger pins (spec/11). -/
def wfTr (x : TrSt) : Prop :=
  swf dDWord x.tables = true ∧ swf dMachine x.machines = true ∧ swf dScore x.scores = true
    ∧ swf dTrigIn x.trigIn = true ∧ swf dTrigOut x.trigOut = true

/-- The stores of Bobbin: DDR4, lines that read as uncorrectable, channel maps, capture streams, channels (spec/12). -/
def wfBb (x : BbSt) : Prop :=
  swf dByte x.mem = true ∧ swf dFalse x.bad = true ∧ swf dDWord x.chmap = true ∧ swf dCap x.cap = true
    ∧ swf dMemChan x.chans = true

/-- The provenance chains (spec/13). -/
def wfOb (x : ObSt) : Prop := swf dChain x.chains = true

/-- The bias of the DDR4 pages (spec/15 R423). -/
def wfCx (x : CxSt) : Prop := swf dFalse x.bias = true

/-- The stores of the tiles: pick store, cells, pages, banks, SAT masks, slot sidebands (spec/04-06). -/
def wfTile (x : TileSt) : Prop :=
  swf dDWord x.pick = true ∧ swf dNat x.cells = true ∧ swf dPage x.pages = true ∧ swf dWord x.acc = true
    ∧ swf dFalse x.sat = true ∧ swf dSide x.side = true

/-- The predicates, tokens, skeins and quantise records of the warp plane (spec/06). -/
def wfWarp (x : WarpSt) : Prop :=
  swf dFalse x.preds = true ∧ swf dTokens x.tokens = true ∧ swf dSkein x.skeins = true ∧ swf dExec x.execs = true

/-- The registers of the weft cores (s, p, v and xa), the cores, selections, channels and cycle counts (spec/08). -/
def wfWeft (x : WeftSt) : Prop :=
  swf dDWord x.sreg = true ∧ swf dDWord x.preg = true ∧ swf dWord x.vreg = true ∧ swf dXLane x.xa = true
    ∧ swf dCore x.cores = true ∧ swf dSel x.sel = true ∧ swf dChan x.chans = true ∧ swf dCnt x.cycles = true

/-- The peer ports (spec/14). -/
def wfKw (x : KwSt) : Prop := swf dPort x.ports = true

/-- The canonical form of every store listed: registers of BAR0, Beam, Treadle, Bobbin, provenance, bias, frame marks,
delivery maps, tile store, tiles, warp plane, weft plane, Reed slot tables, peer ports. -/
def Canonical (s : State) : Prop :=
  swf regReset s.regs = true ∧ wfBm s.bm ∧ wfTr s.tr ∧ wfBb s.bb ∧ wfOb s.ob ∧ wfCx s.cx ∧ swf dMark s.marks = true
    ∧ swf dDWord s.dmap = true ∧ swf dByte s.ts = true ∧ wfTile s.tile ∧ wfWarp s.warp ∧ wfWeft s.weft
    ∧ swf dDWord s.rd.slots = true ∧ wfKw s.kw

/-- Weft tile `t` meets an instruction with opcode `opc` and fields `f`: the tile exists, its core issues (spec/02 R54, spec/08
R247), the bubbles of PM_BUBBLE leave the weft plane an issue (spec/16 R456), PC lies in the pick store (R215), which holds the
instruction there (R212, R213), and the word is readable (R246). -/
def Fetched (t : Nat) (f : WFields) (e : WEnv) (opc : Nat) (s : State) : Prop :=
  t < tileCount s ∧ coreIssues s t = true ∧ allBubbles s = false ∧ fetches s t opc f e = true ∧ (core s t).pc ≤ 8191
    ∧ e.pickBad = false

/-- The instruction of weft tile `t` with fields `f` of shape `h` executes: it is met, its fields are legal (R215), and its guard
lets it execute: g[0] for an instruction that is no lane instruction (R214). -/
def Runs (t : Nat) (f : WFields) (e : WEnv) (h : Shape) (lane : Bool) (s : State) : Prop :=
  Fetched t f e h.opc s ∧ legalFields f h = true ∧ (lane = true ∨ bitN (guardOf s t f) 0 = true)

/-- Weft tile `t` goes on with the next instruction after an instruction that leaves `s`. -/
def completes (t : Nat) (s : State) : Host.Outcome State Fault Refusal := .next (retire s t none)

/-- Where slot `slot` of the pick word of `w` stands while it serves frame `f` in the frame period that starts at tick `tp`
(spec/06 R153, R179). -/
def warpSite (s : State) (w : WSlot) (slot f tp : Nat) : WarpSite :=
  ⟨w.tile, f, phaseOf s tp * imageP s + w.word, slot, phaseOf s tp, w.word⟩

/-- The newest entry of the error log is a raise of `cause` by `source` (spec/18 R518, R519). -/
def Raised (u : State) (cause source : Nat) : Prop :=
  ∃ l, u.ob.log.head? = some l ∧ l.cause = cause ∧ l.source = source

/-- The saturating 32-bit counter at `a` stands `n` higher in `u` than in `s`. -/
def Counted (s u : State) (a n : Nat) : Prop := (reg u a).toNat = satN 32 ((reg s a).toNat + n)

/-- Keep takes command `op` from `src` as `c`, leaving `v`, and its message is no larger than R503 allows. -/
def Taken (src : CmdSrc) (op : Nat) (s : State) (c : KpCmd) (v : State) : Prop :=
  takeCmd src op s = some (c, v) ∧ (c.mctp = true → c.payload.length ≤ 16368)

/-- A critical command passes every check of R494: COUNTER `ctr` and BODY `body` under `key`, with `w` the state in which its
own effect begins. -/
def Accepted (src : CmdSrc) (op : Nat) (s : State) (c : KpCmd) (key : List Byte) (ctr : Nat) (body : List Byte) (w : State) :
    Prop :=
  let n := c.payload.length
  ∃ v, Taken src op s c v ∧ v.kp.kCmd = some key ∧ 24 ≤ n
    ∧ kmac256 key (cmdHeader c ++ c.payload.take (n - 16)) 16 (ascii "EX20-CMD") = c.payload.drop (n - 16)
    ∧ ctr = leAt c.payload 0 8 ∧ reg64 v rKpCmdCtr < ctr ∧ body = (c.payload.drop 8).take (n - 24)
    ∧ w = withKp (setReg64 v rKpCmdCtr ctr) (fun k => { k with authRow := 0 })

/-- A start with RESET_CAUSE `cause` has begun: its record follows the newest of `s` (spec/17 R482). -/
def Started (s u : State) (cause : Nat) : Prop :=
  ∃ r, u.kp.cur = some r ∧ r.bootNo = ((s.kp.cur <|> s.kp.flash.ledger.head?).getD {}).bootNo + 1 ∧ r.cause = cause

/-- A slot of a pick word issues for frame `f` with lag `lag` (spec/06 R152-R156): in a tile that exists, in the frame period that
starts at tick `tp`, where the pick sequencer meets its operation, of whose fields `holds` speaks, with no error in its word or in
what it reads. -/
def SlotIssues (w : WSlot) (slot lag : Nat) (holds : PickWord → Bool) (s : State) (f tp : Nat) : Prop :=
  w.tile < tileCount s ∧ periodStart s s.tb.tick = some tp ∧ slotIssues s w slot tp holds = true
    ∧ servedFrame s tp lag = some f ∧ w.pickBad = false ∧ w.bad = [] ∧ w.fixed = 0

/-- The state in which the operation of a slot begins: the slot has issued, and the activity of an enabled one is counted
(spec/06 R152, spec/16 R446). -/
def slotStart (s : State) (w : WSlot) (slot tp : Nat) : State :=
  let v := noteIssue s w.tile slot
  if slotEnabled s w then countAct v w.tile (slotActs v w.tile (pickAt v w.tile (phaseOf s tp * imageP s + w.word)) slot) else v

end Sys2Proof.Machine
end

