-- ==== Sys2Proof/Certificates/Slice0/Obligations.lean ====
section
/-! DEFINITION. The statements of this row. -/

section Statements

open Sys2Proof Sys2Proof.Machine

/-- Scalar arithmetic on 64-bit words (spec/08 R221): the register forms wrap modulo 2^64 and write s[RD], a shift uses the
low 6 bits of its amount; a compare under one of the six condition codes writes its 1-bit result to all 64 bits of p[RD],
and the reserved codes 6 and 7 are illegal; PLOG, PMOV and PRD move whole predicates. -/
def Obligations.ScalarArithmetic : Prop :=
  (∀ (t : Nat) (f : WFields) (e : WEnv) (s : State),
    let a : DWord := BitVec.ofNat 64 (getS s t f.ra)
    let b : DWord := BitVec.ofNat 64 (getS s t f.rb)
    let runs := fun o => Runs t f e { opc := o, rd := 32, ra := 32, rb := 32 } false s
    let put := fun v : DWord => completes t (setS (spendCycles s t e) t f.rd v.toNat)
    (runs 0x10 → exec (.add t f e) s = put (a + b))
      ∧ (runs 0x11 → exec (.sub t f e) s = put (a - b))
      ∧ (runs 0x12 → exec (.mul t f e) s = put (a * b))
      ∧ (runs 0x13 → exec (.mulh t f e) s = put (BitVec.ofInt 64 (a.toInt * b.toInt / 2 ^ 64)))
      ∧ (runs 0x14 → exec (.mulhu t f e) s = put (BitVec.ofNat 64 (a.toNat * b.toNat / 2 ^ 64)))
      ∧ (runs 0x15 → exec (.and t f e) s = put (a &&& b))
      ∧ (runs 0x16 → exec (.or t f e) s = put (a ||| b))
      ∧ (runs 0x17 → exec (.xor t f e) s = put (a ^^^ b))
      ∧ (runs 0x18 → exec (.shl t f e) s = put (a <<< (b.toNat % 64)))
      ∧ (runs 0x19 → exec (.shr t f e) s = put (a >>> (b.toNat % 64)))
      ∧ (runs 0x1A → exec (.sra t f e) s = put (a.sshiftRight (b.toNat % 64)))
      ∧ (runs 0x1B → exec (.min t f e) s = put (if a.slt b then a else b))
      ∧ (runs 0x1C → exec (.max t f e) s = put (if a.slt b then b else a))
      ∧ (runs 0x1D → exec (.minu t f e) s = put (if a.ult b then a else b))
      ∧ (runs 0x1E → exec (.maxu t f e) s = put (if a.ult b then b else a)))
    ∧ (∀ (t : Nat) (f : WFields) (e : WEnv) (s : State), f.imm < 2 ^ 32 →
    let word := fun v : Nat => BitVec.ofNat 64 v
    let cond := fun (c : Nat) (a b : DWord) =>
      [a == b, a != b, a.slt b, a.sle b, a.ult b, a.ule b].getD c false
    let flag := fun b : Bool => completes t (setP (spendCycles s t e) t f.rd (if b then 2 ^ 64 - 1 else 0))
    let pred := fun v : DWord => completes t (setP (spendCycles s t e) t f.rd v.toNat)
    let p := word (getP s t f.ra)
    let q := word (getP s t f.rb)
    (Runs t f e { opc := 0x1F, rd := 8, ra := 32, rb := 32, rc := 6 } false s →
        exec (.cmp t f e) s = flag (cond f.rc (word (getS s t f.ra)) (word (getS s t f.rb))))
      ∧ (Runs t f e { opc := 0x29, rd := 8, ra := 32, rc := 6, imm := immAny } false s →
        exec (.cmpi t f e) s = flag (cond f.rc (word (getS s t f.ra)) ((BitVec.ofNat 32 f.imm).signExtend 64)))
      ∧ (6 ≤ f.rc →
        let ill : Host.Outcome State Fault Refusal := .next (takeTrap (spendCycles s t e) t { cause := 0x0301, unit := 9 })
        (Fetched t f e 0x1F s → exec (.cmp t f e) s = ill) ∧ (Fetched t f e 0x29 s → exec (.cmpi t f e) s = ill))
      ∧ (Runs t f e { opc := 0x2A, rd := 8, ra := 8, rb := 8, imm := immLt 4 } false s →
        exec (.plog t f e) s = pred ([p &&& q, p ||| q, p ^^^ q, p &&& ~~~q].getD f.imm 0))
      ∧ (Runs t f e { opc := 0x2B, rd := 8, ra := 32 } false s → exec (.pmov t f e) s = pred (word (getS s t f.ra)))
      ∧ (Runs t f e { opc := 0x2C, rd := 32, ra := 8 } false s →
        exec (.prd t f e) s = completes t (setS (spendCycles s t e) t f.rd (getP s t f.ra))))

/-- The immediate forms of the scalar instructions (spec/08 R213, R221): IMM is sign-extended to 64 bits, LIH writes the
upper half only, and a shift by an immediate with a bit above 5 set traps as an illegal instruction. -/
def Obligations.ScalarImmediateForms : Prop :=
  ∀ (t : Nat) (f : WFields) (e : WEnv) (s : State), f.imm < 2 ^ 32 →
    let a : DWord := BitVec.ofNat 64 (getS s t f.ra)
    let i : DWord := (BitVec.ofNat 32 f.imm).signExtend 64
    let put := fun v : DWord => completes t (setS (spendCycles s t e) t f.rd v.toNat)
    let runs := fun o => Runs t f e { opc := o, rd := 32, ra := 32, imm := immAny } false s
    let load := fun o => Runs t f e { opc := o, rd := 32, imm := immAny } false s
    let shift := fun o => Runs t f e { opc := o, rd := 32, ra := 32, imm := immLt 64 } false s
    let ill : Host.Outcome State Fault Refusal := .next (takeTrap (spendCycles s t e) t { cause := 0x0301, unit := 9 })
    (runs 0x20 → exec (.addi t f e) s = put (a + i)) ∧ (runs 0x23 → exec (.andi t f e) s = put (a &&& i))
      ∧ (runs 0x24 → exec (.ori t f e) s = put (a ||| i)) ∧ (runs 0x25 → exec (.xori t f e) s = put (a ^^^ i))
      ∧ (load 0x21 → exec (.li t f e) s = put i)
      ∧ (load 0x22 → exec (.lih t f e) s = put (BitVec.ofNat 32 f.imm ++ BitVec.ofNat 32 (getS s t f.rd)))
      ∧ (shift 0x26 → exec (.shli t f e) s = put (a <<< f.imm)) ∧ (shift 0x27 → exec (.shri t f e) s = put (a >>> f.imm))
      ∧ (shift 0x28 → exec (.srai t f e) s = put (a.sshiftRight f.imm))
      ∧ (64 ≤ f.imm → (Fetched t f e 0x26 s → exec (.shli t f e) s = ill) ∧ (Fetched t f e 0x27 s → exec (.shri t f e) s = ill)
        ∧ (Fetched t f e 0x28 s → exec (.srai t f e) s = ill))

/-- System instructions (spec/08 R220, R241, R244): NOP does nothing, FENCE and JEND complete when no ticket they wait for
is open, BRK halts at debug level 2 or above and is a NOP below it, MFC and MTC move the control registers and trap 0x030C
on an index not listed, and TRAP traps 0x030D with its code. -/
def Obligations.SystemInstructions : Prop :=
  ∀ (t : Nat) (f : WFields) (e : WEnv) (s : State),
    let s1 := spendCycles s t e
    let c := core s1 t
    (Runs t f e { opc := 0x00 } false s → exec (.nop t 0 f e) s = completes t s1)
      ∧ (Runs t f e { opc := 0x04 } false s → exec (.brk t f e) s =
        completes t (if 2 ≤ regF s rKpDebug 1 0 then setCore s1 t { c with halted := true } else s1))
      ∧ (Runs t f e { opc := 0x01, imm := immLt 16 } false s → (bitN f.imm 2 = false ∨ openTickets s t = []) →
        exec (.fence t f e) s = completes t s1)
      ∧ (Runs t f e { opc := 0x03, imm := immLt (2 ^ 16) } false s → openTickets s t = [] → exec (.jend t f e) s =
        completes t (setCore s1 t { c with state := coreEnded, jend := some f.imm }))
      ∧ (Runs t f e { opc := 0x02, imm := immLt (2 ^ 16) } false s →
        exec (.trap t f e) s = .next (takeTrap s1 t { cause := 0x030D, unit := 8, exp := f.imm }))
      ∧ (Runs t f e { opc := 0x05, rd := 32, imm := immLt 256 } false s →
        exec (.mfc t f e) s = match f.imm with
          | 0 => completes t (setS s1 t f.rd c.cycle)
          | 1 => completes t (setS s1 t f.rd c.retired)
          | 2 => completes t (setS s1 t f.rd c.jobid)
          | 3 => completes t (setS s1 t f.rd c.stream)
          | 4 => completes t (setS s1 t f.rd t)
          | 5 => completes t (setS s1 t f.rd c.frame)
          | 8 => completes t (setS s1 t f.rd c.fpctl)
          | 9 => completes t (setS s1 t f.rd c.waittmo)
          | 10 => completes t (setS s1 t f.rd c.rngk0)
          | 11 => completes t (setS s1 t f.rd c.rngk1)
          | 12 => completes t (setS s1 t f.rd c.eclass)
          | i => .next (takeTrap s1 t { cause := 0x030C, unit := 8, addr := i }))
      ∧ (Runs t f e { opc := 0x06, ra := 32, imm := immLt 256 } false s →
        let v := getS s t f.ra
        exec (.mtc t f e) s = match f.imm with
          | 8 => completes t (setCore s1 t { c with fpctl := v % 32 })
          | 9 => completes t (setCore s1 t { c with waittmo := v % 2 ^ 64 })
          | 10 => completes t (setCore s1 t { c with rngk0 := v % 2 ^ 32 })
          | 11 => completes t (setCore s1 t { c with rngk1 := v % 2 ^ 32 })
          | i => .next (takeTrap s1 t { cause := 0x030C, unit := 8, addr := i }))

/-- Branches (spec/08 R222, R223): the target is counted in instructions from the branch, JAL links to the instruction
after it, a branch not taken goes on in sequence, and a taken branch to a target outside 0-8191 traps at the branch with no
register written. -/
def Obligations.Branches : Prop :=
  ∀ (t : Nat) (f : WFields) (e : WEnv) (s : State), f.imm < 2 ^ 32 →
    let s1 := spendCycles s t e
    let pc := (core s t).pc
    let i : DWord := (BitVec.ofNat 32 f.imm).signExtend 64
    let go := fun (u : State) (dest : DWord) => (if dest.toNat ≤ 8191 then .next (retire u t (some dest.toNat))
      else .next (takeTrap s1 t { cause := 0x0302, unit := 1 }) : Host.Outcome State Fault Refusal)
    let rel := BitVec.ofNat 64 pc + i
    (Runs t f e { opc := 0x30, imm := immAny } false s → exec (.br t f e) s = go s1 rel)
      ∧ (Runs t f e { opc := 0x31, ra := 8, imm := immAny } false s →
        exec (.bany t f e) s = if getP s t f.ra = 0 then completes t s1 else go s1 rel)
      ∧ (Runs t f e { opc := 0x32, ra := 8, imm := immAny } false s →
        exec (.ball t f e) s = if getP s t f.ra = 2 ^ 64 - 1 then go s1 rel else completes t s1)
      ∧ (Runs t f e { opc := 0x33, rd := 32, imm := immAny } false s →
        exec (.jal t f e) s = go (setS s1 t f.rd (pc + 1)) rel)
      ∧ (Runs t f e { opc := 0x34, ra := 32, imm := immAny } false s →
        exec (.jr t f e) s = go s1 (BitVec.ofNat 64 (getS s t f.ra) + i))

/-- What ends an instruction (spec/08 R216, R247-R249, R265). Retirement: the next PC, RETIRED one more modulo 2^64, no
wait left, and no register, memory or other core touched; a core whose stop has come records it, 0x030E. A trap: the core
keeps its state in TRAPPED with the cause, the registers, tile store and every other core stay, and the cause is in the
error log; a core whose stop has come first records 0x030E instead. -/
def Obligations.RetireOrTrap : Prop :=
  (∀ (t : Nat) (s : State) (pc : Option Nat), Canonical s →
    let c := core s t
    (stopDue s t = false →
        core (retire s t pc) t =
            { c with pc := pc.getD (c.pc + 1), retired := (c.retired + 1) % 2 ^ 64, waiting := none }
          ∧ (∀ u, u ≠ t → core (retire s t pc) u = core s u)
          ∧ (∀ u r, getS (retire s t pc) u r = getS s u r ∧ getP (retire s t pc) u r = getP s u r
            ∧ getV (retire s t pc) u r = getV s u r ∧ getX (retire s t pc) u r = getX s u r)
          ∧ (retire s t pc).ts = s.ts ∧ (retire s t pc).regs = s.regs)
      ∧ (stopDue s t = true →
        (core (retire s t pc) t).state = coreTrapped ∧ (core (retire s t pc) t).trapCause = 0x030E))
    ∧ (∀ (t : Nat) (s : State) (x : Trap), Canonical s → t < 256 → 0x0300 < x.cause → x.cause < 0x0340 →
    let u := takeTrap s t x
    (∀ v r, getS u v r = getS s v r ∧ getP u v r = getP s v r ∧ getV u v r = getV s v r ∧ getX u v r = getX s v r)
      ∧ u.ts = s.ts
      ∧ (core u t).state = coreTrapped ∧ (core u t).pc = (core s t).pc
      ∧ (core u t).trapCause = (if stopDue s t then 0x030E else x.cause)
      ∧ (stopDue s t = false → ∃ l, u.ob.log = l ∧ (l.head?.map (fun y => (y.cause, y.source))) = some (x.cause, t))
      ∧ (∀ v, v ≠ t → (core u v).pc = (core s v).pc ∧ (core u v).trapCause = (core s v).trapCause))

/-- An instruction whose guard is false has no effect but its issue, unless it is a lane instruction (spec/08 R214); fetch
past the pick store (R223), an uncorrectable word (R246) and an illegal word (R215) trap whatever the guard, in that order;
a core that does not issue (spec/16 R456, spec/02 R54), or whose pick store holds another instruction (R212), is left alone
(stated for ADD, ST64 and CHSEND). Of the traps of an access (R225, R246), out of range comes before misalignment and
misalignment before an uncorrectable word; each record names the effective address (stated for LD64 and ST32). -/
def Obligations.GuardDecodeAndAccess : Prop :=
  (∀ (t : Nat) (f : WFields) (e : WEnv) (s : State) (h : Shape) (c : Instr),
    (h = { opc := 0x10, rd := 32, ra := 32, rb := 32 } ∧ c = .add t f e)
      ∨ (h = { opc := 0x47, ra := 32, rb := 32, imm := immAny } ∧ c = .st64 t f e)
      ∨ (h = { opc := 0xB0, ra := 32, imm := immLt 256 } ∧ c = .chsend t f e) →
    t < tileCount s →
    let s1 := spendCycles s t e
    let trap := fun x : Trap => (.next (takeTrap s1 t x) : Host.Outcome State Fault Refusal)
    ((coreIssues s t = false ∨ allBubbles s = true ∨ fetches s t h.opc f e = false) → exec c s = .next s)
      ∧ (coreIssues s t = true → allBubbles s = false →
        (8191 < (core s t).pc → exec c s = trap { cause := 0x0302, unit := 9 })
          ∧ ((core s t).pc ≤ 8191 →
            (e.pickBad = true → exec c s = trap { cause := 0x0303, unit := 9 })
              ∧ (e.pickBad = false → fetches s t h.opc f e = true →
                (legalFields f h = false → exec c s = trap { cause := 0x0301, unit := 9 })
                  ∧ (legalFields f h = true → bitN (guardOf s t f) 0 = false → exec c s = completes t s1)))))
    ∧ (∀ (t : Nat) (f : WFields) (e : WEnv) (s : State),
    let s1 := spendCycles s t e
    let a := effAddr s t f.ra f
    let trap := fun c : Nat => (.next (takeTrap s1 t { cause := c, unit := 2, addr := a }) : Host.Outcome State Fault Refusal)
    (Runs t f e { opc := 0x40, rd := 32, ra := 32, imm := immAny } false s →
        (2 ^ 19 < a + 8 → exec (.ld64 t f e) s = trap 0x0304)
          ∧ (a + 8 ≤ 2 ^ 19 → a % 8 ≠ 0 → exec (.ld64 t f e) s = trap 0x0305)
          ∧ (a + 8 ≤ 2 ^ 19 → a % 8 = 0 → hitsBad e.bad a 8 = true → exec (.ld64 t f e) s = trap 0x0306))
      ∧ (Runs t f e { opc := 0x48, ra := 32, rb := 32, imm := immAny } false s →
        (2 ^ 19 < a + 4 → exec (.st32 t f e) s = trap 0x0304)
          ∧ (a + 4 ≤ 2 ^ 19 → a % 4 ≠ 0 → exec (.st32 t f e) s = trap 0x0305)))

/-- Loads of a weft core (spec/08 R224, R225): the little-endian bytes at EA = s[RA] + IMM, extended as the opcode says,
when the access lies in tile store, is aligned to its size (VLD 32, VLDP 16, VLDX 4 bytes) and reads no uncorrectable word. -/
def Obligations.WeftLoads : Prop :=
  ∀ (t : Nat) (f : WFields) (e : WEnv) (s : State),
    let s1 := spendCycles s t e
    let a := effAddr s t f.ra f
    let fine := fun n al : Nat => a + n ≤ 2 ^ 19 ∧ a % al = 0 ∧ hitsBad e.bad a n = false
    let num := fun n : Nat => ofLe (tsRead s t a n)
    let put := fun v : Nat => completes t (setS s1 t f.rd v)
    let lanes := fun vs : List Nat => completes t (setV s1 t f.rd (guardOf s t f) vs)
    let loads := fun o => Runs t f e { opc := o, rd := 32, ra := 32, imm := immAny } false s
    (loads 0x40 → fine 8 8 → exec (.ld64 t f e) s = put (num 8))
      ∧ (loads 0x41 → fine 4 4 → exec (.ld32 t f e) s = put ((BitVec.ofNat 32 (num 4)).signExtend 64).toNat)
      ∧ (loads 0x42 → fine 4 4 → exec (.ld32u t f e) s = put (num 4))
      ∧ (loads 0x43 → fine 2 2 → exec (.ld16 t f e) s = put ((BitVec.ofNat 16 (num 2)).signExtend 64).toNat)
      ∧ (loads 0x44 → fine 2 2 → exec (.ld16u t f e) s = put (num 2))
      ∧ (loads 0x45 → fine 1 1 → exec (.ld8 t f e) s = put ((BitVec.ofNat 8 (num 1)).signExtend 64).toNat)
      ∧ (loads 0x46 → fine 1 1 → exec (.ld8u t f e) s = put (num 1))
      ∧ (Runs t f e { opc := 0x4B, rd := 32, ra := 32, imm := immAny } true s → fine 256 32 →
        exec (.vld t f e) s = lanes ((List.range 64).map (fun i => ofLe (tsRead s t (a + 4 * i) 4))))
      ∧ (Runs t f e { opc := 0x4D, rd := 32, ra := 32, rc := 7, imm := immAny } true s → fine (8 * packBits f.rc) 16 →
        exec (.vldp t f e) s = lanes ((unpackElems (packBits f.rc) 64 (tsRead s t a (8 * packBits f.rc))).map (widen f.rc)))
      ∧ (Runs t f e { opc := 0x4F, rd := 32, ra := 32, rb := 32, imm := immAny } true s →
        let at_ := fun i => (a + 4 * (getV s t f.rb).getD i 0) % 2 ^ 64
        (∀ i < 64, bitN (guardOf s t f) i = true →
          at_ i + 4 ≤ 2 ^ 19 ∧ at_ i % 4 = 0 ∧ hitsBad e.bad (at_ i) 4 = false) →
        exec (.vldx t f e) s =
          lanes ((List.range 64).map (fun i => if bitN (guardOf s t f) i then ofLe (tsRead s t (at_ i) 4) else 0)))

/-- Stores of a weft core (spec/08 R224, R225): the low bytes of s[RB], or the enabled lanes of v[RB], go to EA; every byte
of every tile store outside them reads as before, and no register of the weft plane changes. -/
def Obligations.WeftStores : Prop :=
  ∀ (t : Nat) (f : WFields) (e : WEnv) (s : State), Canonical s →
    let s1 := spendCycles s t e
    let a := effAddr s t f.ra f
    let fine := fun n al : Nat => a + n ≤ 2 ^ 19 ∧ a % al = 0
    let store := fun (o n : Nat) (c : Instr) => Runs t f e { opc := o, ra := 32, rb := 32, imm := immAny } false s → fine n n → ∃ u, exec c s = completes t u
      ∧ tsRead u t a n = leBytes n (getS s t f.rb)
      ∧ (∀ v b, v ≠ t ∨ b < a ∨ a + n ≤ b → tsRead u v b 1 = tsRead s v b 1)
      ∧ u.weft = s1.weft ∧ u.regs = s.regs
    store 0x47 8 (.st64 t f e) ∧ store 0x48 4 (.st32 t f e) ∧ store 0x49 2 (.st16 t f e) ∧ store 0x4A 1 (.st8 t f e)
      ∧ (Runs t f e { opc := 0x4C, ra := 32, rb := 32, imm := immAny } true s → fine 256 32 →
        ∃ u, exec (.vst t f e) s = completes t u
          ∧ (∀ i < 64, bitN (guardOf s t f) i = true →
            tsRead u t (a + 4 * i) 4 = leBytes 4 ((getV s t f.rb).getD i 0))
          ∧ (∀ v b, (v = t → ∀ i < 64, bitN (guardOf s t f) i = true → b < a + 4 * i ∨ a + 4 * i + 4 ≤ b) →
            tsRead u v b 1 = tsRead s v b 1)
          ∧ u.weft = s1.weft ∧ u.regs = s.regs)
      ∧ (Runs t f e { opc := 0x4E, ra := 32, rb := 32, rc := 7, imm := immAny } true s → fine (8 * packBits f.rc) 16 →
        ∃ u, exec (.vstp t f e) s = completes t u
          ∧ (∀ v b, v ≠ t ∨ b < a ∨ a + 8 * packBits f.rc ≤ b → tsRead u v b 1 = tsRead s v b 1)
          ∧ (guardOf s t f ≠ 0 → tsRead u t a (8 * packBits f.rc) = packElems (packBits f.rc) ((List.range 64).map (fun i =>
              if bitN (guardOf s t f) i then (getV s t f.rb).getD i 0
              else (unpackElems (packBits f.rc) 64 (tsRead s t a (8 * packBits f.rc))).getD i 0)))
          ∧ u.weft = s1.weft ∧ u.regs = s.regs)

/-- Vector integer instructions lane by lane on 32-bit words (spec/08 R226): wrapping forms are modulo 2^32, saturating
forms clamp to the I32 range, shifts use the low 5 bits, VCMP writes a predicate bit and VSEL selects by one; moves,
conversions and Philox draws (R228, R229). -/
def Obligations.VectorIntegersAndMoves : Prop :=
  (∀ (t : Nat) (f : WFields) (e : WEnv) (s : State),
    let s1 := spendCycles s t e
    let g := guardOf s t f
    let va := (getV s t f.ra).map (BitVec.ofNat 32)
    let vb := (getV s t f.rb).map (BitVec.ofNat 32)
    let clamp := fun x : Int => BitVec.ofInt 32 (if x < -2 ^ 31 then -2 ^ 31 else if 2 ^ 31 - 1 < x then 2 ^ 31 - 1 else x)
    let lanes := fun op : Word → Word → Word =>
      completes t (setV s1 t f.rd g ((List.zipWith op va vb).map BitVec.toNat))
    let runs := fun o => Runs t f e { opc := o, rd := 32, ra := 32, rb := 32 } true s
    (runs 0x50 → exec (.vadd t f e) s = lanes (fun a b => a + b))
      ∧ (runs 0x51 → exec (.vsub t f e) s = lanes (fun a b => a - b))
      ∧ (runs 0x52 → exec (.vadds t f e) s = lanes (fun a b => clamp (a.toInt + b.toInt)))
      ∧ (runs 0x53 → exec (.vsubs t f e) s = lanes (fun a b => clamp (a.toInt - b.toInt)))
      ∧ (runs 0x54 → exec (.vmul t f e) s = lanes (fun a b => a * b))
      ∧ (runs 0x55 → exec (.vmuls t f e) s = lanes (fun a b => clamp (a.toInt * b.toInt)))
      ∧ (runs 0x56 → exec (.vand t f e) s = lanes (fun a b => a &&& b))
      ∧ (runs 0x57 → exec (.vor t f e) s = lanes (fun a b => a ||| b))
      ∧ (runs 0x58 → exec (.vxor t f e) s = lanes (fun a b => a ^^^ b))
      ∧ (runs 0x59 → exec (.vshl t f e) s = lanes (fun a b => a <<< (b.toNat % 32)))
      ∧ (runs 0x5A → exec (.vshr t f e) s = lanes (fun a b => a >>> (b.toNat % 32)))
      ∧ (runs 0x5B → exec (.vsra t f e) s = lanes (fun a b => a.sshiftRight (b.toNat % 32)))
      ∧ (runs 0x5C → exec (.vmin t f e) s = lanes (fun a b => if a.slt b then a else b))
      ∧ (runs 0x5D → exec (.vmax t f e) s = lanes (fun a b => if a.slt b then b else a))
      ∧ (Runs t f e { opc := 0x5E, rd := 8, ra := 32, rb := 32, rc := 6 } true s →
        exec (.vcmp t f e) s = completes t (setPLanes s1 t f.rd g (List.zipWith (fun a b =>
          [a == b, a != b, a.slt b, a.sle b, a.ult b, a.ule b].getD f.rc false) va vb)))
      ∧ (Runs t f e { opc := 0x5F, rd := 32, ra := 32, rb := 32, rc := 8 } true s →
        exec (.vsel t f e) s = completes t (setV s1 t f.rd g ((List.range 64).map (fun i =>
          ((if bitN (getP s t f.rc) i then va else vb).getD i 0).toNat)))))
    ∧ (∀ (t : Nat) (f : WFields) (e : WEnv) (s : State), f.imm < 2 ^ 32 →
    let s1 := spendCycles s t e
    let g := guardOf s t f
    let x := getS s t f.ra
    let a := getV s t f.ra
    let c := core s t
    let lanes := fun vs : List Nat => completes t (setV s1 t f.rd g vs)
    let counter := fun i : Nat => (x % 2 ^ 32, x / 2 ^ 32 % 2 ^ 16 + f.imm % 2 ^ 16 * 2 ^ 16,
      (i + 64 * (getS s t f.rb % 2 ^ 26)) % 2 ^ 32, 0)
    let draw := fun i : Nat => philox 10 c.rngk0 c.rngk1 (counter i)
    (Runs t f e { opc := 0x70, rd := 32, ra := 32 } true s → exec (.vbcst t f e) s = lanes (List.replicate 64 (x % 2 ^ 32)))
      ∧ (Runs t f e { opc := 0x71, rd := 32, ra := 32, imm := immLt 64 } false s →
        exec (.vext t f e) s = completes t (setS s1 t f.rd ((BitVec.ofNat 32 (a.getD f.imm 0)).signExtend 64).toNat))
      ∧ (Runs t f e { opc := 0x72, rd := 32, ra := 32, imm := immLt 64 } false s →
        exec (.vins t f e) s = completes t (setV s1 t f.rd (2 ^ f.imm) (List.replicate 64 (x % 2 ^ 32))))
      ∧ (Runs t f e { opc := 0x73, rd := 32, ra := 32, rb := 32 } true s →
        exec (.vperm t f e) s = lanes ((getV s t f.rb).map (fun i => a.getD (i % 64) 0)))
      ∧ (Runs t f e { opc := 0x74, rd := 32 } true s → exec (.viota t f e) s = lanes (List.range 64))
      ∧ (Runs t f e { opc := 0x75, rd := 32, ra := 32 } false s →
        exec (.vired t f e) s = completes t (setS s1 t f.rd (BitVec.ofInt 64 ((List.range 64).map (fun i =>
          if bitN g i then (BitVec.ofNat 32 (a.getD i 0)).toInt else 0)).sum).toNat))
      ∧ (∀ op, vcvt (f.imm % 16) (f.imm / 16) = some op →
        Runs t f e { opc := 0x76, rd := 32, ra := 32, imm := immLt 256 } true s →
        laneFlags g (a.map op) &&& c.fpctl % 32 = 0 →
        exec (.vcvt t f e) s =
          completes t (setV (weftFlags s1 t (laneFlags g (a.map op))) t f.rd g ((a.map op).map (·.1))))
      ∧ (Runs t f e { opc := 0x77, rd := 32, ra := 32, rb := 32, imm := immLt (2 ^ 18) } true s →
        exec (.vrng t f e) s = lanes ((List.range 64).map (fun i =>
          match f.imm / 2 ^ 16 with
          | 0 => (draw i).1
          | 1 => (draw i).2.1
          | 2 => (draw i).2.2.1
          | _ => (draw i).2.2.2))))

/-- The register files of a weft core (spec/08 R211, R214): after a write of v[r] under guard g an enabled lane holds its
new value modulo 2^32 and a disabled lane its old one, and predicate lanes likewise; a scalar or predicate register written
reads back modulo 2^64; every other register stays; s0 reads 0 and p0 reads all ones whatever is written to them. A write
of one file changes no other part of the state, and the issue of an instruction changes the core's cycle count and issue
opportunity, the cycle counters and the activity counters alone (R216, spec/16 R446). -/
def Obligations.WeftRegisterFiles : Prop :=
  (∀ (s : State) (t r g : Nat) (vs : List Nat) (bs : List Bool), Canonical s → t < 256 → r < 32 → vs.length = 64 →
    (∀ i < 64, (getV (setV s t r g vs) t r).getD i 0 = if bitN g i then vs.getD i 0 % 2 ^ 32 else (getV s t r).getD i 0)
      ∧ (∀ u q, u < 256 → q < 32 → u ≠ t ∨ q ≠ r → getV (setV s t r g vs) u q = getV s u q)
      ∧ (r < 8 → bs.length = 64 → (∀ i < 64, bitN (getP (setPLanes s t r g bs) t r) i =
          if r = 0 then true else if bitN g i then bs.getD i false else bitN (getP s t r) i)))
    ∧ (∀ (s : State) (t r v : Nat), Canonical s → t < 256 → r < 32 →
    (∀ u q, u < 256 → q < 32 → getS (setS s t r v) u q =
        if q = 0 then 0 else if u = t ∧ q = r then v % 2 ^ 64 else getS s u q)
      ∧ (r < 8 → ∀ u q, u < 256 → q < 8 → getP (setP s t r v) u q =
        if q = 0 then 2 ^ 64 - 1 else if u = t ∧ q = r then v % 2 ^ 64 else getP s u q)
      ∧ setS s t r v = { s with weft := { s.weft with sreg := (setS s t r v).weft.sreg } }
      ∧ setP s t r v = { s with weft := { s.weft with preg := (setP s t r v).weft.preg } }
      ∧ (∀ g vs, setV s t r g vs = { s with weft := { s.weft with vreg := (setV s t r g vs).weft.vreg } })
      ∧ (∀ ls, setX s t r ls = { s with weft := { s.weft with xa := (setX s t r ls).weft.xa } })
      ∧ (∀ ls, r < 4 → ls.length = 64 → ∀ u q, u < 256 → q < 4 →
        getX (setX s t r ls) u q = if u = t ∧ q = r then ls else getX s u q)
      ∧ (∀ e : WEnv, spendCycles s t e = { s with
          weft := { s.weft with cores := (spendCycles s t e).weft.cores, cycles := (spendCycles s t e).weft.cycles }
          tile := { s.tile with act := (spendCycles s t e).tile.act, held := (spendCycles s t e).tile.held } })
      ∧ (∀ (e : WEnv) u, core (spendCycles s t e) u = if u = t then { core s t with
          cycle := ((core s t).cycle + (1 + ((idleCycles s t e).map (·.2)).sum)) % 2 ^ 64
          opp := ((core s t).opp + bubblesDue s t + 1) % 64 } else core s u))

/-- Floating-point lane instructions (spec/08 R227, R245): each lane of v[RD] takes the rounded result, the flags of the
enabled lanes become sticky, and an enabled flag traps 0x0307 with the flags set and no destination written. The codes 0
EQ, 1 NE, 2 LT, 3 LE of VFCMP are 2, 3, 0, 1 of `fcmp`, which counts as CTRL.CMP of R165 does. -/
def Obligations.VectorFloatForms : Prop :=
  ∀ (t : Nat) (f : WFields) (e : WEnv) (s : State),
    let s1 := spendCycles s t e
    let g := guardOf s t f
    let a := getV s t f.ra
    let b := getV s t f.rb
    let c := getV s t f.rc
    let write := fun (fl : Nat) (w : State → State) =>
      (if fl &&& (core s t).fpctl % 32 = 0 then completes t (w (weftFlags s1 t fl))
      else .next (takeTrap (weftFlags s1 t fl) t { cause := 0x0307, unit := 3, detail := fl }) :
        Host.Outcome State Fault Refusal)
    let lanes := fun rs : List (Nat × Nat) => write (laneFlags g rs) (fun u => setV u t f.rd g (rs.map (·.1)))
    let two := fun op : FFmt → Nat → Nat → Nat × Nat => List.zipWith (fun x y =>
      if f.imm = 0 then op f32 x y
      else
        let lo := op bf16 (x % 2 ^ 16) (y % 2 ^ 16)
        let hi := op bf16 (x / 2 ^ 16) (y / 2 ^ 16)
        (lo.1 + hi.1 * 2 ^ 16, lo.2 ||| hi.2)) a b
    let runs := fun o => Runs t f e { opc := o, rd := 32, ra := 32, rb := 32, imm := immLt 2 } true s
    let runs1 := fun o => Runs t f e { opc := o, rd := 32, ra := 32 } true s
    (runs 0x60 → exec (.vfadd t f e) s = lanes (two fadd)) ∧ (runs 0x61 → exec (.vfsub t f e) s = lanes (two fsub))
      ∧ (runs 0x62 → exec (.vfmul t f e) s = lanes (two fmul)) ∧ (runs 0x64 → exec (.vfmax t f e) s = lanes (two fmax))
      ∧ (runs 0x65 → exec (.vfmin t f e) s = lanes (two fmin))
      ∧ (Runs t f e { opc := 0x63, rd := 32, ra := 32, rb := 32, rc := 32, imm := immLt 3 } true s →
        exec (.vfma t f e) s = lanes ((List.range 64).map (fun i =>
          fmaLane f.imm (a.getD i 0) (b.getD i 0) (c.getD i 0))))
      ∧ (Runs t f e { opc := 0x66, rd := 8, ra := 32, rb := 32, rc := 4 } true s →
        exec (.vfcmp t f e) s = write (laneFlags g (List.zipWith (fun x y => (0, fcmpFlags x y)) a b))
          (fun u => setPLanes u t f.rd g (List.zipWith (fcmp ([2, 3, 0, 1].getD f.rc 1)) a b)))
      ∧ (Runs t f e { opc := 0x67, rd := 32, ra := 32, imm := immLt 2 } true s →
        exec (.vfabs t f e) s = completes t (setV s1 t f.rd g (a.map (fun x => if f.imm = 0 then fabs f32 x
          else fabs bf16 (x % 2 ^ 16) + fabs bf16 (x / 2 ^ 16) * 2 ^ 16))))
      ∧ (runs1 0x68 → exec (.vexp2 t f e) s = lanes (a.map fexp2)) ∧ (runs1 0x69 → exec (.vlog2 t f e) s = lanes (a.map flog2))
      ∧ (runs1 0x6A → exec (.vrcp t f e) s = lanes (a.map frcp)) ∧ (runs1 0x6B → exec (.vrsq t f e) s = lanes (a.map frsq))
      ∧ (Runs t f e { opc := 0x6C, rd := 32, ra := 32 } false s →
        let r := fred ((List.range 64).map (fun i => if bitN g i then a.getD i 0 else 0))
        exec (.vfred t f e) s = write r.2 (fun u => setS u t f.rd r.1))

/-- Exact accumulators (spec/04 R120, spec/08 R232, R233): additions are exact with the class rules, a read-out rounds
once, and images move 3,072 bytes aligned to 64; XLD and XACC refuse an invalid image with 0x0311 and change nothing else. -/
def Obligations.ExactAccumulators : Prop :=
  ∀ (t : Nat) (f : WFields) (e : WEnv) (s : State),
    let s1 := spendCycles s t e
    let g := guardOf s t f
    let a := effAddr s t f.ra f
    let b := effAddr s t f.rb f
    let image := tsRead s t a 3072
    let fits := fun x : Nat => x + 3072 ≤ 2 ^ 19 ∧ x % 64 = 0
    let quiet := fun fl : Nat => fl &&& (core s t).fpctl % 32 = 0
    let flags := fun rs : List (XLane × Nat) => rs.foldl (fun fl r => fl ||| r.2) 0
    (Runs t f e { opc := 0x80, rd := 4 } false s → exec (.xclr t f e) s = completes t (setX s1 t f.rd (List.replicate 64 ⟨0, 0⟩)))
      ∧ (Runs t f e { opc := 0x81, rd := 4, ra := 32 } true s →
        let rs := (List.range 64).map (fun i =>
          let x := (getX s t f.rd).getD i {}
          if bitN g i then xAddLane x (xOfF32 ((getV s t f.ra).getD i 0)) else (x, 0))
        quiet (flags rs) →
        exec (.xadd t f e) s = completes t (setX (weftFlags s1 t (flags rs)) t f.rd (rs.map (·.1))))
      ∧ (Runs t f e { opc := 0x82, rd := 32, ra := 4 } true s →
        let rs := (getX s t f.ra).map xRead
        quiet (laneFlags g rs) →
        exec (.xrd t f e) s = completes t (setV (weftFlags s1 t (laneFlags g rs)) t f.rd g (rs.map (·.1))))
      ∧ (Runs t f e { opc := 0x83, rd := 32, ra := 4 } false s →
        let r := xSum (getX s t f.ra)
        quiet r.2 → exec (.xsum t f e) s = completes t (setS (weftFlags s1 t r.2) t f.rd r.1))
      ∧ (Runs t f e { opc := 0x84, ra := 4, rb := 32, imm := immAny } false s → fits b →
        (getX s t f.ra).all (fun l => l.cls == 0) = true →
        exec (.xst t f e) s = completes t (tsWrite s1 t b (exactImage (getX s t f.ra) [])))
      ∧ (fits a → hitsBad e.bad a 3072 = false →
        let trap : Host.Outcome State Fault Refusal := .next (takeTrap s1 t { cause := 0x0311, unit := 4, addr := a })
        let ls := (List.range 64).map (imageLane image)
        let rs := List.zipWith xAddLane (getX s t f.rd) ls
        (Runs t f e { opc := 0x85, rd := 4, ra := 32, imm := immAny } false s →
            exec (.xld t f e) s = if imageOk image then completes t (setX s1 t f.rd ls) else trap)
          ∧ (Runs t f e { opc := 0x86, rd := 4, ra := 32, imm := immAny } false s →
            (imageOk image = false → exec (.xacc t f e) s = trap)
              ∧ (imageOk image = true → quiet (flags rs) →
                exec (.xacc t f e) s = completes t (setX (weftFlags s1 t (flags rs)) t f.rd (rs.map (·.1))))))

/-- An exact image of FINITE lanes that fit in 320 bits reads back lane by lane and is valid (spec/08 R233). -/
def Obligations.ExactImageRoundTrip : Prop :=
  ∀ ls : List XLane, ls.length = 64 → (∀ l ∈ ls, l.cls = 0 ∧ -(2 ^ 319 : Int) ≤ l.value ∧ l.value < 2 ^ 319) →
    (exactImage ls []).length = 3072 ∧ imageOk (exactImage ls []) = true
      ∧ (List.range 64).map (imageLane (exactImage ls [])) = ls

/-- Macro instructions of a weft core (spec/08 R230, R234-R236, spec/05 R142): pages, selections, integer steps and banks;
an MXS that breaks R97 traps 0x0323, and an MXR with a bad descriptor traps 0x0312 before its step issues. VQNT in integer
mode packs the codes of COUNT values to DST with RLCNT 0; a non-finite element traps 0x032A and nothing is written. -/
def Obligations.MacrosAndTensors : Prop :=
  (∀ (t : Nat) (f : WFields) (e : WEnv) (s : State),
    let s1 := spendCycles s t e
    let g := guardOf s t f
    let x := getS s t f.ra
    let a := effAddr s t f.ra f
    let lane := fun i : Nat => 64 * (f.imm / 4 % 2) + i
    let trap := fun y : Trap => (.next (takeTrap s1 t y) : Host.Outcome State Fault Refusal)
    (Runs t f e { opc := 0x90, ra := 32, imm := immLt 256 } false s → x + 3072 ≤ 2 ^ 19 →
        exec (.mxw t f e) s = completes t (if hitsBad e.bad x 3072 then spoilPage s1 t (f.imm % 16) (f.imm / 16 % 8)
          else writePage s1 t (f.imm % 16) (f.imm / 16 % 8) (bitN f.imm 7) (rowsOf (tsRead s t x 3072))))
      ∧ (Runs t f e { opc := 0x91, ra := 32, imm := fun v => decide (v < 512) && !bitN v 7 && v / 16 % 4 == 0 } false s →
        x + 12288 ≤ 2 ^ 19 → hitsBad e.bad x 12288 = false →
        let r := writeF8Set s1 t (f.imm % 16) (f.imm / 16 % 8) (if bitN f.imm 8 then e5m2 else e4m3) (tsRead s t x 12288)
        let u := countUp r.1 (rTileUflowCnt t) r.2.1
        exec (.mxwf8 t f e) s = completes t (if r.2.2 then setRegBit u (rTileArith t) 10 true else u))
      ∧ (Runs t f e { opc := 0x92, imm := immLt (2 ^ 21) } false s →
        let base := f.imm / 2 ^ 16 % 8
        let fmt := f.imm / 2 ^ 19 % 4
        ((∀ m < 16, bitN f.imm m = true → setLayoutOk s t m base fmt = true) →
            ∃ u, exec (.mxs t f e) s = completes t u
              ∧ (Canonical s → t < 256 → ∀ m < 16, selection u t m = if bitN f.imm m then some (base, fmt) else selection s t m)
              ∧ u.tile = s1.tile ∧ u.ts = s.ts)
          ∧ (∀ m < 16, bitN f.imm m = true → setLayoutOk s t m base fmt = false →
            (∀ k < m, bitN f.imm k = true → setLayoutOk s t k base fmt = true) →
            exec (.mxs t f e) s =
              .next (takeTrap (setRegBit s1 (rTileArith t) 11 true) t { cause := 0x0323, unit := 5, sub := m })))
      ∧ (Runs t f e { opc := 0x93, ra := 32, imm := immAny } false s → a + 32 ≤ 2 ^ 19 →
        let bytes := tsRead s t a 32
        let d := stepDesc bytes
        let sets := (stepMacros d).map (fun m => (m, (selection s t m).getD (0, 0)))
        let o := intStep s1 t d sets [] e.ups
        let r := applyStep o.st t o.work
        ((∀ y ∈ stepReads d, y.1 + y.2 ≤ 2 ^ 19) → stepDescOk false bytes = false →
            exec (.mxr t f e) s = trap { cause := 0x0312, unit := 5, addr := a })
          ∧ (stepTrap s1 t a bytes = none → hitsBad e.bad a 32 = false →
            (∀ y ∈ stepReads d, hitsBad e.bad y.1 y.2 = false) → d.block = false → o.nonfinite = none → o.mism = [] →
            exec (.mxr t f e) s = completes t (jobSat r.1 t r.2)))
      ∧ (Runs t f e { opc := 0x94, imm := immLt 4 } false s → exec (.mxc t f e) s = completes t (clearBank s1 t f.imm))
      ∧ (Runs t f e { opc := 0x95, rd := 32, imm := immLt 8 } true s → exec (.accrd t f e) s =
        completes t (setV s1 t f.rd g ((List.range 64).map (fun i => (accLane s t (f.imm % 4) (lane i)).toNat))))
      ∧ (Runs t f e { opc := 0x96, rd := 8, imm := immLt 8 } true s → exec (.accsat t f e) s =
        completes t (setPLanes s1 t f.rd g ((List.range 64).map (fun i => satBit s t (f.imm % 4) (lane i)))))
      ∧ (Runs t f e { opc := 0x97, ra := 32, imm := immLt 8 } true s → exec (.accwr t f e) s =
        completes t ((List.range 64).foldl (fun u i => if bitN g i then
          setLaneSat u t (f.imm % 4) (lane i) (BitVec.ofNat 32 ((getV s t f.ra).getD i 0)) false else u) s1)))
    ∧ (∀ (t : Nat) (f : WFields) (e : WEnv) (s : State), Runs t f e { opc := 0x78, ra := 32, imm := immAny } false s →
    let s1 := spendCycles s t e
    let a := effAddr s t f.ra f
    let bytes := tsRead s t a 32
    let d := qDesc bytes
    let r := scaleRec (tsRead s t d.tsr 96)
    let ys := unpackElems 32 d.count (tsRead s t d.src (4 * d.count))
    let bits := qBits r.fmt
    let q := quantInt r.fmt r.outer d.zp ys
    a + 32 ≤ 2 ^ 19 → vqRange s t d = none → a % 32 = 0 → qDescOk bytes = true →
    vqRecordOk (tsRead s t d.tsr 96) d = true → d.block = false →
    hitsBad e.bad a 32 = false → hitsBad e.bad d.tsr 96 = false → hitsBad e.bad d.src (4 * d.count) = false →
    exec (.vqnt t f e) s =
      if anyNonfinite ys then .next (takeTrap s1 t { cause := 0x032A, unit := 10, addr := a })
      else completes t (tsWrite (countUp (tsWrite s1 t d.dst (packElems bits (q.1.map (encI bits)))) (rTileUflowCnt t) q.2)
        t (a + 22) (leBytes 2 0)))

/-- Shuttle and sync instructions (spec/08 R237-R241): SHQ issues a ticket, SHW and SHT report one, a send uses a credit
and a receive takes the oldest entry, CHREL returns its credit, CHPOLL looks, ENERGY lowers the class at once and traps
0x030B above the job's. A wait for a credit, an entry, a shuttle queue entry or a ticket traps 0x0309 at its bound when
WAITTMO is not 0; the wait of a step for a block's pair traps 0x0328 with what it expected and saw (spec/05 R136). -/
def Obligations.ShuttleAndSync : Prop :=
  (∀ (t : Nat) (f : WFields) (e : WEnv) (s : State),
    let s1 := spendCycles s t e
    let k := core s1 t
    let x := getS s t f.ra
    let a := effAddr s t f.ra f
    let c := f.imm % 256
    (Runs t f e { opc := 0xA0, rd := 32, ra := 32, imm := immAny } false s → a + 32 ≤ 2 ^ 19 →
        hitsBad e.bad a 32 = false → (openTickets s t).length < 16 →
        exec (.shq t f e) s = completes t (setS (newTicket s1 t (a % 32 == 0) (tsRead s t a 32)) t f.rd k.nextTicket))
      ∧ (Runs t f e { opc := 0xA1, rd := 32, ra := 32, imm := immLt 2 } false s →
        ∀ y st, ticket s t x = some y → y.status = some st →
          exec (.shw t f e) s = if st = 0 ∨ f.imm = 1 then completes t (setS s1 t f.rd st)
            else .next (takeTrap s1 t { cause := 0x030A, unit := 6, addr := x % 2 ^ 32, obs := st }))
      ∧ (Runs t f e { opc := 0xA2, rd := 8, ra := 32 } false s →
        (∀ y, ticket s t x = some y →
            exec (.sht t f e) s = completes t (setP s1 t f.rd (if y.status.isSome then 2 ^ 64 - 1 else 0)))
          ∧ (ticket s t x = none → exec (.sht t f e) s = completes t (setP s1 t f.rd (2 ^ 64 - 1))))
      ∧ (Runs t f e { opc := 0xB0, ra := 32, imm := immLt 256 } false s → k.held = [] → notNext s1 t c false = none →
        ∀ d, chanDecl s k.prog c = some d → d.ring = false → 0 < (chanSt s d.prog d.chan).credits →
        let n := Config.entryBytes k.prog c
        x + n ≤ 2 ^ 19 → hitsBad e.bad x n = false →
        exec (.chsend t f e) s = completes t (seqAdvance (sendToken (takeCredit (injectWrites s1 t d.dst
          (entryAddr d (d.init + (chanSt s d.prog d.chan).sent)) (tsRead s t x n) none) d) t d) t))
      ∧ (Runs t f e { opc := 0xB1, rd := 32, imm := immLt 256 } false s → k.held = [] → notNext s1 t c true = none →
        ∀ d, chanDecl s k.prog c = some d → d.ring = false → 0 < (chanSt s d.prog d.chan).waiting →
        let y := chanSt s d.prog d.chan
        let u := seqAdvance (setS (setChanSt s1 d.prog d.chan { y with waiting := y.waiting - 1, recvd := y.recvd + 1 }) t f.rd
          (entryAddr d y.recvd)) t
        exec (.chrecv t f e) s = completes t (setCore u t { core u t with held := [c] }))
      ∧ (Runs t f e { opc := 0xB2, imm := immLt 256 } false s → k.held = [c] → ∀ d, chanDecl s k.prog c = some d →
        let u := returnCredit s1 t d
        exec (.chrel t f e) s = completes t (setCore u t { core u t with held := (core u t).held.erase c }))
      ∧ (Runs t f e { opc := 0xB3, rd := 8, imm := immLt 256 } false s → k.held = [] →
        exec (.chpoll t f e) s =
          completes t (setP s1 t f.rd (if 0 < (chanSt s k.prog c).waiting then 2 ^ 64 - 1 else 0)))
      ∧ (Runs t f e { opc := 0xC0, imm := immLt 16 } false s →
        (k.eclassMax < f.imm → exec (.energy t f e) s = .next (takeTrap s1 t { cause := 0x030B, unit := 8 }))
          ∧ (f.imm ≤ k.eclassMax → f.imm ≤ k.eclass →
            let u := regrant s1 t k.eclass f.imm
            exec (.energy t f e) s = completes t (setCore u t { core u t with eclass := f.imm }))
          ∧ (f.imm ≤ k.eclassMax → k.eclass < f.imm → exec (.energy t f e) s =
            .next (waitCycle (setCore (setCore s1 t { k with raiseTo := some f.imm }) t
              { core (setCore s1 t { k with raiseTo := some f.imm }) t with waiting := some ⟨5, 0, 0, 0⟩ }) t 14))))
    ∧ (∀ (t : Nat) (s : State) (w : WaitOn), t < tileCount s → (core s t).waiting = some w → coreIssues s t = true →
    (w.kind ≤ 3 → (core s t).waittmo ≠ 0 → waitMet s t w = false → exec (.waitTimeout t) s =
        .next (takeTrap s t { cause := 0x0309, unit := if w.kind ≤ 1 then 7 else 6, detail := w.kind, addr := w.addr }))
      ∧ (w.kind ≤ 3 → ((core s t).waittmo = 0 ∨ waitMet s t w = true) → exec (.waitTimeout t) s = .next s)
      ∧ (w.kind = 4 → (∀ obs, pairAtBound s t w.addr w.exp = some obs → exec (.scaleTagTimeout t) s =
          .next (takeTrap s t { cause := 0x0328, unit := 10, addr := w.addr, exp := w.exp, obs := obs }))
        ∧ (pairAtBound s t w.addr w.exp = none → exec (.scaleTagTimeout t) s = .next s)))

/-- A slot that the pick sequencer does not issue (spec/06 R152, R153) does nothing; one whose served frame is not a frame
of the run is idle (R156); one that is not enabled has no effect (R157), but that a SEND goes out with a payload of zeros. -/
def Obligations.SlotsThatDoNotIssue : Prop :=
  ∀ (w : WSlot) (s : State) (n m : Nat) (ups : List CellUpset) (a b d e g : Nat),
    let m1 := fun x : PickWord => x.mop == 1 && x.sd == n
    let m2 := fun x : PickWord => x.mop == 2 && x.bank == n
    let v := fun (o : Nat) (more : PickWord → Bool) (x : PickWord) => x.vop == o && x.vd == n && more x
    let any_ := fun _ : PickWord => true
    let half := fun x : PickWord => x.half == m
    let xs := fun (o : Nat) (more : PickWord → Bool) (x : PickWord) => x.xop == o && more x
    let mark := fun x : PickWord =>
      (x.cop == 2 && x.cops % 256 == n) || ((w.pickBad || w.fixed != 0) && x.cop == 0)
    let sco := fun x : PickWord => x.cop == 3 && x.cops == a * 2 ^ 14 + b * 2 ^ 11 + d * 2 ^ 8 + e * 2 ^ 4 + g
    let enableds : List (Nat × (PickWord → Bool) × Instr) := [(0, m1, .warpMxr w n ups), (0, m2, .warpMxc w n),
      (1, v 1 half, .req w n m), (1, v 2 any_, .qnt w n), (1, v 3 any_, .cvt w n), (1, v 4 any_, .warpAdd w n),
      (1, v 5 any_, .warpMul w n), (1, v 6 any_, .warpFma w n), (1, v 7 any_, .warpMax w n), (1, v 8 any_, .warpMin w n),
      (1, v 9 any_, .exp2 w n), (1, v 10 any_, .log2 w n), (1, v 11 any_, .rcp w n), (1, v 12 any_, .rsq w n),
      (1, v 13 any_, .red w n), (1, v 14 (fun x => x.pd == m), .pset w n m), (1, v 15 any_, .movv w n),
      (1, v 16 half, .bmov w n m), (2, xs 2 (fun x => x.addr == a && x.len == b && x.sk == d), .skpush w a b d),
      (2, xs 3 (fun x => x.addr == a && x.sk == b), .skpop w a b), (3, mark, .mark w n), (3, sco, .sco w a b d e g)]
    let send := xs 1 (fun x => x.addr == a && x.len == b && x.tag == d)
    let others : List (Nat × (PickWord → Bool) × Instr) := [(2, send, .send w a b d),
      (2, xs 4 (fun x => x.tag == a && x.sk == b), .sksend w a b)]
    w.tile < tileCount s →
      (∀ x ∈ enableds ++ others,
        ((∀ tp, periodStart s s.tb.tick = some tp → slotIssues s w x.1 tp x.2.1 = false) → exec x.2.2 s = .next s)
          ∧ (∀ tp, periodStart s s.tb.tick = some tp → slotIssues s w x.1 tp x.2.1 = true → servedFrame s tp w.lag = none →
            w.pickBad = false → w.fixed = 0 → exec x.2.2 s = .next (noteIssue s w.tile x.1)))
      ∧ (∀ x ∈ enableds, ∀ f tp, SlotIssues w x.1 w.lag x.2.1 s f tp → slotEnabled s w = false →
        exec x.2.2 s = .next (noteIssue s w.tile x.1))
      ∧ (∀ f tp, SlotIssues w 2 w.lag send s f tp → slotEnabled s w = false → exec (.send w a b d) s =
        .next (launchBurst (noteIssue s w.tile 2) w.tile (nowCycle s + 1) (d % 16) f (zeros (lenBytes b))))

/-- The vector operations of a warp tile on 64 FP32 lanes (spec/06 R160, R165, R166, spec/04 R115-R119): the operands are
read as the operation issues, the results stand at DST in element order after its latency; the flags are sticky in
TILE_ARITH, invalid and overflow marked on the served frame (R122). A descriptor that uses a reserved value does nothing
but mark the frame CONFIG (R552). -/
def Obligations.WarpVectorOperations : Prop :=
  ∀ (w : WSlot) (vd half : Nat) (s : State) (f tp : Nat), slotEnabled s w = true →
    let t := w.tile
    let v := slotStart s w 1 tp
    let site := warpSite s w 1 f tp
    let d := vecDesc s t vd []
    let at_ := fun a : Nat => unpackElems 32 64 (tsRead s t a 256)
    let put := fun (vop bits : Nat) (rs : List (Nat × Nat)) =>
      warpFlags (later v (vLatency (imageLt s) vop) site (.store d.dst (packElems bits (rs.map (·.1)))))
        site (rs.foldl (fun fl r => fl ||| r.2) 0)
    let lanes := fun (vop : Nat) (op : Nat → Nat → Nat → Nat × Nat) => put vop 32 ((List.range 64).map (fun i =>
      op ((at_ d.srca).getD i 0) ((at_ d.srcb).getD i 0) ((at_ d.dst).getD i 0)))
    let pairs := fun (op : Nat → Nat → Nat → Nat × Nat) (a b c : Nat) =>
      let lo := op (a % 2 ^ 16) (b % 2 ^ 16) (c % 2 ^ 16)
      let hi := op (a / 2 ^ 16) (b / 2 ^ 16) (c / 2 ^ 16)
      (lo.1 + hi.1 * 2 ^ 16, lo.2 ||| hi.2)
    let two := fun (vop : Nat) (op : FFmt → Nat → Nat → Nat × Nat) =>
      lanes vop (if bitN d.ctrl 4 then pairs (fun a b _ => op bf16 a b) else fun a b _ => op f32 a b)
    let three := [d.srca, d.srcb, d.dst]
    let move := [d.srca, d.dst]
    let rows : List (Nat × List Nat × Instr × State) := [
      (4, three, .warpAdd w vd, two 4 fadd), (5, three, .warpMul w vd, two 5 fmul),
      (6, three, .warpFma w vd, lanes 6 (if bitN d.ctrl 4 then pairs (ffma bf16 bf16) else ffma f32 f32)),
      (7, three, .warpMax w vd, two 7 fmax), (8, three, .warpMin w vd, two 8 fmin),
      (9, move, .exp2 w vd, put 9 32 ((at_ d.srca).map fexp2)), (10, move, .log2 w vd, put 10 32 ((at_ d.srca).map flog2)),
      (11, move, .rcp w vd, put 11 32 ((at_ d.srca).map frcp)), (12, move, .rsq w vd, put 12 32 ((at_ d.srca).map frsq)),
      (13, move, .red w vd, warpFlags (later v 6 site (.store d.dst (leBytes 4 (fred (at_ d.srca)).1))) site
        (fred (at_ d.srca)).2),
      (15, move, .movv w vd, later v 2 site (.store d.dst (tsRead s t d.srca 256))),
      (16, [d.dst], .bmov w vd half, later v 2 site (.store d.dst (packElems 32 ((List.range 64).map (fun i =>
        (accLane s t (d.ctrl / 2 ^ 9 % 4) (64 * (half % 2) + i)).toNat)))))]
    let issues := fun (vop : Nat) =>
      SlotIssues w 1 w.lag (fun x => x.vop == vop && x.vd == vd && (vop != 16 || x.half == half)) s f tp
    (∀ x ∈ rows, issues x.1 → exec x.2.2.1 s = .next
        (if vecDescOk d x.2.1 then x.2.2.2 else warpFault v site 0x0209 1 0 0 none none))
      ∧ (issues 3 →
        (∀ ws wd op, cvtPair (d.ctrl / 2 ^ 12 % 16) = some (ws, wd, op) → vecDescOk d move = true →
          exec (.cvt w vd) s = .next (put 3 wd ((unpackElems ws 64 (tsRead s t d.srca (8 * ws))).map op)))
        ∧ (cvtPair (d.ctrl / 2 ^ 12 % 16) = none ∨ vecDescOk d move = false →
          exec (.cvt w vd) s = .next (warpFault v site 0x0209 1 0 0 none none)))

/-- Steps, predicates and quantisation in a warp tile (spec/06 R157, R159, R160, R166, R552, spec/05 R132, R139-R143,
R148): an operation whose descriptor breaks its layout does nothing but mark the frame CONFIG; a step's result is in place
after the latency of its MXR, and a result lands in the REED cycle from which it can be used. An execution of one frame
goes on over its operations, two blocks each, up to the one with LAST. -/
def Obligations.WarpStepsAndQuantisation : Prop :=
  ∀ (w : WSlot) (n half : Nat) (ups : List CellUpset) (s : State) (f tp : Nat), slotEnabled s w = true →
    let t := w.tile
    let mi := fun (slot : Nat) (holds : PickWord → Bool) => SlotIssues w slot w.lag holds s f tp
    let vm := slotStart s w 0 tp
    let vv := slotStart s w 1 tp
    let m := warpSite s w 0 f tp
    let v := warpSite s w 1 f tp
    let bytes := tsRead s t (16 * regF s (rWtDescBase t) 14 0 + 32 * n) 32
    let sd := stepDesc bytes
    let d := vecDesc s t n []
    let ys := unpackElems 32 64 (tsRead s t d.srca 256)
    let sets := (stepMacros sd).map (fun x => (x, sd.base, sd.wfmt))
    let valid := sets.all (fun x => setLayoutOk s t x.1 sd.base sd.wfmt && setValid s t x.1 sd.base sd.wfmt)
    let r := scaleRec (tsRead s t d.tsr 96)
    let recOk := scaleRecOk false (tsRead s t d.tsr 96)
    let fits := fun more : List Nat => vecDescOk d (d.tsr :: more) && (decide (d.dst < tsSize) || r.block)
    let invalid := fun (z : State) (site : WarpSite) (unit : Nat) => warpFault z site 0x0209 unit 0 0 none none
    let held := fun c : PickWord => c.vop == 1 && c.vd == n && c.half == half
    let qnt := fun c : PickWord => c.vop == 2 && c.vd == n && true
    let bias := unpackElems 32 64 (tsRead s t d.srcb 256)
    let extra := if bitN d.ctrl 2 then [d.srcb] else []
    let rs := (List.range 64).map (fun i => requantLane (sget dFalse s.tile.bmode (4 * t + d.ctrl / 2 ^ 9 % 4)) d.factor
      (if bitN d.ctrl 2 then some (bias.getD i 0) else none) (d.ctrl % 4 == 1)
      (accLane s t (d.ctrl / 2 ^ 9 % 4) (64 * (half % 2) + i)).toNat)
    let hit := if bitN d.ctrl 5 then ys.all (fun x => fcmp (d.ctrl / 2 ^ 6 % 8) x d.factor)
      else ys.any (fun x => fcmp (d.ctrl / 2 ^ 6 % 8) x d.factor)
    (mi 0 (fun c => c.mop == 1 && c.sd == n) →
        ((stepDescOk true bytes = false ∨ valid = false) → exec (.warpMxr w n ups) s = .next (invalid vm m 0))
          ∧ (stepDescOk true bytes = true → valid = true → sd.block = false →
            exec (.warpMxr w n ups) s = .next (stepIssued (intStep vm t sd sets [] ups) sd m)))
      ∧ (mi 0 (fun c => c.mop == 2 && c.bank == n) → exec (.warpMxc w n) s = .next (later vm 1 m (.clear n)))
      ∧ (mi 1 qnt → fits [d.srca] = false → exec (.qnt w n) s = .next (invalid vv v 1))
      ∧ (mi 1 qnt → fits [d.srca] = true → recOk = false →
        exec (.qnt w n) s = .next (warpFault vv v 0x022B 1 0 0 none none))
      ∧ (mi 1 qnt → fits [d.srca] = true → recOk = true → r.block = false →
        let q := quantInt r.fmt r.outer r.zp ys
        let z := warpFlags (countUp (later vv (lt21 (imageLt s)) v (.store d.dst
          (packElems (qBits r.fmt) (q.1.map (encI (qBits r.fmt)))))) (rTileUflowCnt t) q.2) v (nonfiniteFlags ys)
        exec (.qnt w n) s = .next (if anyNonfinite ys then warpFault z v 0x022A 1 0 0 none none else z))
      ∧ (Canonical s → mi 1 qnt → fits [d.srca] = true → recOk = true → r.block = true →
        let n0 := match quantExec s t d.tsr with | some x => if x.frame = f then x.next else 0 | none => 0
        ∃ u, exec (.qnt w n) s = .next u
          ∧ (quantExec u t d.tsr).map (fun x => (x.frame, x.next)) = if bitN d.ctrl 3 then none else some (f, n0 + 2))
      ∧ (mi 1 held → (1 < d.ctrl % 4 ∨ fits extra = false) → exec (.req w n half) s = .next (invalid vv v 1))
      ∧ (mi 1 held → d.ctrl % 4 ≤ 1 → fits extra = true → recOk = true → exec (.req w n half) s =
          .next (warpQuant (warpFlags vv v (rs.foldl (fun fl r => fl ||| r.2) 0)) 1 v d (rs.map (·.1)) []))
      ∧ (mi 1 (fun c => c.vop == 14 && c.vd == n && c.pd == half) → 0 < half → d.ctrl / 2 ^ 6 % 8 ≤ 3 →
        vecDescOk d [d.srca] = true → exec (.pset w n half) s = .next (later
          (warpFlags vv v (ys.foldl (fun fl x => fl ||| fcmpFlags x d.factor) 0)) (lt21 (imageLt s)) v (.pred half hit)))
      ∧ (∀ (k due : Nat) (b : Bool), 0 < k → k < 8 → Canonical s →
        warpPred (landOne s ⟨due, v, .pred k b⟩) t k = b
          ∧ ∀ j < 8, j ≠ k → warpPred (landOne s ⟨due, v, .pred k b⟩) t j = warpPred s t j)
      ∧ (∀ x, s.warp.flights = [x] → (nowCycle s < x.due → landDue s = s)
        ∧ (x.due ≤ nowCycle s → landDue s = landOne { s with warp := { s.warp with flights := [] } } x))

/-- The X and C slot operations of a warp tile (spec/06 R161, R162, R166, R169, R174-R176): SEND launches a burst in the
next REED cycle, a push waits for the pops of its cycle and appends to a skein that is not full, SKPOP and SKSEND take the
head that carries the served frame, HTK posts at most four tokens on a port, MARK ORs into the user mark, SCO writes
scores. -/
def Obligations.WarpTransfers : Prop :=
  ∀ (w : WSlot) (s : State) (f tp : Nat), Canonical s →
    let t := w.tile
    let mi := fun (slot : Nat) (holds : PickWord → Bool) => SlotIssues w slot w.lag holds s f tp
    let v := slotStart s w 2 tp
    let vc := slotStart s w 3 tp
    let site := warpSite s w 2 f tp
    let csite := warpSite s w 3 f tp
    (∀ addr len tag, mi 2 (fun c => c.xop == 1 && (c.addr == addr && c.len == len && c.tag == tag)) → slotEnabled s w = true →
        exec (.send w addr len tag) s =
          .next (launchBurst v t (nowCycle s + 1) tag f (tsRead s t (16 * addr) (lenBytes len))))
      ∧ (∀ addr len sk, mi 2 (fun c => c.xop == 2 && (c.addr == addr && c.len == len && c.sk == sk)) →
        slotEnabled s w = true →
        exec (.skpush w addr len sk) s =
          .next (sendLater v (nowCycle s + 1) site (.push sk (tsRead s t (16 * addr) (lenBytes len)))))
      ∧ (∀ sk bs, sk < 8 → w.tile < 256 → (skein s t sk).frames.length < skeinDepth s t sk →
        let u := skeinPush s site sk bs
        (skein u t sk).frames = (skein s t sk).frames ++ [f]
          ∧ (skein u t sk).maxFill = max (skein s t sk).maxFill ((skein s t sk).frames.length + 1)
          ∧ ∀ k < 8, k ≠ sk → skein u t k = skein s t k)
      ∧ (∀ addr sk tag fs, (skein s t sk).frames = f :: fs →
        let y := skein s t sk
        let z := setSkein v t sk { y with head := (y.head + 1) % max 1 (skeinDepth s t sk), frames := fs }
        let bs := tsRead s t (skeinAddr s t sk y.head) (skeinWidth s t sk)
        (mi 2 (fun c => c.xop == 3 && (c.addr == addr && c.sk == sk)) → slotEnabled s w = true →
          exec (.skpop w addr sk) s = .next (later z 1 site (.store (16 * addr) bs)))
          ∧ (mi 2 (fun c => c.xop == 4 && (c.tag == tag && c.sk == sk)) → exec (.sksend w tag sk) s =
            .next (launchBurst z t (nowCycle s + 1) tag f (if slotEnabled s w then bs else zeros bs.length))))
      ∧ (∀ umask, mi 3 (fun c => c.cop == 2 && c.cops % 256 == umask) → slotEnabled s w = true →
        let fm := { frameMark s f with umark := (frameMark s f).umark ||| umask }
        exec (.mark w umask) s = .next { vc with marks := sset dMark f fm s.marks })
      ∧ (∀ bank lg cnt stream sc, bank < 4 → lg < 8 → cnt < 8 → stream < 16 → sc + cnt < 16 →
        mi 3 (fun c => c.cop == 3 && c.cops == bank * 2 ^ 14 + lg * 2 ^ 11 + cnt * 2 ^ 8 + stream * 2 ^ 4 + sc) →
        slotEnabled s w = true →
        exec (.sco w bank lg cnt stream sc) s = .next { vc with warp := { vc.warp with
          flights := vc.warp.flights ++ (List.range (cnt + 1)).map (fun k =>
            ⟨nowCycle s + 4, csite, .score (16 * stream + sc + k) ⟨(accLane s t bank (16 * lg + k)).toNat, some f⟩⟩) } })
      ∧ (∀ port route tag cnt slack, port < 4 → route < 15 → tag < 16 → cnt < 4 → slack < 16 →
        SlotIssues w 3 (regF s (rWtRoute t port route) 23 16)
          (fun c => c.cop == 1 && c.cops == port * 2 ^ 14 + route * 2 ^ 10 + tag * 2 ^ 6 + cnt * 2 ^ 4 + slack) s f tp →
        ((tokens s t port).length < 4 → exec (.htk w port route tag cnt slack) s = .next (setTokens vc t port
            (tokens s t port ++ [⟨route, tag, cnt + 1, slack, nowCycle s + 1, [], csite.word, f⟩])))
          ∧ (4 ≤ (tokens s t port).length → exec (.htk w port route tag cnt slack) s =
            .next (warpFault vc csite 0x0203 4 port route none none)))

/-- Bursts that arrive (spec/06 R166, R168-R173, R185, spec/07 R188, R192, R208, R210): in a run a matching token steers
the data to its route's place, tile store or a skein, where the slots of a declared ring that it begins become VALID with
the tag of the burst (log entry 85); an expired token leaves its port; a warp flit follows the slot table entries of its
router, is discarded with 0x0403 without one, or with 0x0401 when it is uncorrectable. A release drops the oldest records
of a fault ring (R180), and a clear puts every WT_SLACK of the tile back to its reset value (spec/18 R512). -/
def Obligations.BurstsAndRings : Prop :=
  (∀ (s : State) (t p phase base : Nat), Canonical s → t < tileCount s → p < 4 → periodSite s = some (phase, base) →
    let come := fun a : Nat × Nat × Flit => a.1 == t && a.2.1 == p && decide (a.2.2.cyc ≤ nowCycle s)
    (∀ (fl : Flit) (i : Nat) (x : Token) (k : Nat), runActive s = true → s.rd.arrived.find? come = some (t, p, fl) →
        (tokens s t p).findIdx? (fun x => x.active ≤ fl.cyc && fl.cyc ≤ x.active + x.slack && (tagPlace x fl.tag).isSome) = some i →
        (tokens s t p)[i]? = some x → tagPlace x fl.tag = some k →
        let r := rWtRoute t p x.route
        fl.payload.length = lenBytes (regF s r 25 24) →
        let site : WarpSite := ⟨t, fl.frame, 0, 0, phase, (fl.cyc - base) / 2⟩
        let s1 := { s with rd := { s.rd with arrived := s.rd.arrived.erase (t, p, fl) } }
        let a := 16 * regF s r 14 0 + k * lenBytes (regF s r 25 24)
        let x' := { x with done := if x.done.contains k then x.done else k :: x.done }
        let ends := fun z : State => setTokens (noteSlack z t p x fl.cyc) t p
          (if x'.done.length = x.cnt then (tokens s t p).eraseIdx i else (tokens s t p).set i x')
        (regF s r 30 29 = 0 → exec (.burstArrival t p) s = .next (ends (sendLater s1 (fl.cyc + lt21 (imageLt s)) site
          (.burst a (some fl.tag) fl.payload))))
        ∧ (regF s r 30 29 = 1 → exec (.burstArrival t p) s = .next (ends (sendLater s1 (fl.cyc + 1) site
          (.push (regF s r 28 26) fl.payload)))))
      ∧ (∀ (b g : Nat) (bs : List Byte),
        let u := landBurst s t (16 * b) (some g) bs
        u.ts = (tsWrite s t (16 * b) bs).ts ∧ (ringSteps s t = [] → u.tile = s.tile)
        ∧ ∀ d ∈ ringSteps s t, ∀ n < d.ringlen, 16 * b ≤ blockSlot d.ring d.ringlen n →
          blockSlot d.ring d.ringlen n + 2 ≤ 16 * b + bs.length → blockSlot d.ring d.ringlen n < tsSize →
          side u t (blockSlot d.ring d.ringlen n) = ⟨true, g % 16⟩)
      ∧ (s.rd.arrived.find? come = none ∨ runActive s = false → exec (.burstArrival t p) s = .next s)
      ∧ (∀ i x, (tokens s t p)[i]? = some x → runActive s = true → x.active + x.slack < nowCycle s →
        ∃ u, exec (.tokenExpired t p i) s = .next u
          ∧ tokens u t p = (tokens s t p).eraseIdx i ∧ ∀ q < 4, q ≠ p → tokens u t q = tokens s t q)
      ∧ (∀ (r : Nat) (fl : Flit), r < 257 → runActive s = true → regBit s rRdStatus 16 = true →
        s.rd.flits.find? (fun f => f.router == r && decide (f.cyc ≤ nowCycle s)) = some fl →
        let s1 := { s with rd := { s.rd with flits := s.rd.flits.erase fl } }
        let es := (routerEntries s r).filter (fun e => entryTakes r e phase (fl.cyc - base) fl.port fl.sub)
        (es ≠ [] → (∀ e ∈ es, burstFlits fl ≤ fld e 25 23 + 1) →
          exec (.warpFlitArrival r 0) s = .next (es.foldl (fun u e => followEntry u fl e) s1))
          ∧ (es = [] → fl.payload ≠ [] → exec (.warpFlitArrival r 0) s =
            .next (raise (dropped s1 (burstFlits fl)) 0x0403 r 0))
          ∧ exec (.warpFlitArrival r 2) s = .next (raise (countUpF s1 rRdEccCnt 31 16 1) 0x0401 r 0)))
    ∧ (∀ (s : State) (t n : Nat), Canonical s → t < tileCount s → released s 2 = true →
    (n < (faultRing s t).length → ∃ u, exec (.faultRingRelease t n) s = .next u
        ∧ faultRing u t = (faultRing s t).drop n ∧ (∀ v, v ≠ t → faultRing u v = faultRing s v)
        ∧ u.ts = s.ts ∧ u.regs = s.regs)
      ∧ (planeOf s t = 1 → ∃ u, exec (.wtSlackClr t) s = .next u
        ∧ (∀ p < 4, ∀ r < 15, reg u (rWtSlack t p r) = 0xFFFF#32)
        ∧ u.ts = s.ts ∧ u.tile = s.tile))

/-- The Kwengo line code loses nothing (spec/03 R70, R72, R74): a receiver whose descrambler holds the transmitter's state
reads the plain bits back and ends in the same state; it takes exactly the stuffed line bits of the coded bits from the
line and leaves the rest; and no line ever holds 41 equal bits in a row. -/
def Obligations.LineCodeRoundTrip : Prop :=
  (∀ (st : Nat) (l : List Bool), descramble st (scramble st l).1 = (l, (scramble st l).2))
    ∧ (∀ (l rest : List Bool), l ≠ [] →
      destuff l.length (stuff l ++ rest) = some (l, (stuff l).getLast?.getD false, rest))
    ∧ (∀ (l : List Bool) (b : Bool), ¬ (List.replicate 41 b <:+: stuff l))
    ∧ (∀ (n : Nat) (prev : Bool), fillRegular prev (fillBits n prev) = true ∧ (fillBits n prev).length = n)

/-- A stream lane (spec/03 R64, R69-R77, R87): clock recovery leads to header search; a lane that goes down in a run is
DOWN with its cause counted, one that loses clock recovery outside a run returns to clock recovery; outside a run a bolt
that reads whole counts its corrections, and the 64th header in a row locks the lane. In a run, on an aligned lane, a bolt
that reads whole within 8 UI of its place enters the elastic buffer under its frame and slot. Other lanes keep their state. -/
def Obligations.StreamLanes : Prop :=
  (∀ (i : Nat) (s : State), Canonical s → i < laneCount s →
    (laneEn s i = true → s.bm.dead.contains (i / 16) = false → laneRate s i ≠ 0 → (laneState s i ≤ 1 ∨ laneState s i = 5) →
      ∃ u, exec (.clockRecoveryLock i) s = .next u ∧ laneState u i = 2 ∧ u.bm = s.bm
        ∧ ∀ k, k ≠ i → laneState u k = laneState s k)
      ∧ ((2 ≤ laneState s i ∧ laneState s i ≤ 4) → ∃ u, exec (.laneDown i) s = .next u
        ∧ laneState u i = (if runActive s then 5 else 1) ∧ regBit u (rBmLaneStatus i) 4 = false
        ∧ (runActive s = true → Counted s u (rBmLaneViol i) 1)
        ∧ (bmLane u i).found = 0 ∧ (bmLane u i).missed = 0
        ∧ ∀ k < 96, k ≠ i → laneState u k = laneState s k ∧ bmLane u k = bmLane s k)
      ∧ (∀ (tick j pos : Nat) (bits : List Bool), laneEn s i = true → laneRate s i ≠ 0 → runActive s = false →
        (2 ≤ laneState s i ∧ laneState s i ≤ 4) →
        let r := boltReceive (streamLong s (laneStream s i)) (bmLane s i).descr
          (if regBit s (rBmLaneCfg i) 0 then bits.map (!·) else bits)
        r.lost = none → ∃ u, exec (.bolt i tick j pos bits) s = .next u
          ∧ (bmLane u i).descr = r.descr ∧ (bmLane u i).missed = 0 ∧ (bmLane u i).found = min 64 ((bmLane s i).found + 1)
          ∧ Counted s u (rBmLaneCorr i) (r.corr + r.hdr)
          ∧ (64 ≤ (bmLane s i).found + 1 → regBit u (rBmLaneStatus i) 4 = true
            ∧ laneState u i = (if laneState s i = 2 then 3 else laneState s i))
          ∧ u.bb = s.bb ∧ u.ts = s.ts))
    ∧ (∀ (i tick j pos : Nat) (bits : List Bool) (s : State), Canonical s → i < laneCount s → laneEn s i = true →
    laneRate s i ≠ 0 → runActive s = true → laneState s i = 4 → regBit s (rBmLaneDmeas i) 31 = true →
    uiApart pos (expectedPos s i tick j) ≤ 8 → j ≠ 0 →
    let r := boltReceive (streamLong s (laneStream s i)) (bmLane s i).descr
      (if regBit s (rBmLaneCfg i) 0 then bits.map (!·) else bits)
    r.lost = none → ∃ u, exec (.bolt i tick j pos bits) s = .next u
      ∧ (bmLane u i).bolts = (bmLane s i).bolts ++ [⟨tick, j, r.payload, none, (bmLane s i).dirty, r.corr⟩]
      ∧ (bmLane u i).lastHdr = some (tick, j, pos) ∧ (bmLane u i).dirty = none
      ∧ (r.fillOk = true → (reg u (rBmLaneViol i)) = reg s (rBmLaneViol i))
      ∧ (r.fillOk = false → Counted s u (rBmLaneViol i) 1)
      ∧ ∀ k, k ≠ i → bmLane u k = bmLane s k)

/-- A delivery pulse (spec/03 R80, R81, R83, R84, spec/07 R208, spec/12 R344): the frame enters the tile stores that the
delivery maps name, waits in Bobbin and for Treadle under its frame ID, and counts as delivered; a stream that failed the
run-start check delivers zeros as damaged, and an uncorrectable delivery unit damages the frame. A transmit slot (R75,
R88-R91): the bolt carries the next records of the stream on the lane of index 0, decisions before status, at most four in
all, no record is lost or repeated, and fill follows the last slot of a period. -/
def Obligations.DeliveryAndBackChannel : Prop :=
  (∀ (n : Nat) (flits : List UnitFlit) (s : State), Canonical s → n < 16 → runActive s = true → streamOn s n = true →
    let tick := tbSlot s + tbM s * (bmStream s n).delivered
    tick ≤ s.tb.tick → (∀ b, s.tb.stopAt = some b → tick < b) →
    let fs := (streamLanes s n).map (fun i => laneFrame s n i tick)
    let bs := fs.flatMap (fun l => l.bytes)
    let failed := (bmStream s n).cfgFailed
    ∃ u data fe, exec (.frameDelivery n flits) s = .next u
      ∧ data = (if failed then zeros (frameSize s n) else substitute s n bs)
      ∧ u.ts = (deliverToTiles s n data flits).ts
      ∧ u.bb.pend = s.bb.pend ++ [⟨n, tick, s.rd.now, padTo (ceilDiv data.length 64 * 64) data⟩]
      ∧ u.tr.undecided = s.tr.undecided ++
        [⟨n, tick, (bmStream s n).delivered, data, failed || bs.any (·.2) || fs.any (fun l => l.cause.isSome)
          || flits.any (fun f => f.words % 4 != 0), fe⟩]
      ∧ (bmStream u n).delivered = (bmStream s n).delivered + 1
      ∧ u.bb.mem = s.bb.mem ∧ u.weft = s.weft ∧ u.sched = s.sched)
    ∧ (∀ (i tick j : Nat) (s : State), Canonical s → i < laneCount s → laneEn s i = true →
    j < txSlots s (laneStream s i) (laneRate s i) →
    let n := laneStream s i
    let p := (slotPayload s n i tick j).1
    let bolt := (boltLine false (bmLane s i).scr p).1
    let gap := frameBudget s (laneRate s i) - 576 * (j + 1)
    let line := if j + 1 = txSlots s n (laneRate s i) then bolt ++ fillBits gap (bolt.getLast?.getD false) else bolt
    ∃ u, exec (.backChannelBolt i tick j) s = .next u
      ∧ p.length = 64
      ∧ (bmLane u i).txBits = (if regBit s (rBmLaneCfg i) 0 then line.map (!·) else line)
      ∧ (bmLane u i).scr = (boltLine false (bmLane s i).scr p).2
      ∧ (laneIndex s i ≠ 0 → bmStream u n = bmStream s n)
      ∧ (laneIndex s i = 0 → ∃ ds ss, (ds ++ (bmStream u n).decisionQ).Perm (bmStream s n).decisionQ
        ∧ (ss ++ (bmStream u n).statusQ).Perm (bmStream s n).statusQ
        ∧ ds.length + ss.length ≤ 4 ∧ (ss ≠ [] → (bmStream u n).decisionQ = [])
        ∧ (ds.length + ss.length < 4 → (bmStream u n).statusQ = [])
        ∧ p.drop 4 = padTo 60 ((ds.map decisionBytes ++ ss.map statusBytes).flatten))
      ∧ u.regs = s.regs)

/-- A committed frame of a capturing stream (spec/12 R345, R349-R352, R355, R356): a stopped stream that is not re-armed
loses it, counts it and keeps draining its virtual fill; one that would overflow its commit area, or a ring that may not be
overwritten, stops with an OVF record and keeps its value table; otherwise its records enter the ring in order and the
virtual fill grows by their size. A frame whose decision does not come within D + 2 frame periods and the C1 bound (R346,
spec/11 R327) is discarded with 0x0606 and gets a lost-frame record; a decision that comes later is ignored. In how many
REED cycles these frame periods and the bound pass is the model's choice (log entry 90). -/
def Obligations.CommitsAndMissingDecisions : Prop :=
  (∀ (n : Nat) (s : State) (p : Packet) (e : Pending), Canonical s → n < 16 →
    arriving s treadleNode (captureNode (streamDie s n)) 2 kCommit = some p → c1Stream p = n → p.rtag % 2 = 1 →
    (n, c1Frame p) ∉ s.bb.discarded →
    s.bb.pend.find? (fun q => q.stream == n && q.frame == c1Frame p) = some e → regBit s (rBbStCfg n) 31 = true →
    let f := c1Frame p
    let y := { s with rd := { s.rd with packets := s.rd.packets.erase p }, bb := { s.bb with pend := s.bb.pend.erase e } }
    let stopped := regBit s (rBbStStatus n) 30
    let rearm := regBit s (rBbStCtrl n) 0
    let v := if rearm then setRegBit (setRegBit y (rBbStCtrl n) 0 false) (rBbStStatus n) 30 false else y
    let c := (f - tbSlot s) / tbM s
    let fill := drainedFill s n c
    let recs := (frameRecords (setCap v n { capSt v n with cLast := c }) n f (p.rtag / 256 / 2 * 2 + 1) e.data
      (stopped && rearm)).1
    let size := (recs.map List.length).sum
    let g := bobbinRegion s n
    let wp' := recs.foldl (fun w r => w + ringNeed g.size w r.length) (capSt s n).wp
    (stopped = true → rearm = false → ∃ u, exec (.c1Commit n false 0) s = .next u
        ∧ Counted s u (rBbStLostcap n) 1 ∧ capSt u n = { capSt s n with cLast := c }
        ∧ regF u (rBbStStatus n) 23 0 = fill % 2 ^ 24 ∧ (∀ k < 16, k ≠ n → capSt u k = capSt s k)
        ∧ u.bb.pend = s.bb.pend.erase e ∧ (regBit s (rWfQCfg n) 30 = false → u.sched = s.sched))
      ∧ (∀ reason, (stopped = false ∨ rearm = true) →
        ((reason = 1 ∧ commitArea s n < fill + size + 16) ∨ (reason = 2 ∧ fill + size + 16 ≤ commitArea s n
          ∧ regBit s (rBbStCfg n) 30 = false ∧ g.size + reg64 s (rBbBobRptr n) < wp' + 16)) →
        ∃ u, exec (.c1Commit n false 0) s = .next u
          ∧ regBit u (rBbStStatus n) 30 = true ∧ regF u (rBbStStatus n) 29 28 = reason ∧ regBit u (rBbStStatus n) 31 = false
          ∧ (capSt u n).values = (capSt s n).values ∧ (capSt u n).prevTag = f * 256
          ∧ (capSt u n).unwritten.getLast?.map (·.bytes) = some (ovfRecord reason (f * 256))
          ∧ regF u (rBbStStatus n) 23 0 = fill % 2 ^ 24 ∧ Counted s u (rBbStOvf n) 1)
      ∧ ((stopped = false ∨ rearm = true) → fill + size + 16 ≤ commitArea s n →
        (regBit s (rBbStCfg n) 30 = true ∨ wp' + 16 ≤ g.size + reg64 s (rBbBobRptr n)) →
        ∃ u, exec (.c1Commit n false 0) s = .next u
          ∧ (capSt u n).wp = wp' ∧ (capSt u n).prevTag = f * 256
          ∧ (∀ r ∈ recs, ∃ w ∈ (capSt u n).unwritten, w.bytes = r)
          ∧ regF u (rBbStStatus n) 23 0 = (fill + size) % 2 ^ 24 ∧ regBit u (rBbStStatus n) 31 = true
          ∧ regBit u (rBbStCtrl n) 0 = false ∧ regBit u (rBbStStatus n) 30 = false
          ∧ Counted s u (rBbStCaptured n) 1 ∧ u.bb.mem = s.bb.mem))
    ∧ (∀ (n : Nat) (s : State), Canonical s → n < 16 →
    let here := captureNode (streamDie s n)
    (∀ e, s.bb.pend.find? (fun q => q.stream == n) = some e →
      (e.cyc + (decisionLatency s n + 2) * (2 * framePulses s) + 256 ≤ s.rd.now →
        ∃ u, exec (.decisionMissing n) s = .next u ∧ u.bb.pend = s.bb.pend.erase e
          ∧ u.bb.discarded = s.bb.discarded ++ [(n, e.frame)]
          ∧ u.rd.packets = s.rd.packets ++ [routed s (commitPacket here treadleNode n e.frame 0 true)]
          ∧ Raised u 0x0606 n ∧ u.bb.cap = s.bb.cap ∧ u.bb.mem = s.bb.mem)
      ∧ (s.rd.now < e.cyc + (decisionLatency s n + 2) * (2 * framePulses s) + 256 → exec (.decisionMissing n) s = .next s))
      ∧ (∀ p, arriving s here treadleNode 2 kCommit = some p → c1Stream p = n → streamDie s n < dieCount s →
        queuedAt s treadleNode kRecord < 256 →
        ∃ u r, exec (.c1Commit n true 0) s = .next u ∧ u.rd.packets = s.rd.packets.erase p ++ [r]
          ∧ (∀ f ∈ u.tr.undecided, ¬(f.stream = n ∧ f.tick = c1Frame p))
          ∧ r.kind = kRecord ∧ r.src = treadleNode ∧ r.dst = here ∧ r.vc = 2
          ∧ r.payload.length = 64 ∧ leAt r.payload 0 6 = c1Frame p % 2 ^ 48 ∧ leAt r.payload 6 1 = 32 + n
          ∧ leAt r.payload 12 2 = 0x0606 ∧ leAt r.payload 7 1 % 2 = 0 ∧ u.bb.mem = s.bb.mem)
      ∧ (∀ p, arriving s treadleNode here 2 kCommit = some p → c1Stream p = n → (n, c1Frame p) ∈ s.bb.discarded →
        exec (.c1Commit n false 0) s = .next { s with
          rd := { s.rd with packets := s.rd.packets.erase p }
          bb := { s.bb with discarded := s.bb.discarded.erase (n, c1Frame p) } }))

/-- Records come to stand in DDR4 (spec/12 R345, R346, R351, spec/11 R326, R327, spec/13 R373): a result record at its
address with TR_REC_PROD advanced, unless it is of an earlier run; capture bytes at their place in the ring with
BB_BOB_WPTR advanced over them; a link record in its ring with PV_PROD advanced, unless it is of an earlier run; every
other byte keeps its value. A record of a discarded frame, or after the loss of SYSCLK, is not written. That a record of an
earlier run does not count is the model's reading (log entry 77). -/
def Obligations.RecordsReachMemory : Prop :=
  ∀ (n : Nat) (s : State), Canonical s → n < 16 → s.tb.sysclkLost = false →
    let put := fun (u : State) (a : Nat) (bs : List Byte) => memBytes u a bs.length = bs
      ∧ ∀ b, (b < a ∨ a + bs.length ≤ b) → sget dByte u.bb.mem b = sget dByte s.bb.mem b
    (∀ p, arriving s treadleNode (captureNode (streamDie s n)) 2 kRecord = some p → c1Stream p = n →
      let w := { s with rd := { s.rd with packets := s.rd.packets.erase p } }
      (((n, c1Frame p) ∉ s.bb.discarded ∨ leAt p.payload 6 1 / 16 = 2) → p.poison = false →
        ∃ u, exec (.c1Record n 0) s = .next u ∧ put u (64 * p.addr + 2 ^ 38 * (p.rtag % 8)) p.payload
          ∧ (reg u (rTrRecProd n)).toNat = (if sget dNat s.tr.stale n = 0 then ((reg s (rTrRecProd n)).toNat + 1) % 2 ^ 32
              else (reg s (rTrRecProd n)).toNat)
          ∧ u.rd = w.rd
          ∧ (leAt p.payload 7 1 % 2 = 0 → u.bb.cap = s.bb.cap)
          ∧ (∀ e, s.bb.pend.find? (fun q => q.stream == n && q.frame == c1Frame p) = some e → u.bb.pend = s.bb.pend.erase e))
      ∧ ((n, c1Frame p) ∈ s.bb.discarded → leAt p.payload 6 1 / 16 ≠ 2 → exec (.c1Record n 0) s =
          .next { w with bb := { s.bb with discarded := s.bb.discarded.erase (n, c1Frame p) } })
      ∧ exec (.c1Record n 0) { s with tb := { s.tb with sysclkLost := true } } =
          .next { w with tb := { s.tb with sysclkLost := true } })
      ∧ (∀ w ws, (capSt s n).unwritten = w :: ws → ∃ u, exec (.bobbinWrite n) s = .next u
        ∧ put u ((bobbinRegion s n).base + w.offset) w.bytes ∧ reg64 u (rBbBobWptr n) = w.endCount % 2 ^ 64
        ∧ (capSt u n).unwritten = ws)
      ∧ (∀ l ls, (chain s n).links = l :: ls → (∀ p ∈ recordsOut s n, l.last < c1Frame p) →
        (∀ f ∈ s.tr.undecided, ¬(f.stream = n ∧ f.tick ≤ l.last)) → regBit s (rPvRingCfg n) 31 = true →
        ∃ u, exec (.linkRecord n) s = .next u
          ∧ put u (reg64 s (rPvRingBase n) + 128 * ((if (chain s n).stale = 0 then (reg s (rPvProd n)).toNat else leAt l.bytes 0 8)
              % 2 ^ regF s (rPvRingCfg n) 4 0)) l.bytes
          ∧ (reg u (rPvProd n)).toNat = (if (chain s n).stale = 0 then ((reg s (rPvProd n)).toNat + 1) % 2 ^ 32
              else (reg s (rPvProd n)).toNat)
          ∧ (chain u n).links = ls)

/-- The care of DDR4 (spec/12 R336-R341, R356): re-arming reaches a stopped stream alone; a region entry becomes valid
unless it breaks a rule, and BB_BOB_WPTR of a new CAPTURE region is 0; refresh and ZQ calibration change no data; a hot
module is refreshed twice as often and raises a cause above 95 degrees; patrol scrub leaves a sound line as it is and
counts one that it cannot correct; whatever single symbol of a sound line is wrong, the line reads as it was written and
the device is named. -/
def Obligations.MemoryCare : Prop :=
  (∀ (s : State), Canonical s →
    (∀ n < 16, released s 6 = true → ∃ u, exec (.rearm n) s = .next u
        ∧ (regBit s (rBbStStatus n) 30 = true → regBit u (rBbStCtrl n) 0 = true)
        ∧ (regBit s (rBbStStatus n) 30 = false → u = s) ∧ u.bb = s.bb)
      ∧ (∀ r kind stream, 0 < r → r < 32 → released s 6 = true → s.rwlLock = false →
        let g : Region := { region s r with valid := true, kind := kind % 8, stream := stream % 16 }
        ∃ u, exec (.regionValidWrite r kind stream) s = .next u
          ∧ region u r = { g with valid := !regionBroken s r g }
          ∧ (regionBroken s r g = true → ∃ l, u.ob.log.head? = some l ∧ l.cause = 0x0607)
          ∧ (regionBroken s r g = false → g.kind = 1 → (region s r).valid = false → reg64 u (rBbBobWptr g.stream) = 0)
          ∧ ∀ q < 32, q ≠ r → region u q = region s q)
      ∧ (∀ c k, c < chanCount s → regBit s rBbMemStatus c = true → ∃ u, exec (.refresh c k) s = .next u
        ∧ u.bb.refreshes = sset dNat (8 * c + k % 8) (sget dNat s.bb.refreshes (8 * c + k % 8) + 1) s.bb.refreshes
        ∧ u.bb.mem = s.bb.mem ∧ u.regs = s.regs)
      ∧ (∀ c, c < chanCount s → exec (.zqCalibration c) s = .next s)
      ∧ (∀ c t, c < chanCount s → regBit s rBbMemStatus c = true → ∃ u, exec (.dimmTempRead c t) s = .next u
        ∧ regF u (rBbChTemp c) 7 0 = min t 255 ∧ (tRefi u c = if 85 < t then 39 else 78)
        ∧ (95 < t → Raised u 0x060A c)
        ∧ (t ≤ 95 → u.ob = s.ob) ∧ u.bb = s.bb)
      ∧ (∀ c errs, c < chanCount s → regBit s rBbMemStatus c = true →
        let l := scrubDpa s c (sget dNat s.bb.scrubPos c) / 64
        let ch := match dpaChannel s (64 * l) with | some (k, _) => k | none => 0
        ∃ u, exec (.scrub c errs) s = .next u
          ∧ (errs = [] → lineBad s l = false → u.bb.mem = s.bb.mem ∧ u.regs = s.regs ∧ u.ob = s.ob)
          ∧ ((lineRead s l errs).bad = true → lineBad u l = true
            ∧ Counted s u (rBbChUe ch) 1 ∧ u.bb.mem = s.bb.mem)
          ∧ ((lineRead s l errs).bad = false → (lineRead s l errs).dev ≠ none →
            memBytes u (64 * l) 64 = (lineRead s l errs).bytes
            ∧ Counted s u (rBbChCe ch) 1)))
    ∧ (∀ (s : State) (l cw d b : Nat), lineBad s l = false → cw < 2 → d < 18 → b % 2 ^ 16 ≠ 0 →
    lineRead s l [⟨cw, d, b⟩] = ⟨memBytes s (64 * l) 64, some d, false⟩)

/-- An evaluation (spec/11 R302, R311-R322, R325): the oldest undecided frame takes one action from each machine, all read
from the same inputs; it is accepted when a machine fires, the gate is open, it is forced or due; its record of 64 bytes
goes into Reed for its place in the ring, and counters, gate and FORCE follow. Pins and timers (R307, R310, R316, R321,
R323): an edge that SEL selects in a run is kept unless it comes within 2 ns of the one before or finds its history full; a
timer at its last tick expires and halts; a pulse ends at the line's inactive level; FORCE waits for the next evaluation. -/
def Obligations.EvaluationsAndTriggers : Prop :=
  (∀ (n : Nat) (s : State) (f : UFrame), Canonical s → n < 16 → runActive s = true →
    s.tr.undecided.find? (fun x => x.stream == n) = some f →
    queuedAt s treadleNode kRecord < 256 → streamDie s n < dieCount s →
    let e := evalIn s f
    let acts := (List.range 8).map (takenAction s e)
    let took := fun b : Nat => acts.any (fun a => a.any (fun w => bitN w b))
    let gate := if took 6 then false else took 5 || e.gate
    let soft := regBit s (rTrForce n) 0
    let base := took 4 || gate || soft
    let flags := decisionFlags e (decide8 s e acts)
    ∃ u r, exec (.evaluation n) s = .next u
      ∧ u.tr.undecided = s.tr.undecided.erase f
      ∧ u.rd.packets = s.rd.packets ++ [r] ∧ r.src = treadleNode ∧ r.dst = captureNode (streamDie s n) ∧ r.vc = 2
      ∧ r.kind = kRecord ∧ r.payload.length = 64 ∧ 64 * r.addr + 2 ^ 38 * r.rtag = recAddr s n (issued s n) / 64 * 64 % 2 ^ 41
      ∧ leAt r.payload 0 6 = f.tick % 2 ^ 48 ∧ leAt r.payload 6 1 = n + 16 ∧ leAt r.payload 7 1 = flags
      ∧ bitN flags 0 = (base || e.due) ∧ bitN flags 1 = took 4 ∧ bitN flags 2 = (e.due && !base) ∧ bitN flags 3 = soft
      ∧ bitN flags 4 = gate ∧ bitN flags 5 = f.damaged
      ∧ leAt r.payload 12 2 = (frameMark s f.tick).mark % 2 ^ 16
      ∧ regBit u (rTrGate n) 0 = gate ∧ regBit u (rTrForce n) 0 = false
      ∧ Counted s u (rTrAcceptCnt n) (b2n (base || e.due))
      ∧ Counted s u (rTrForcedCnt n) (b2n (soft || (e.due && !base)))
      ∧ (∀ m < 8, machine u n m = (match acts.getD m none with
          | some a => applyAction s n m (f.tick + (evalPulse s n + 1) / tbN s) (machine s n m) a
          | none => machine s n m))
      ∧ (∀ k < 16, k ≠ n → ∀ m < 8, machine u k m = machine s k m)
      ∧ u.bb.pend = s.bb.pend ∧ u.bb.mem = s.bb.mem ∧ u.ts = s.ts)
    ∧ (∀ (i : Nat) (s : State), Canonical s → i < 16 →
    (∀ (rising : Bool) (tag : Nat),
      ((runActive s = false ∨ bitN (regF s (rTrTriginCfg i) 1 0) (if rising then 0 else 1) = false) →
        exec (.trigInEdge i rising tag) s = .next s)
      ∧ (runActive s = true → bitN (regF s (rTrTriginCfg i) 1 0) (if rising then 0 else 1) = true →
        (∀ l, (trigIn s i).last = some l → under2ns s (tag - l) = true →
          ∃ u, exec (.trigInEdge i rising tag) s = .next u ∧ u.tr = s.tr
            ∧ Counted s u (rTrTriginDrop i) 1)
        ∧ ((∀ l, (trigIn s i).last = some l → under2ns s (tag - l) = false) →
          let kept := (trigIn (pruneEdges s i) i).edges
          (kept.length < 64 → ∃ u, exec (.trigInEdge i rising tag) s = .next u ∧ (trigIn u i).edges = kept ++ [tag]
            ∧ (trigIn u i).last = some tag
            ∧ Counted s u (rTrTriginCnt i) 1)
          ∧ (64 ≤ kept.length → ∃ u, exec (.trigInEdge i rising tag) s = .next u ∧ (trigIn u i).edges = kept
            ∧ (trigIn u i).dropSpan ≠ none
            ∧ Counted s u (rTrTriginDrop i) 1))))
      ∧ (∀ m j, m < 8 → j < 2 → (machine s i m).trun.getD j false = true → (machine s i m).tval.getD j 0 ≤ 1 →
        ∃ u, exec (.treadleTimerExpiry i m j) s = .next u ∧ (machine u i m).trun.getD j false = false
          ∧ (j < (machine s i m).texp.length → (machine u i m).texp.getD j false = true)
          ∧ (machine u i m).st = (machine s i m).st ∧ (machine u i m).cnt = (machine s i m).cnt
          ∧ (∀ k q, k < 16 → q < 8 → (k ≠ i ∨ q ≠ m) → machine u k q = machine s k q) ∧ u.regs = s.regs)
      ∧ (∃ u, exec (.trigOutPulseEnd i) s = .next u ∧ (trigOut u i).active = false
        ∧ trigOutLevel u i = ((regF s (rTrTrigoutCfg i) 2 0 == 6 && runActive s) != regBit s (rTrTrigoutCfg i) 31)
        ∧ (∀ k, k ≠ i → trigOut u k = trigOut s k) ∧ u.regs = s.regs)
      ∧ (released s 5 = true → ∃ u, exec (.force i) s = .next u ∧ regBit u (rTrForce i) 0 = true ∧ u.tr = s.tr))

/-- Tick lock and the clocks (spec/02 R35, R36, R46-R51, R54, spec/16 R444): lock starts from IDLE with a declared tick in
range, is refused at a tick more than 0.5 % off, and ends in FAILED when not reached; AVS takes the lowest voltage with
margin; a droop stretches the second warp pulse after it and a weft pulse, each once however many dies detect it; more than
4 S stretches overrun the frame period, and the frames in the network are marked. -/
def Obligations.TickLockAndClocks : Prop :=
  ∀ (s : State), Canonical s →
    (released s 9 = true → s.tb.sysclkLost = false →
        let declared := 4 ≤ tbN s ∧ tbN s ≤ 500 ∧ 100000 ≤ tbN s * tickKhz s ∧ tbN s * tickKhz s ≤ 250000
        ∃ u, exec .lockEnSet s = .next u ∧ regBit u rTbCtrl 0 = true ∧ u.tb.tick = s.tb.tick
          ∧ (tbState s = 0 → declared → tbState u = 1 ∧ u.ob = s.ob ∧ u.tb = s.tb)
          ∧ (tbState s = 0 → ¬declared → tbState u = 0 ∧ Raised u 0x0903 noSource)
          ∧ (tbState s ≠ 0 → tbState u = tbState s))
      ∧ (released s 9 = true → s.tb.sysclkLost = false → runActive s = false → ∃ u, exec .lockEnClear s = .next u
        ∧ regBit u rTbCtrl 0 = false ∧ regBit u rTbCtrl 1 = false ∧ tbState u = 0 ∧ u.rwlLock = false ∧ u.tb = s.tb)
      ∧ (∀ hz, tbState s = 1 →
        let want := tickKhz s * 1000
        (200 * hz ≤ 201 * want ∧ 199 * want ≤ 200 * hz → ∃ u, exec (.tickLocked hz) s = .next u ∧ tbState u = 2
            ∧ regBit u rTbStatus 5 = false ∧ u.ob = s.ob)
          ∧ (201 * want < 200 * hz ∨ 200 * hz < 199 * want → ∃ u, exec (.tickLocked hz) s = .next u ∧ tbState u = 7
            ∧ Raised u 0x0902 noSource))
      ∧ (tbState s = 1 → ∃ u, exec .tickLockFail s = .next u ∧ tbState u = 7 ∧ Raised u 0x0901 noSource)
      ∧ (∀ ok : List Bool, tbState s = 2 → regBit s rTbStatus 5 = false →
        (ok.head? = some true → ∃ u, exec (.avsDone ok) s = .next u ∧ regBit u rTbStatus 5 = true ∧ tbState u = 2
            ∧ regF u rPmAvsResult 9 0 = min 750 (avsSearch ok + regF s rPmAvsCfg 15 8) ∧ u.ob = s.ob)
          ∧ (ok.head? ≠ some true → ∃ u, exec (.avsDone ok) s = .next u ∧ regBit u rTbStatus 5 = false
            ∧ regF u rPmAvsResult 9 0 = 750 ∧ Raised u 0x0A05 noSource))
      ∧ (∃ u, exec .weftPllUnlock s = .next u ∧ regBit u rTbStatus 4 = false ∧ tbState u = tbState s
        ∧ Raised u 0x090D noSource)
      ∧ (∀ die mv weft, die < dieCount s →
        (mv ≤ 5 * max 1 (regF s rTbDroopCfg 5 0) → exec (.droopDetected die mv weft) s = .next s)
          ∧ (5 * max 1 (regF s rTbDroopCfg 5 0) < mv → ∃ u, exec (.droopDetected die mv weft) s = .next u
            ∧ u.tb.q = s.tb.q ∧ u.tb.weftPulse = some weft ∧ u.ob = s.ob
            ∧ (runActive s = true → (warpEdge (warpEdge u)).tb.slow = true
              ∧ (warpEdge (warpEdge (warpEdge u))).tb.slow = false)
            ∧ (s.tb.weftPulse = some weft → u.regs = s.regs)
            ∧ (s.tb.weftPulse ≠ some weft → reg64 u rTbWeftStretchPs =
                (reg64 s rTbWeftStretchPs + opPeriod (regF s rTbWeftOp 2 0) / 4) % 2 ^ 64
              ∧ regBit u rTbWeftOp 8 = false
              ∧ (regBit s rTbWeftOp 8 = true → regF u rTbWeftOp 2 0 = regF s rTbWeftOp 6 4))))
      ∧ (runActive s = true → lastTick s = true → s.tb.lapse = false → 4 * tbSelvage s < s.tb.q →
        ∃ u, exec .tickOverrun s = .next u
          ∧ Counted s u rTbOverrunCnt 1 ∧ u.tb.q = 0 ∧ u.tb.tick = s.tb.tick + 1 ∧ u.tb.cyc = 0 ∧ u.tb.eighth = 0
          ∧ (reg u rTbStretchMax).toNat = max s.tb.q (reg s rTbStretchMax).toNat % 2 ^ 32
          ∧ (u.ob.log.take 2).any (fun l => l.cause == 0x0906) = true
          ∧ (∀ t, periodStart s s.tb.tick = some t → ∀ k < imageL s, tbSlot s + (imageDelta s + k) * tbM s ≤ t →
            bitN (frameMark u (t - (imageDelta s + k) * tbM s)).mark 0 = true))
      ∧ ((runActive s = false ∨ lastTick s = false ∨ s.tb.q ≤ 4 * tbSelvage s) → exec .tickOverrun s = .next s)

/-- The edges of runs (spec/02 R39-R42, R52-R54, spec/00 R11): ARM takes effect when every condition holds; an armed edge
begins a run at tick 0 with ARM cleared; an edge that is not armed changes no run; STOP ends the run from a frame-period
boundary; loss of the tick leads to holdover, whose limit, like LOCK_EN 0, ends the run at the next frame-period boundary,
with its undecided frames lost; the loss of SYSCLK ends it at once; ARM and the locks are cleared. That ARM waits in Keep's
queue, and which latency ends a stopped run, is the model's reading (log entries 15, 100). -/
def Obligations.RunsBeginAndEnd : Prop :=
  ∀ (s : State), Canonical s →
    let open' := released s 9 = true ∧ s.tb.sysclkLost = false
    let ended := fun (u : State) (st : Nat) => tbState u = st ∧ regBit u rTbCtrl 1 = false ∧ u.rwlLock = false
      ∧ regBit u rTbCtrl 2 = false ∧ u.tb.stopAt = none ∧ regBit u rWpStatus 16 = false
    let begun := fun u : State => tbState u = 4 ∧ regBit u rTbCtrl 1 = false ∧ u.rwlLock = true ∧ u.tb.tick = 0
      ∧ u.tb.q = 0 ∧ u.tb.stopAt = none ∧ regBit u rTbCtrl 2 = false
    (open' → (s.kp.wiping = true ∨ s.kp.waiting ≠ []) → exec .arm s = .next (keepLater s .arm))
      ∧ (open' → s.kp.wiping = false → s.kp.waiting = [] → (armChecks s).2 = true → ∃ u, exec .arm s = .next u ∧ regBit u rTbCtrl 1 = true ∧ u.rwlLock = true
        ∧ tbState u = (if tbState s = 2 then 3 else tbState s) ∧ u.tb = s.tb)
      ∧ (open' → s.kp.wiping = false → s.kp.waiting = [] → (armChecks s).2 = false → ∃ u, exec .arm s = .next u
        ∧ regBit u rTbCtrl 1 = regBit s rTbCtrl 1
        ∧ u.rwlLock = s.rwlLock ∧ tbState u = tbState s ∧ u.tb.tick = s.tb.tick ∧ (armWhy s ≠ 0 → regF u rTbFault 5 4 ≠ 0))
      ∧ (s.tb.sysclkLost = false → runActive s = false → regBit s rTbCtrl 1 = true → tbState s = 3 →
        ∃ u, exec .runSyncEdge s = .next u ∧ begun u ∧ reg u rTbOverrunCnt = 0 ∧ reg u rTbPrerunCnt = 0
          ∧ reg u rTbStretchMax = 0 ∧ u.tr.undecided = [] ∧ u.tr.machines = [] ∧ u.marks = [])
      ∧ (s.tb.sysclkLost = false → runActive s = true → regBit s rTbCtrl 1 = true →
        ∃ u, exec .runSyncEdge s = .next u ∧ begun u ∧ u.tr.undecided = [])
      ∧ (s.tb.sysclkLost = false → runActive s = true → regBit s rTbCtrl 1 = false → ∃ u, exec .runSyncEdge s = .next u
        ∧ u.tb.tick = s.tb.tick ∧ u.tb.stopAt = s.tb.stopAt ∧ tbState u = tbState s ∧ Raised u 0x0909 noSource
        ∧ (reg s rTbFault = 0 → reg64 u rTbFaultTag / 256 = s.tb.tick % 2 ^ 56))
      ∧ (released s 9 = true → runActive s = true → s.tb.stopAt = none → ∃ u b, exec .stop s = .next u
        ∧ regBit u rTbCtrl 2 = true ∧ u.tb = { s.tb with stopAt := some b } ∧ s.tb.tick < b ∧ tbSlot s ≤ b
        ∧ (b - tbSlot s) % tbM s = 0 ∧ (b ≤ s.tb.tick + tbM s ∨ b = tbSlot s) ∧ tbState u = tbState s)
      ∧ (∀ b, runActive s = true → s.tb.stopAt = some b →
        (b + (imageLatency s + 2) * tbM s ≤ s.tb.tick → ∃ u, exec .runStopEnd s = .next u ∧ ended u 2
          ∧ u.tr.undecided = s.tr.undecided)
        ∧ (s.tb.tick < b + (imageLatency s + 2) * tbM s → exec .runStopEnd s = .next s))
      ∧ (tbState s = 4 → ∃ u, exec .tickLost s = .next u ∧ tbState u = 5 ∧ u.tb.tick = s.tb.tick ∧ u.tb.holdTicks = 0
        ∧ u.tb.holds = s.tb.holds ++ [(s.tb.tick, none)] ∧ Raised u 0x0907 noSource)
      ∧ ((tbState s = 2 ∨ tbState s = 3) → ∃ u, exec .tickLost s = .next u ∧ tbState u = 1 ∧ regBit u rTbCtrl 1 = false
        ∧ u.rwlLock = false ∧ Raised u 0x090B noSource)
      ∧ (tbState s = 5 → s.tb.lapse = false → s.tb.holdTicks ≤ regF s rTbHoldover 11 0 →
        ∃ u, exec .holdoverExit s = .next u ∧ tbState u = 4
          ∧ u.tb.tick = s.tb.tick ∧ (∀ h ∈ u.tb.holds, h.2 ≠ none) ∧ u.ob = s.ob)
      ∧ (tbState s = 5 → regF s rTbHoldover 11 0 ≤ s.tb.holdTicks →
        exec .holdoverExpired s = .next { s with tb := { s.tb with lapse := true } })
      ∧ (tbState s = 5 → s.tb.holdTicks < regF s rTbHoldover 11 0 → exec .holdoverExpired s = .next s)
      ∧ (open' → runActive s = true → ∃ u, exec .lockEnClear s = .next u ∧ regBit u rTbCtrl 0 = false
        ∧ u.tb = { s.tb with lapse := true } ∧ tbState u = tbState s ∧ u.tr = s.tr)
      ∧ (s.tb.lapse = true → lastTick s = true → ended (tickEdge s) (if regBit s rTbCtrl 0 then 1 else 0)
        ∧ (tickEdge s).tr.undecided = [])
      ∧ (∃ u, exec .sysclkLost s = .next u ∧ tbState u = 7 ∧ u.tb.sysclkLost = true ∧ regBit u rTbStatus 4 = false ∧ regBit u rTbCtrl 1 = false
        ∧ u.rwlLock = false ∧ (runActive s = true → ended u 7 ∧ u.tr.undecided = []))

/-- Cold reset and the loss of power (spec/00 R15, spec/19 R535-R541, spec/17 R505): every register but those that fuses
set and the eye baseline takes its reset value, memory, image, tiles and runs are gone; the fuses and the boot flash stay;
the retained set stays over a cold reset and is lost with VDD_AON. A device without power takes no reset. -/
def Obligations.ResetsClear : Prop :=
  ∀ (s : State) (hot : Bool),
    let cold := fun u : State =>
      (∀ a, a ∉ [rPmBase, rPmFloor, rPmCapEff] ++ (List.range 16).map rPmEtab ++ eyeBaseRegs → reg u a = regReset a)
        ∧ (∀ i < 144, reg u (rEyBase i) = reg s (rEyBase i))
        ∧ u.bb.mem = [] ∧ u.image = none ∧ u.ts = [] ∧ u.tile.pick = [] ∧ u.weft.sreg = [] ∧ u.tb.tick = 0 ∧ u.rwlLock = false
        ∧ u.sched.queue = [] ∧ u.ob.log = [] ∧ u.kp.kCmd = none ∧ u.fuse = s.fuse ∧ u.kp.flash = s.kp.flash
    (s.pins.powered = false → ∃ u, exec .powerUp s = .next u ∧ cold u ∧ u.pins = {} ∧ u.kp.cur = none ∧ u.kp.aon = []
        ∧ u.ob.tapIr = 1)
      ∧ (s.pins.powered = true → ∃ u, exec (.sysRstNAssert hot) s = .next u ∧ cold u ∧ u.pins.sysRstN = false
        ∧ u.kp.cur = s.kp.cur ∧ u.kp.aon = s.kp.aon ∧ u.pm.tripped = (s.pm.tripped && hot))
      ∧ (s.pins.powered = true → ∃ u, exec (.railUndervoltage hot) s = .next u ∧ cold u ∧ u.pins.undervolt = true
        ∧ u.pins.sysRstN = s.pins.sysRstN ∧ u.kp.cur = s.kp.cur ∧ u.kp.aon = s.kp.aon)
      ∧ (s.pins.powered = true → ∃ u, exec .aonUndervoltage s = .next u ∧ cold u ∧ u.kp.cur = none ∧ u.kp.aon = []
        ∧ u.ob.tapIr = 1)
      ∧ (∃ u, exec .powerLoss s = .next u ∧ cold u ∧ u.pins.powered = false ∧ u.kp.cur = none ∧ u.kp.aon = [])
      ∧ (s.pins.powered = false →
        ∀ c ∈ [Instr.sysRstNAssert hot, .railUndervoltage hot, .aonUndervoltage], exec c s = .next s)
      ∧ (s.pins.powered = true → exec .powerUp s = .next s)

/-- The boot (spec/17 R478, R480-R485, spec/15 R421): each start opens the next record of the ledger with its cause; a
device whose ROM fails its fuse check halts, one strapped for recovery waits there; the step in progress at its bound has
failed with 0x0B06; when zeroing ends memory is zero and active, and a start that waits for it is done. -/
def Obligations.BootSequence : Prop :=
  ∀ (e : BootEnv) (s : State), Canonical s →
    let cause := if s.kp.cur.isNone then 0 else 1
    (s.pins.powered = true → s.pins.sysRstN = false → s.pins.undervolt = false → bootState s = 0 →
        ∃ u, exec (.sysRstNRelease e) s = .next u ∧ u.pins.sysRstN = true ∧ Started s u cause
          ∧ (e.hang ≠ some 0 → s.fuse.romOk = false → bootState u = 4 ∧ Raised u 0x0B01 noSource
            ∧ regF u (rKpStep 0) 7 0 = 5 ∧ regF u (rKpStep 0) 31 16 = 0x0B01)
          ∧ (e.hang ≠ some 0 → s.fuse.romOk = true → e.mode % 4 = 2 → bootState u = 5 ∧ regF u (rKpStep 0) 7 0 = 1))
      ∧ (s.pins.undervolt = true → s.pins.sysRstN = true → ∃ u, exec (.railBackInDcBand e) s = .next u
        ∧ u.pins.undervolt = false ∧ Started s u 1)
      ∧ (s.kp.cur ≠ none → s.pins.sysRstN = true → s.pins.undervolt = false → ∃ u, exec (.watchdog e) s = .next u
        ∧ Started s u 3 ∧ u.kp.kCmd = none)
      ∧ (∀ fail, s.kp.zeroing = true → ∃ u, exec (.memoryActive fail e) s = .next u
        ∧ u.bb.mem = [] ∧ u.kp.zeroing = false ∧ regBit u rBbMemStatus 31 = true ∧ regBit u rBbMemStatus 30 = false
        ∧ (2 ^ 30 ≤ dpaSize u → regBit u rCxMemStatus 30 = true ∧ region u 0 = ⟨true, 5, 0, dpaSize u - 2 ^ 30, 2 ^ 30⟩)
        ∧ (s.kp.step ≠ some 15 → bootState u = bootState s)
        ∧ (∀ r, s.kp.cur = some r → s.kp.step = some 15 → u.kp.step = none ∧ regBit u rKpEvent 0 = true
          ∧ bootState u = (if r.degraded then 3 else 2)
          ∧ ∃ q, u.kp.cur = some q ∧ q.done = true ∧ q.timeMs = e.totalMs ∧ q.bootNo = r.bootNo))
      ∧ (s.kp.step = some 15 → s.kp.zeroing = true → ∃ u, exec (.stepTimeout e) s = .next u ∧ u.kp.step = none
        ∧ u.bb.mem = [] ∧ regF u (rKpStep 6) 7 0 = 5 ∧ regF u (rKpStep 6) 31 16 = 0x0B06)
      ∧ (∀ k ∈ [0, 2, 13], s.kp.step = some k → ∃ u, exec (.stepTimeout e) s = .next u ∧ u.kp.step = none
        ∧ bootState u = 4 ∧ Raised u 0x0B06 k ∧ regF u (rKpStep k) 7 0 = 5 ∧ regF u (rKpStep k) 31 16 = 0x0B06)

/-- The CXL link and its decoders (spec/15 R410-R412, R416, R417, R440, R442, spec/19 R538): what PERST_N or a lost link
takes with it, while a run goes on; how the link comes up; a decoder is committed only when its fields keep R417, and is
locked when asked. -/
def Obligations.CxlLinkAndDecoders : Prop :=
  ∀ (s : State), Canonical s →
    let lost := fun u : State => reg u rCxLinkStatus = 0 ∧ regF u rCxMemStatus 29 27 = 0 ∧ u.cx.msixEn = false
      ∧ u.cx.dec0 = {} ∧ u.cx.dec1 = {} ∧ u.cx.cache = [] ∧ u.cx.atc = [] ∧ u.cx.flip = none
      ∧ (∀ v < 2048, reg u (rMsixTable v) = regReset (rMsixTable v))
      ∧ tbState u = tbState s ∧ u.tb.tick = s.tb.tick ∧ u.bb.mem = s.bb.mem ∧ u.image = s.image
    (∃ u, exec .perstN s = .next u ∧ lost u ∧ u.pins = { s.pins with perstN := false })
      ∧ (cxUp s = true → ∃ u, exec .linkDown s = .next u ∧ lost u ∧ u.pins = s.pins)
      ∧ (cxUp s = false → exec .linkDown s = .next s)
      ∧ (∀ cxl speed width, s.pins.perstN = true → s.pins.sysRstN = true → cxUp s = false → s.ob.testMode = false →
        let ok := cxl && stepOutcome s 4 != 5
        ∃ u, exec (.linkUp cxl speed width) s = .next u ∧ cxUp u = true ∧ regBit u rCxLinkStatus 30 = ok
          ∧ regF u rCxLinkStatus 11 8 = speed % 16 ∧ regF u rCxLinkStatus 4 0 = width % 32
          ∧ (ok = true → 16 ≤ width → 5 ≤ speed → u.ob = s.ob)
          ∧ (ok = true → (width < 16 ∨ speed < 5) → Raised u 0x0804 noSource)
          ∧ (ok = false → Raised u 0x080A noSource))
      ∧ (exec .perstNDeassertion s = .next { s with pins := { s.pins with perstN := true } })
      ∧ (∀ i < 2, cxUp s = true → released s 8 = true → (decoder s i).committed = false →
        ∃ u, exec (.hdmDecoderCommit i) s = .next u
          ∧ (commitBad s i = false → decoder u i =
            { decoder s i with committed := true, error := false, locked := (decoder s i).lockOnCommit } ∧ u.ob = s.ob)
          ∧ (commitBad s i = true → decoder u i = { decoder s i with error := true } ∧ Raised u 0x0802 noSource)
          ∧ decoder u (1 - i) = decoder s (1 - i) ∧ u.bb = s.bb)

/-- The host's accesses to DDR4 and its caches (spec/15 R416, R418, R422-R431): an allowed read answers the line, an
allowed write changes its enabled bytes alone, any other access is refused and counted; a host access takes a page back to
host bias; a bias flip moves the pages of WEFT and HDM regions; snoops and invalidations take lines and translations away. -/
def Obligations.HostMemory : Prop :=
  ∀ (s : State), Canonical s →
    (∀ hpa d errs, hpaToDpa s hpa = some d → hostMem s = true →
      let a := d / 64 * 64
      let r := lineRead s (a / 64) errs
      (memActive s = false → ∃ u, exec (.hostMemRead hpa errs) s = .next u ∧ u.cx.memAnswer = some (zeros 64, true)
          ∧ Counted s u rCxEarlyCnt 1 ∧ u.bb = s.bb)
        ∧ (memActive s = true → (∃ k ∈ [1, 2, 3, 4], kindAt s a 64 = some k) → ∃ u, exec (.hostMemRead hpa errs) s = .next u
          ∧ u.cx.memAnswer = some (padTo 64 r.bytes, r.bad)
          ∧ (biased s a = true → pageBias u (a / 4096) = false) ∧ (∀ pg, pg ≠ a / 4096 → pageBias u pg = pageBias s pg)
          ∧ (errs = [] → lineBad s (a / 64) = false → r.bytes = memBytes s a 64 ∧ r.bad = false ∧ u.bb.mem = s.bb.mem))
        ∧ (memActive s = true → (∀ k ∈ [1, 2, 3, 4], kindAt s a 64 ≠ some k) → ∃ u, exec (.hostMemRead hpa errs) s = .next u
          ∧ u.cx.memAnswer = some (zeros 64, true) ∧ Counted s u rBbRefusedCnt 1 ∧ Raised u 0x0609 noSource ∧ u.bb = s.bb)
        ∧ (∀ mask bs poison, memActive s = true → (kindAt s a 64 = some 3 ∨ kindAt s a 64 = some 4) → bs.length = 64 →
          ∃ u, exec (.hostMemWrite hpa mask bs poison errs) s = .next u
            ∧ (poison = false → mask % 2 ^ 64 = 2 ^ 64 - 1 → memBytes u a 64 = bs ∧ lineBad u (a / 64) = false)
            ∧ (poison = false → mask % 2 ^ 64 ≠ 2 ^ 64 - 1 → memBytes u a 64 = mergeBytes mask r.bytes bs
              ∧ lineBad u (a / 64) = r.bad)
            ∧ (poison = true → memBytes u a 64 = bs ∧ lineBad u (a / 64) = true ∧ Counted s u rCxPoisonCnt 1)
            ∧ (∀ b, (b < a ∨ a + 64 ≤ b) → sget dByte u.bb.mem b = sget dByte s.bb.mem b)
            ∧ pageBias u (a / 4096) = false)
        ∧ (∀ mask bs poison, memActive s = true → kindAt s a 64 ≠ some 3 → kindAt s a 64 ≠ some 4 →
          ∃ u, exec (.hostMemWrite hpa mask bs poison errs) s = .next u ∧ u.bb = s.bb ∧ Counted s u rBbRefusedCnt 1))
      ∧ (∀ hpa, s.cx.dec0.committed = true → s.cx.dec0.iw = 0 → s.cx.dec0.base ≤ hpa → hpa < s.cx.dec0.base + s.cx.dec0.size →
        hpaToDpa s hpa = some (s.cx.dec0.skip + (hpa - s.cx.dec0.base)))
      ∧ (∀ target, released s 8 = true → regBit s rCxBiasStatus 31 = false → ∃ u, exec (.biasFlip target) s = .next u
        ∧ (target = true → cacheEn s = false → u.cx.flip = none ∧ regBit u rCxBiasStatus 30 = true
          ∧ regBit u rCxBiasStatus 31 = false ∧ Raised u 0x080B noSource)
        ∧ ((target = false ∨ cacheEn s = true) → regBit u rCxBiasStatus 31 = true
          ∧ u.cx.flip = some { page := reg64 s rCxBiasBase / 4096, left := regF s rCxBiasCount 20 0, toDevice := target })
        ∧ u.cx.bias = s.cx.bias)
      ∧ (∀ n f, s.cx.flip = some f → f.left ≤ n → (f.toDevice = false ∨ cacheEn s = true) →
        ∃ u, exec (.biasFlipDone n []) s = .next u ∧ u.cx.flip = none ∧ regBit u rCxBiasStatus 31 = false
          ∧ regBit u rCxBiasCtrl 31 = false ∧ u.bb = s.bb
          ∧ ∀ pg, pageBias u pg = (if f.page ≤ pg ∧ pg < f.page + f.left ∧ biased s (4096 * pg) = true then f.toDevice
            else pageBias s pg))
      ∧ (∀ l inv, exec (.hostSnoop l inv) s = .next
        (if inv && cxUp s then { s with cx := { s.cx with cache := s.cx.cache.erase l } } else s))
      ∧ (∀ pg n, ∃ u, exec (.atsInvalidation pg n) s = .next u
        ∧ (∀ q, q ∈ u.cx.atc ↔ q ∈ s.cx.atc ∧ ¬(pg ≤ q ∧ q < pg + n)) ∧ u.bb = s.bb ∧ u.regs = s.regs)

/-- What Keep answers (spec/15 R432-R435, spec/17 R480, R482, R485-R487, R491, R492, R499, R503): a command that is taken
is answered with the fields of its row; a response over the mailbox clears BUSY and sets DONE, one over MCTP goes out; a
fresh nonce is the one that is valid; a mailbox GO is queued, refused or set aside as its header says. After each command
Keep goes on with the ARM writes and grants that wait in front of the next one (R435). A mailbox command that Keep does not
take changes nothing; one over MCTP waits. The one queue of Keep is the model's reading (log entry 100). -/
def Obligations.KeepAnswers : Prop :=
  ∀ (s : State) (src : CmdSrc) (c : KpCmd) (v : State) (e : BootEnv) (late : Bool), Canonical s →
    (∀ (x : KpCmd) (st : Nat) (body : List Byte),
      (x.mctp = false → wbit (respond v x st body).cx.mbStatus 31 = false ∧ wbit (respond v x st body).cx.mbStatus 30 = true)
        ∧ (x.mctp = true → (respond v x st body).kp.mctpOut = (if body.length ≤ 16368 then
            mbHeader st x.opcode body.length x.tag ++ body else mbHeader 0x0807 x.opcode 0 x.tag) :: v.kp.mctpOut))
      ∧ (Taken src 1 s c v → exec (.getInfo src) s = .next (keepNext (respond (freeBytes v 8).2 c 0 (leBytes 4 (kpId v) ++ uidBytes v
          ++ leBytes 4 (reg v rKpBootStatus).toNat ++ leBytes 4 v.kp.svn ++ leBytes 4 v.fuse.antiRollback ++ ownerHash v
          ++ (freeBytes v 8).1))))
      ∧ (Taken src 2 s c v → exec (.getLedger src) s = .next (keepNext (
          let n := leAt c.payload 0 2
          if c.payload.length = 2 ∧ 1 ≤ n ∧ n ≤ 16 then respond v c 0 (((records v).take n).map recBytes).flatten
          else failCmd v c 0x0807)))
      ∧ (Taken src 3 s c v → exec (.getCert src) s = .next (keepNext (respond v c 0 v.kp.flash.cert)))
      ∧ (Taken src 4 s c v → ∃ k, k.length = 1184
        ∧ exec (.getKemKey src) s = .next (keepNext (respond v c 0 (k ++ identitySign v "EX20-KEM-KEY" k))))
      ∧ (Taken src 5 s c v → ∃ u nonce, exec (.getChallenge src) s = .next (keepNext (respond u c 0 nonce)) ∧ nonce.length = 32
        ∧ u.kp.nonce = some nonce ∧ u.regs = v.regs ∧ u.fuse = v.fuse)
      ∧ (Taken src 6 s c v → c.payload.length = 32 → exec (.attest src) s =
        .next (keepNext (respond v c 0
          (reportPlain v c.payload ++ identitySign v "EX20-ATTEST" (reportPlain v c.payload)))))
      ∧ (Taken src 7 s c v → ∃ u, exec (.warmReset src e) s = .next (keepNext u) ∧ Started s u 2 ∧ u.kp.kCmd = none)
      ∧ (Taken src 8 s c v →
        let img := overlay v.kp.recov (leAt c.payload 0 4) (c.payload.drop 4)
        (inRecovery v = false → exec (.recoveryWrite src e) s = .next (keepNext (failCmd v c 0x0B17)))
          ∧ (inRecovery v = true → 4 ≤ c.payload.length → c.payload.length ≤ 4100 →
            leAt c.payload 0 4 + c.payload.length ≤ 4 * 2 ^ 20 + 4 →
            ∃ u, exec (.recoveryWrite src e) s = .next (keepNext u) ∧ (recoveryWhole img = false → slotImage u 0 = img
              ∧ u.kp.recov = img ∧ u.kp.flash.slotB = s.kp.flash.slotB ∧ u.kp.flash.golden = s.kp.flash.golden)))
      ∧ (Taken src 0x10 s c v → owned v = true → v.kp.ownerLost = false → c.payload.length = 3540 → late = false →
        let ct := slice c.payload 0 1088
        let nonce := slice c.payload 1088 32
        v.kp.nonce = some nonce →
        ∃ u, exec (.keyEstablish src late) s = .next (keepNext u) ∧ u.kp.nonce = none
          ∧ (Config.mldsaVerify v.kp.ownerKey (ascii "EX20-KEY") (ct ++ nonce) (slice c.payload 1120 2420) = true →
            reg64 u rKpCmdCtr = 0 ∧ u.kp.kCmd =
              some (shake256 32 (ascii "EX20-CMDKEY" ++ padTo 32 (Config.mlkemDecaps (kemSeed v) ct) ++ nonce)))
          ∧ (Config.mldsaVerify v.kp.ownerKey (ascii "EX20-KEY") (ct ++ nonce) (slice c.payload 1120 2420) = false →
            u.kp.kCmd = s.kp.kCmd ∧ Raised u 0x0B16 noSource))
      ∧ (∀ p ∈ [(1, Instr.getInfo src), (2, .getLedger src), (3, .getCert src), (4, .getKemKey src), (5, .getChallenge src),
          (6, .attest src), (7, .warmReset src e), (8, .recoveryWrite src e), (0x10, .keyEstablish src late)],
        takeCmd src p.1 s = none → exec p.2 s = .next (heldCmd src p.1 s))
      ∧ (released s 11 = true → bootState s ≠ 4 → bootState s ≠ 5 → ∃ u, exec .mailboxGo s = .next u
        ∧ (wbit s.cx.mbStatus 31 = true → wbit u.cx.mbStatus 29 = true ∧ Raised u 0x0806 noSource ∧ u.kp = s.kp)
        ∧ (wbit s.cx.mbStatus 31 = false → headerBad s = false → listedOpcode (bufferCmd s).opcode = true →
          u.kp.waiting = s.kp.waiting ++ [.cmd (bufferCmd s)] ∧ wbit u.cx.mbStatus 31 = true)
        ∧ (wbit s.cx.mbStatus 31 = false → (headerBad s = true ∨ listedOpcode (bufferCmd s).opcode = false) →
          wbit u.cx.mbStatus 31 = false ∧ wbit u.cx.mbStatus 30 = true ∧ u.kp = s.kp
            ∧ Raised u (if headerBad s then 0x0807 else 0x0B13) noSource))
      ∧ (∀ msg, stepOutcome s 0 = 1 → ∃ u answer, exec (.mctpControlMessage msg) s = .next u
        ∧ u.kp.mctpOut = answer :: s.kp.mctpOut ∧ u.regs = s.regs ∧ u.cx = s.cx)

/-- A critical command that passes R494 has the effect of its row (spec/16 R451, spec/17 R484, R488, R489, R496-R498,
R500-R502). -/
def Obligations.CriticalCommands : Prop :=
  ∀ (s : State) (src : CmdSrc) (c : KpCmd) (key : List Byte) (ctr : Nat) (body : List Byte) (w : State) (e : BootEnv),
    Canonical s →
    (Accepted src 0x21 s c key ctr body w → body.length = 4 →
      let mw := leAt body 0 4
      ∃ u, exec (.setCap src) s = .next (keepNext u)
        ∧ (120000 ≤ mw ∧ mw ≤ 450000 → regF u rPmCap 19 0 = mw ∧ regF u rPmCapEff 19 0 = max mw (regF s rPmFloor 19 0)
          ∧ regF u rPmStatus 27 26 = 1)
        ∧ (mw < 120000 ∨ 450000 < mw → regF u rPmCap 19 0 = regF s rPmCap 19 0 ∧ Raised u 0x0A02 noSource))
      ∧ (∀ flashOk warm errs x bs, Accepted src 0x22 s c key ctr body w → body.length = 16 →
        let slot := leAt body 12 1
        slot ≤ 2 → ¬(slot = (curRec w).slot % 4 ∧ slot < 2) → leAt body 8 4 ≤ (if slot = 2 then 16 else 4) * 2 ^ 20 →
        readUpdate w (leAt body 0 8) (leAt body 8 4) errs = some (x, false, bs) →
        ∃ u, exec (.fwUpdate src flashOk warm errs e) s = .next (keepNext u)
          ∧ (slot < 2 → fwValid x bs = true → flashOk = true → warm = false → slotImage u slot = bs
            ∧ u.kp.flash.preferred = slot ∧ u.kp.flash.bootImg = s.kp.flash.bootImg)
          ∧ (slot < 2 → fwValid x bs = true → flashOk = true → warm = true → Started s u 4)
          ∧ (slot < 2 → fwValid x bs = false → u.kp.flash = s.kp.flash)
          ∧ (slot = 2 → flashOk = true → u.kp.flash.bootImg = bs ∧ u.kp.flash.slotA = s.kp.flash.slotA
            ∧ u.kp.flash.slotB = s.kp.flash.slotB))
      ∧ (Accepted src 0x23 s c key ctr body w → body.length = 40 →
        let en := leAt body 0 1 % 2 == 1
        (en = false ∨ leAt s.kp.policy 2 1 ≠ 0) → ∃ u, exec (.farmPower src) s = .next (keepNext u)
          ∧ u.kw.farmKey = (if en then xorBytes (slice body 8 32) (shake256 32 (ascii "EX20-WRAP" ++ key ++ leBytes 8 ctr))
            else [])
          ∧ regBit u rKwFarmCfg 31 = en ∧ regBit u rKwFarmCfg 30 = (leAt body 1 1 % 2 == 1))
      ∧ (Accepted src 0x24 s c key ctr body w → 8 ≤ body.length →
        let lvl := leAt body 0 1
        let nonce := slice body 8 32
        (lvl = 0 → ∃ u, exec (.debugUnlock src false) s = .next (keepNext u) ∧ debugLevel u = 0)
          ∧ (0 < lvl → lvl ≤ leAt w.kp.policy 1 1 → lvl ≤ 3 → body.length = 2460 → w.kp.nonce = some nonce →
            let signed := Config.mldsaVerify (if lvl = 3 then vendorKey w else w.kp.ownerKey) (ascii "EX20-DEBUG")
              (leBytes 1 lvl ++ nonce ++ uidBytes w) (slice body 40 2420)
            ∃ u, exec (.debugUnlock src false) s = .next (keepNext u) ∧ u.kp.nonce = none
              ∧ debugLevel u = (if signed then lvl else debugLevel s)
              ∧ (signed = true → lvl = 3 → u.ts = [] ∧ u.tile.pick = [] ∧ u.image = none)))
      ∧ (Accepted src 0x25 s c key ctr body w → body.length = 4 →
        let ddr4 := leAt body 0 4 % 2 == 1
        ∃ u, exec (.zeroize src) s = .next (keepNext u) ∧ runActive u = false ∧ u.ts = [] ∧ u.tile.pick = [] ∧ u.tile.pages = []
          ∧ u.image = none ∧ u.sched.queue = [] ∧ u.kp.kCmd = none ∧ u.kw.farmKey = [] ∧ debugLevel u = 0
          ∧ regBit u rKpEvent 4 = true ∧ u.kp.wiping = ddr4 ∧ memActive u = (memActive s && !ddr4))
      ∧ (s.kp.wiping = true → ∃ u, exec (.zeroizeDdr4Done e) s = .next u ∧ Started s u 5 ∧ u.kp.wiping = false)
      ∧ (∀ blown, Accepted src 0x26 s c key ctr body w → ∃ u, exec (.fuseAdvance src blown) s = .next (keepNext u)
        ∧ (s.kp.svn ≤ Config.fwSvn s.kp.flash.golden → (curRec s).slot ≠ 2 → s.kp.svn ≤ 64 → blown = true →
          (keepNext u).fuse = { s.fuse with antiRollback := max s.kp.svn s.fuse.antiRollback })
        ∧ ((Config.fwSvn s.kp.flash.golden < s.kp.svn ∨ (curRec s).slot = 2 ∨ 64 < s.kp.svn ∨ blown = false) →
          (keepNext u).fuse = s.fuse ∧ Raised u 0x0B1B noSource))
      ∧ (∀ flashOk, Accepted src 0x27 s c key ctr body w → body.length = 16 →
        ∃ u, exec (.setPolicy src flashOk) s = .next (keepNext u)
          ∧ (flashOk = true → u.kp.policy = body ∧ (∃ a b, u.kp.flash.ownerA = some a ∧ u.kp.flash.ownerB = some b
            ∧ a.policy = body ∧ b.policy = body ∧ a.key = s.kp.ownerKey ∧ b.key = s.kp.ownerKey
            ∧ b.seq = (a.seq + 1) % 2 ^ 32))
          ∧ (flashOk = false → u.kp.policy = s.kp.policy ∧ u.kp.flash.ownerB = s.kp.flash.ownerB
            ∧ Raised u 0x0B0A noSource))
      ∧ (∀ r, Accepted src 0x28 s c key ctr body w → body.length = 16 → s.kp.cur = some r →
        ∃ u q, exec (.ledgerClear src) s = .next (keepNext u) ∧ u.kp.cur = some q ∧ q.bootNo = r.bootNo
          ∧ ∀ k < 16, (recStep q k).outcome = (recStep r k).outcome
            ∧ (recStep q k).fails = (if bitN (leAt body 0 2) k then 0 else (recStep r k).fails))
      ∧ (Accepted src 0x11 s c key ctr body w → owned s = true → body.length = 3764 →
        ∃ u, exec (.ownerTransfer src false e) s = .next (keepNext u) ∧ ((transferOk w w.kp.ownerKey body false).2 = true →
          Started s u 6 ∧ u.kp.kCmd = none ∧ ∃ a, u.kp.flash.ownerA = some a ∧ a.key = slice body 0 1312
            ∧ a.policy = defaultPolicy))
      ∧ (∀ v, Taken src 0x11 s c v → owned s = false → c.payload.length = 3764 →
        ∃ u, exec (.ownerTransfer src false e) s = .next (keepNext u) ∧ ((transferOk v (vendorKey v) c.payload false).2 = true →
          Started s u 6 ∧ ∃ a, u.kp.flash.ownerA = some a ∧ a.key = slice c.payload 0 1312 ∧ a.policy = defaultPolicy))

/-- A critical command that fails R494 changes nothing but its answer, the failure counts and KP_EVENT.AUTH (spec/17 R494):
no fuse, no flash, no cap, no key, no debug level, no tile store. -/
def Obligations.CriticalCommandsRefused : Prop :=
  ∀ (s : State) (src : CmdSrc) (c : KpCmd) (v : State) (e : BootEnv) (fl wm bl lt : Bool)
    (errs : List (Nat × List SymErr)), Canonical s →
    ∀ p ∈ [(0x20, Instr.load src errs), (0x21, .setCap src), (0x22, .fwUpdate src fl wm errs e), (0x23, .farmPower src),
      (0x24, .debugUnlock src lt), (0x25, .zeroize src), (0x26, .fuseAdvance src bl), (0x27, .setPolicy src fl),
      (0x28, .ledgerClear src)],
    Taken src p.1 s c v →
    let n := c.payload.length
    (v.kp.kCmd = none ∨ n < 24 ∨ leAt c.payload 0 8 ≤ reg64 v rKpCmdCtr ∨ (∃ key, v.kp.kCmd = some key
      ∧ kmac256 key (cmdHeader c ++ c.payload.take (n - 16)) 16 (ascii "EX20-CMD") ≠ c.payload.drop (n - 16))) →
    ∃ u, exec p.2 s = .next (keepNext u) ∧ regBit u rKpEvent 2 = true ∧ u.fuse = s.fuse ∧ u.kp.flash = s.kp.flash
      ∧ u.kp.kCmd = s.kp.kCmd ∧ u.kp.policy = s.kp.policy ∧ debugLevel u = debugLevel s ∧ u.ts = s.ts ∧ u.tile = s.tile
      ∧ u.image = s.image ∧ u.bb = s.bb ∧ regF u rPmCap 19 0 = regF s rPmCap 19 0
      ∧ reg64 u rKpCmdCtr = reg64 s rKpCmdCtr ∧ u.kw.farmKey = s.kw.farmKey

/-- Loading an image (spec/10 R293-R297): a refused or wrong image leaves the loaded one as it is and shows its cause; an
image that passes the first pass unloads the old one with nothing written yet; the second pass writes the whole image and
publishes it, with the digests that it computed, when they still agree with those of the first, and leaves no image loaded
when they do not or a line of the source cannot be read. What a second pass that fails leaves is the model's reading (log
entry 67). -/
def Obligations.ImagesAreLoaded : Prop :=
  ∀ (s : State) (src : CmdSrc) (errs : List (Nat × List SymErr)) (c : KpCmd) (key : List Byte) (ctr : Nat) (body : List Byte)
    (w : State), Canonical s →
    (Accepted src 0x20 s c key ctr body w → body.length = 16 →
      let r := readSource w (leAt body 0 8) (leAt body 8 4) none errs
      let err := match loadRefused w with
        | some e => some e
        | none => match r.2.1 with
          | some a => some ⟨0x0B93, noSect, noSect, a % 2 ^ 32⟩
          | none => checkImage r.1 r.2.2 (leAt body 8 4)
      ∃ u, exec (.load src errs) s = .next (keepNext u) ∧ u.ts = s.ts ∧ u.tile = s.tile ∧ u.rd.slots = s.rd.slots
        ∧ (∀ e, err = some e → u.image = s.image ∧ u.kp.ld = w.kp.ld ∧ regF u rLdStatus 15 0 = e.cause % 2 ^ 16
          ∧ regBit u rLdStatus 31 = regBit s rLdStatus 31)
        ∧ (err = none → u.image = none ∧ regBit u rLdStatus 31 = false ∧ regBit u rLdStatus 29 = false ∧ regBit u rLdStatus 30 = true
          ∧ ∃ j, u.kp.ld.job = some j ∧ j.old = s.image ∧ j.dpa = leAt body 0 8 ∧ j.len = leAt body 8 4))
      ∧ (s.kp.ld.job = none → exec (.loadComplete errs) s = .next s)
      ∧ (∀ j, s.kp.ld.job = some j →
        let r := readSource s j.dpa j.len j.file errs
        let b := r.2.2
        (r.2.1 = none → ∃ u, exec (.loadComplete errs) s = .next (keepNext u) ∧ u.kp.ld.job = none
            ∧ regBit u rLdStatus 30 = false
          ∧ (digestsHold j b = true → regBit u rLdStatus 31 = true ∧ regF u rLdStatus 15 0 = 0
            ∧ regBit u rLdStatus 28 = false ∧ u.tile.pick = (writeImage b r.1).tile.pick
            ∧ u.tile.cells = (writeImage b r.1).tile.cells ∧ u.rd.slots = (writeImage b r.1).rd.slots
            ∧ (imgWeightsOnly b = false →
              u.image = some { imgKeep b with progDigest := progDigestOf b, weightDigest := weightDigestOf b })
            ∧ (∀ old, imgWeightsOnly b = true → j.old = some old →
              u.image = some { old with weightDigest := weightDigestOf b }))
          ∧ (digestsHold j b = false → u.image = s.image ∧ u.jobs = {} ∧ regF u rLdStatus 15 0 = 0x0B92))
        ∧ (∀ a, r.2.1 = some a → ∃ u, exec (.loadComplete errs) s = .next (keepNext u) ∧ u.kp.ld.job = none
          ∧ u.image = s.image ∧ u.jobs = {} ∧ regBit u rLdStatus 30 = false ∧ regF u rLdStatus 15 0 = 0x0B93))

/-- The indirect ports of a tile (spec/10 R298, spec/01 R33): outside a run at debug level 2 a write stores four bytes and
marks the image modified, otherwise it is denied; a read shows four bytes; each access that is served advances the address;
a page command makes its page invalid, then writes it whole. -/
def Obligations.TilePorts : Prop :=
  ∀ (t : Nat) (s : State), Canonical s → t < tileCount s → reachable s (rTileIaSel t) = true →
    let a := portAddr s t
    let next := (portAddr s t + 4) % 2 ^ 19
    (∀ v, portTarget s t = 0 → portWritable s = true → ∃ u, exec (.tileIaData t (some v)) s = .next u
        ∧ tsRead u t a 4 = leBytes 4 v.toNat ∧ regF u (rTileIaAddr t) 18 0 = next ∧ regBit u rLdStatus 28 = true
        ∧ regBit u (rTileIaStatus t) 1 = false
        ∧ (∀ k, (k < tsSize * t + a ∨ tsSize * t + a + 4 ≤ k) → sget dByte u.ts k = sget dByte s.ts k) ∧ u.tile = s.tile)
      ∧ (∀ v, portTarget s t = 1 → portWritable s = true → a < 65536 → ∃ u, exec (.tileIaData t (some v)) s = .next u
        ∧ fld (sget dDWord u.tile.pick (pickKey t a)).toNat (a % 8 * 8 + 31) (a % 8 * 8) = v.toNat
        ∧ (∀ k, k ≠ pickKey t a → sget dDWord u.tile.pick k = sget dDWord s.tile.pick k)
        ∧ regF u (rTileIaAddr t) 18 0 = next ∧ u.ts = s.ts)
      ∧ (∀ v, portWritable s = false → ∃ u, exec (.tileIaData t (some v)) s = .next u
        ∧ regBit u (rTileIaStatus t) 1 = true ∧ u.ts = s.ts ∧ u.tile = s.tile ∧ portAddr u t = a)
      ∧ (2 ≤ portTarget s t → (∀ v, portWritable s = true → exec (.tileIaData t (some v)) s = .next s)
        ∧ exec (.tileIaData t none) s = .next { s with readData := 0 })
      ∧ (portTarget s t < 2 → ∃ u, exec (.tileIaData t none) s = .next u ∧ regF u (rTileIaAddr t) 18 0 = next
        ∧ u.readData = (if portsReadable s then BitVec.ofNat 32 (portWord s t) else 0) ∧ u.ts = s.ts ∧ u.tile = s.tile)
      ∧ (∀ m p signed, m < 16 → p < 8 → portWritable s = true → regBit s (rTileIaStatus t) 0 = false →
        ∃ u, exec (.iaPageWrite t m p signed) s = .next u ∧ regBit u (rTileIaStatus t) 0 = true
          ∧ (page u t m p).valid = false ∧ regBit u rLdStatus 28 = true ∧ u.tile.cells = s.tile.cells)
      ∧ (∀ m p, runActive s = false → regBit s (rTileIaStatus t) 0 = false → ∃ u, exec (.iaPageRead t m p) s = .next u
        ∧ regBit u (rTileIaStatus t) 0 = true ∧ regBit u (rTileIaStatus t) 1 = false ∧ u.tile.pages = s.tile.pages)
      ∧ (∀ m p signed, m < 16 → p < 8 → sget (fun _ => none) s.tile.pageCmd t = some (1, m, p, signed) →
        ∃ u, exec (.iaPageDone t) s = .next u ∧ regBit u (rTileIaStatus t) 0 = false
          ∧ (page u t m p).valid = true ∧ (page u t m p).signed = signed
          ∧ (∀ r < 96, pageRow u t m p r = leAt (pageBuffer s t) (32 * r) 32)
          ∧ ∀ k < 16, k ≠ m → ∀ q < 8, page u t k q = page s t k q)
      ∧ (∀ m p sg, sget (fun _ => none) s.tile.pageCmd t = some (2, m, p, sg) → ∃ u, exec (.iaPageDone t) s = .next u
        ∧ regBit u (rTileIaStatus t) 0 = false ∧ u.tile.cells = s.tile.cells ∧ u.tile.pages = s.tile.pages ∧ u.ts = s.ts)

/-- Packets in Reed (spec/07 R195-R208): flits spell a packet and a packet its flits; an endpoint's packet takes its place
in the queue of its source with its whole route, or is discarded with 0x0404 and an error completion when its destination
does not exist or a warp and a weft tile would meet; a credit comes back to its sender; each kind has its effect where it
arrives, the oldest of its source, destination and channel first. Where the padding and the slot tag of a WRITE lie, and
that REG_WR writes 4 bytes, is the model's choice (log entry 90). -/
def Obligations.PacketsInReed : Prop :=
  ∀ (s : State), Canonical s →
    (∀ (p : Packet) (k : Nat), p.dst < 2 ^ 10 → p.src < 2 ^ 10 → p.vc < 8 → p.kind < 32 → p.rtag < 2 ^ 16 → p.addr < 2 ^ 32 →
      p.chan < 2 ^ 16 → k ≤ 16 → p.payload.length = 16 * k → p.poison = false → p.way = [] → p.hubAt = none →
      readFlits (headerFlit p ++ p.payload) = some p)
      ∧ (∀ src dst, nodeOk s src = true → nodeOk s dst = true →
        (routeOf src dst).head?.map (·.node) = some (endNode src) ∧ (routeOf src dst).getLast?.map (·.node) = some (endNode dst))
      ∧ (∀ dst src kind rtag addr chan payload ecc,
        let flits := issueFlits dst src kind rtag addr chan payload
        let sent := exec (.packetInjection dst src kind rtag addr chan payload ecc) s
        (readFlits flits = none → sent = .next s)
        ∧ ∀ p, readFlits flits = some p →
          (issuable s p = false → sent = .next s)
          ∧ (issuable s p = true → packetOk s p = true →
            ∃ u, sent = .next u ∧ (ecc = 0 → u.rd.packets = s.rd.packets ++ [routed s p])
              ∧ (ecc = 2 → u.rd.packets = s.rd.packets ++ [routed s { p with poison := true }]
                ∧ Raised u 0x0401 noSource)
              ∧ (p.kind = kRegRd → awaitsRead u p.src p.rtag = true) ∧ (p.kind ≠ kRegRd → u.rd.reads = s.rd.reads)
              ∧ u.ts = s.ts ∧ u.bb = s.bb ∧ u.weft = s.weft ∧ (ecc = 0 → u.regs = s.regs))
          ∧ (issuable s p = true → packetOk s p = false →
            ∃ u, sent = .next u ∧ u.rd.packets = s.rd.packets ∧ Raised u 0x0404 p.src
              ∧ Counted s u rRdDropCnt 1
              ∧ (p.kind = kRegRd → (⟨p.src, p.rtag, some (0x0404, 0)⟩ : RegRead) ∈ u.rd.reads)
              ∧ (∀ k, p.kind = kShReq → ticket s p.src p.addr = some k → (ticket u p.src p.addr).map (·.status) = some (some 0x0404))
              ∧ u.ts = s.ts ∧ u.bb = s.bb))
      ∧ (∀ n vc, vc < 6 → nodeOk s n = true →
        let k := injectKey n vc
        (creditsUsed s k = 0 → ∃ u, exec (.creditReturn n vc) s = .next u ∧ Raised u 0x0405 (k / 512)
          ∧ u.rd.credits = s.rd.credits ∧ u.rd.packets = s.rd.packets)
        ∧ (creditsUsed s k ≠ 0 → exec (.creditReturn n vc) s = .next { s with rd := { s.rd with
            wires := s.rd.wires.eraseP (fun w => w.1 == k)
            credits := sset dNat k (creditsUsed s k - 1) s.rd.credits } }))
      ∧ (∀ src dst p ecc, dst < tileCount s →
        (arriving s src dst 0 kWrite = some p → p.poison = false →
          let bs := p.payload.take (16 * payloadFlits p - p.rtag / 32 % 16)
          p.addr + bs.length ≤ tsSize →
          ∃ u, exec (.write src ⟨dst, 0⟩) s = .next u ∧ tsRead u dst p.addr bs.length = bs
            ∧ (∀ k, (k < tsSize * dst + p.addr ∨ tsSize * dst + p.addr + bs.length ≤ k) → sget dByte u.ts k = sget dByte s.ts k)
            ∧ (bitN p.rtag 4 = true → sget dSide u.tile.side (2 ^ 18 * dst + p.addr / 2) = ⟨true, p.rtag % 16⟩)
            ∧ (bitN p.rtag 4 = false → u.tile = s.tile)
            ∧ u.rd.packets = s.rd.packets.erase p ∧ u.regs = s.regs)
          ∧ (arriving s src dst 0 kToken = some p → ∃ u, exec (.token src ⟨dst, ecc⟩) s = .next u
            ∧ (chanSt u (core s dst).prog p.chan).waiting = (chanSt s (core s dst).prog p.chan).waiting + 1
            ∧ (chanSt u (core s dst).prog p.chan).credits = (chanSt s (core s dst).prog p.chan).credits
            ∧ u.rd.packets = s.rd.packets.erase p ∧ u.ts = s.ts)
          ∧ (arriving s src dst 1 kCredit = some p → ∃ u, exec (.credit src ⟨dst, ecc⟩) s = .next u
            ∧ (chanSt u (core s dst).prog p.chan).credits = (chanSt s (core s dst).prog p.chan).credits + 1
            ∧ (chanSt u (core s dst).prog p.chan).waiting = (chanSt s (core s dst).prog p.chan).waiting
            ∧ u.rd.packets = s.rd.packets.erase p ∧ u.ts = s.ts))
      ∧ (∀ src dst p,
        let w := { s with rd := { s.rd with packets := s.rd.packets.erase p } }
        (arriving s src dst 3 kRegWr = some p → p.poison = false →
          exec (.regWr src ⟨dst, 0⟩) s = .next (regWrite w p.addr (BitVec.ofNat 32 (leAt p.payload 0 4))))
          ∧ (arriving s src dst 3 kRegRd = some p → queuedAt s dst kRegResp = 0 →
            let r := regRead w p.addr
            let q : Packet := { dst := src, src := dst, vc := 4, kind := kRegResp, rtag := p.rtag, addr := p.addr, chan := 0,
                                payload := leBytes 4 r.2.toNat }
            exec (.regRd src ⟨dst, 0⟩) s = .next (inject r.1 q))
          ∧ (queuedAt s dst kRegResp ≠ 0 → exec (.regRd src ⟨dst, 0⟩) s = .next s)
          ∧ (arriving s src dst 4 kRegResp = some p → p.poison = false → exec (.regResp src ⟨dst, 0⟩) s = .next
            (setRead { w with readData := BitVec.ofNat 32 (leAt p.payload 0 4) } dst p.rtag (some (0, leAt p.payload 0 4))))
          ∧ (arriving s src dst 5 kTelemetry = some p → exec (.telemetry src ⟨dst, 0⟩) s = .next w
            ∧ exec (.telemetry src ⟨dst, 1⟩) s = .next (countUpF w rRdEccCnt 15 0 1)
            ∧ exec (.telemetry src ⟨dst, 2⟩) s = .next (countUpF (raise w 0x0401 noSource 0) rRdEccCnt 31 16 1)))
      ∧ (∀ src dst ecc, dst < tileCount s →
        (∀ q ∈ [(Instr.write src ⟨dst, ecc⟩, 0, kWrite), (.token src ⟨dst, ecc⟩, 0, kToken), (.credit src ⟨dst, ecc⟩, 1, kCredit),
            (.regWr src ⟨dst, ecc⟩, 3, kRegWr), (.regRd src ⟨dst, ecc⟩, 3, kRegRd), (.regResp src ⟨dst, ecc⟩, 4, kRegResp),
            (.telemetry src ⟨dst, ecc⟩, 5, kTelemetry)],
          arriving s src dst q.2.1 q.2.2 = none → exec q.1 s = .next s))

/-- A shuttle moves its units (spec/09 R271-R273, spec/07 R202, R204): the oldest request that has reached the engine
starts its ticket when the engine has room for a response; a unit whose turn it is is copied once between tile store and
DDR4, its response goes back, and the ticket completes when every response has come, with the error of the failed unit of
lowest destination. Whose turn it is where R272 leaves it open is the model's choice (log entry 91). -/
def Obligations.ShuttlesMoveData : Prop :=
  ∀ (t n i : Nat) (x : UnitEnv) (s : State), Canonical s → t < tileCount s →
    let v := startTicket s t n x.flit
    let mine := fun a : Nat => biased s a = false ∨ pageBias s (a / 4096) = true ∨ memEn s = false
    (∀ p k, arriving s t (engineNode t) 0 kShReq = some p → p.addr = n → p.poison = false → x.flit = 0 → ticket s t n = some k →
        (queuedAt s (engineNode t) kShResp = 0 → ticket v t n = some { k with started := true }
          ∧ v.rd.packets = s.rd.packets.erase p)
        ∧ (queuedAt s (engineNode t) kShResp ≠ 0 → v = s))
      ∧ (∀ k src dst, ticket v t n = some k → (shUnits v t (shDesc k.desc))[i]? = some (src, dst) → k.started = true →
        unitOpen v k i = true → operating s = true →
        (∀ sv, unitServer v src dst = some sv → serveTurn v sv (flowOf v k.job).1 = none → exec (.shuttleReq t n i x) s = .next v)
        ∧ ((∀ sv, unitServer v src dst = some sv → serveTurn v sv (flowOf v k.job).1 ≠ none) →
          (shSpace src = 0 → shSpace dst = 1 → mine (dst % 2 ^ 60) → ∃ u, exec (.shuttleReq t n i x) s = .next u
            ∧ memBytes u (dst % 2 ^ 60) 64 = tsRead s t src 64
            ∧ (∀ b, (b < dst % 2 ^ 60 ∨ dst % 2 ^ 60 + 64 ≤ b) → sget dByte u.bb.mem b = sget dByte s.bb.mem b)
            ∧ (∃ q, ticket u t n = some q ∧ q.units = k.units ++ [(i, 0)])
            ∧ (∃ p, u.rd.packets = v.rd.packets ++ [p] ∧ p.kind = kShResp ∧ p.dst = t ∧ p.addr = i) ∧ u.ts = s.ts)
          ∧ (shSpace src = 1 → shSpace dst = 0 → mine (src % 2 ^ 60) → src % 64 = 0 → dst + 64 ≤ tsSize → x.errs = [] →
            lineBad s (src % 2 ^ 60 / 64) = false → ∃ u, exec (.shuttleReq t n i x) s = .next u
            ∧ tsRead u t dst 64 = memBytes s (src % 2 ^ 60) 64
            ∧ (∀ b, (b < tsSize * t + dst ∨ tsSize * t + dst + 64 ≤ b) → sget dByte u.ts b = sget dByte s.ts b)
            ∧ (∃ q, ticket u t n = some q ∧ q.units = k.units ++ [(i, 0)]) ∧ u.bb.mem = s.bb.mem)))
      ∧ (∀ k, ticket v t n = some k → (k.started = false ∨ unitOpen v k i = false ∨ operating s = false) →
        exec (.shuttleReq t n i x) s = .next v)
      ∧ (∀ p k, arriving s (engineNode t) t 1 kShResp = some p → p.rtag = n % 2 ^ 16 → p.addr = i →
        ticket s t n = some k → ∃ u q, exec (.shuttleResp ⟨t, 0⟩ n i) s = .next u ∧ u.rd.packets = s.rd.packets.erase p
          ∧ ticket u t n = some q ∧ q.acked = k.acked ++ [i] ∧ q.units = k.units ∧ u.regs = s.regs)
      ∧ (∀ k, ticket s t n = some k → k.status = none → k.started = true → operating s = true →
        let us := shUnits s t (shDesc k.desc)
        ((∀ j < us.length, j ∈ k.acked) → ∃ u q, exec (.shuttleTicketComplete t n) s = .next u ∧ ticket u t n = some q
            ∧ q.status = some (ticketStatus us k.units)
            ∧ ((∀ e ∈ k.units, e.2 = 0) → ticketStatus us k.units = 0 ∧ u.ob = s.ob)
            ∧ (ticketStatus us k.units ≠ 0 → Raised u (ticketStatus us k.units) t))
          ∧ ((∃ j < us.length, j ∉ k.acked) → exec (.shuttleTicketComplete t n) s = .next s))

/-- The queues of weft jobs (spec/09 R252, R253, R259, R264, R265, R274, R280): ring indices, a descriptor fetched into the
queue of its stream or a stream halted, a completion record written, counted and held until the host releases it, a
reservation, the answer to resume, and the descriptors of a stream that is being aborted, which complete without running.
How held records are counted, and that DESCRIPTOR_FETCH fetches the ring of an aborted stream, is the model's choice (log
entries 25, 42). -/
def Obligations.JobQueues : Prop :=
  ∀ (n : Nat) (s : State) (x : UnitEnv), Canonical s → n < 16 →
    (∀ v, released s 3 = true → ∃ u, exec (.wfSqProd n v) s = .next u ∧ sqProd u n = v % 2 ^ 16 ∧ u.sched = s.sched
        ∧ ∀ m < 16, m ≠ n → sqProd u m = sqProd s m)
      ∧ (∀ v, released s 3 = true → swf dNat s.sched.cqHeld = true → ∃ u, exec (.wfCqCons n v) s = .next u
        ∧ cqCons u n = v % 2 ^ 16 ∧ regBit u (rWfQStatus n) 29 = cqFull u n
        ∧ cqHeld u n = (cqProd s n % 2 ^ cqLog2 s n + 2 ^ cqLog2 s n - v % 2 ^ cqLog2 s n) % 2 ^ cqLog2 s n
        ∧ (∀ m, m ≠ n → cqHeld u m = cqHeld s m) ∧ u.sched = { s.sched with cqHeld := u.sched.cqHeld })
      ∧ (∀ v, released s 3 = true → ∃ u, exec (.wfPos n v) s = .next u ∧ u.sched = s.sched
        ∧ regF u (rWfPos n) 20 0 = (if s.sched.running.any (fun r => r.members.any (fun j => j.stream == n && descAdvance j.desc))
          then regF s (rWfPos n) 20 0 else v % 2 ^ 21))
      ∧ (operating s = true → abortTo s n = none → queueEn s n = true → sqProd s n ≠ sqCons s n → jobsQueued s n < 64 →
        (∀ y d, ringRead s (sqAddr s n (sqCons s n)) x = (y, some d) → ∃ u j, exec (.descriptorFetch n x) s = .next u
            ∧ u.sched.queue = s.sched.queue ++ [j] ∧ j.stream = n ∧ j.desc = d ∧ j.auto = false
            ∧ j.done = (if descOk s d then none else some 0x0340)
            ∧ sqCons u n = ringNext (sqLog2 s n) (sqCons s n) % 2 ^ 16)
          ∧ (∀ y, ringRead s (sqAddr s n (sqCons s n)) x = (y, none) → ∃ u, exec (.descriptorFetch n x) s = .next u
            ∧ u.sched.queue = s.sched.queue ∧ halted u n = true ∧ Raised u 0x0348 n))
      ∧ (∀ p, operating s = true → abortTo s n = some p → sqCons s n ≠ p →
        sqCons s n ≠ ringNext (sqLog2 s n) (sqCons s n) % 2 ^ 16 →
        (∀ y d, ringRead s (sqAddr s n (sqCons s n)) x = (y, some d) → ∃ u j, exec (.descriptorFetch n x) s = .next u
            ∧ u.sched.queue = s.sched.queue ++ [j] ∧ j.stream = n ∧ j.desc = d ∧ j.done = some 0x030E
            ∧ sqCons u n = ringNext (sqLog2 s n) (sqCons s n) % 2 ^ 16
            ∧ (sqCons u n = p → halted u n = true ∧ abortTo u n = none ∧ regBit u (rWfQCtrl n) 0 = false))
          ∧ (∀ y, ringRead s (sqAddr s n (sqCons s n)) x = (y, none) → ∃ u, exec (.descriptorFetch n x) s = .next u
            ∧ u.sched.queue = s.sched.queue ∧ halted u n = true ∧ abortTo u n = none ∧ Raised u 0x0348 n))
      ∧ (∀ c y, operating s = true → swf dNat s.sched.cqHeld = true →
        s.sched.completions.filter (fun d => d.stream == n) = [c] →
        (∀ j ∈ s.sched.queue, ¬(j.stream = n ∧ j.num < c.num)) →
        (∀ r ∈ s.sched.running, ∀ j ∈ r.members, ¬(j.stream = n ∧ j.num < c.num)) → cqFull s n = false →
        (ringWrite s (reg64 s (rWfCqBase n) + 32 * (cqProd s n % 2 ^ cqLog2 s n)) c.bytes x = (y, true) →
          ∃ u, exec (.completionRecord n x) s = .next u ∧ u.bb.mem = y.bb.mem ∧ u.cx.hostOut = y.cx.hostOut
            ∧ u.sched.completions = s.sched.completions.filter (fun d => d.num != c.num)
            ∧ cqProd u n = ringNext (cqLog2 s n) (cqProd s n) % 2 ^ 16 ∧ Counted s u (rWfQDone n) 1
            ∧ cqHeld u n = cqHeld s n + 1)
        ∧ (ringWrite s (reg64 s (rWfCqBase n) + 32 * (cqProd s n % 2 ^ cqLog2 s n)) c.bytes x = (y, false) →
          ∃ u, exec (.completionRecord n x) s = .next u ∧ halted u n = true ∧ u.sched = s.sched))
      ∧ (∀ j, regF s rWfAgeLimit 15 0 ≠ 0 → reservedJob s = none → queueHead s n = some j →
        ∃ u, exec (.reservedJob n) s = .next u ∧ u.sched = { s.sched with reserved := some j.num } ∧ u.regs = s.regs)
      ∧ (released s 3 = true → ∃ u, exec (.resume n) s = .next u ∧ halted u n = false ∧ u.sched = s.sched)

/-- The life of a weft job (spec/09 R254, R257-R262, R265, R266): the only waiting job is admitted when nothing blocks it
and its energy fits, and its tiles start at the entry of its program; a raise of energy is granted when it fits; a job ends
with a record for each member and its energy returned; a trap, a limit and an abort stop it, and its stream is halted, by
an abort once every descriptor of its ring is fetched. That admission waits while a raise waits is the model's choice (log
entry 91). -/
def Obligations.JobsRunAndEnd : Prop :=
  ∀ (s : State), Canonical s →
    (∀ n j p, n < 16 → streamQueue s n = [j] → (∀ m < 16, m ≠ n → streamQueue s m = []) → j.done = none →
      descAdvance j.desc = false → regBit s rWfCtrl 0 = true → queueEn s n = true → progOf s (descProg j.desc) = some p →
      p.batch = false → blockedBy s n j = none → reservedJob s = none → operating s = true → raiseWaits s = false → regBit s rWfBudget 31 = false →
      granted s + needMw s j (descClass j.desc) ≤ regF s rWfBudget 23 0 → j ∈ s.sched.queue →
      ∃ u, exec .jobAdmission s = .next u ∧ streamQueue u n = [] ∧ u.sched.last = j.stream
        ∧ granted u = granted s + needMw s j (descClass j.desc)
        ∧ (∃ r, u.sched.running = s.sched.running ++ [r] ∧ r.num = j.num ∧ r.members = [j] ∧ r.tiles = p.tiles)
        ∧ ∀ t ∈ p.tiles, (core u t).state = coreRunning ∧ (core u t).pc = p.entry ∧ (core u t).job = j.num
          ∧ (core u t).eclass = descClass j.desc
          ∧ (p.argBase + 64 ≤ tsSize → getS u t 1 = p.argBase ∧ tsRead u t p.argBase 64 = argBlock s j))
      ∧ (regBit s rWfCtrl 0 = false → (∀ m < 16, ∀ j ∈ streamQueue s m, j.done = none ∧ descAdvance j.desc = false) →
        exec .jobAdmission s = .next s)
      ∧ (∀ t k, t < tileCount s → (core s t).raiseTo = some k → (core s t).state ≠ coreStopping →
        (regBit s rWfBudget 31 = false → granted s + classMw s k - classMw s (core s t).eclass ≤ regF s rWfBudget 23 0 →
          ∃ u, exec (.energyGrant t) s = .next u ∧ (core u t).eclass = k ∧ (core u t).raiseTo = none
            ∧ (core u t).pc = (core s t).pc + 1 ∧ granted u = granted s + classMw s k - classMw s (core s t).eclass)
        ∧ ((regBit s rWfBudget 31 = true ∨ regF s rWfBudget 23 0 < granted s + classMw s k - classMw s (core s t).eclass) →
          exec (.energyGrant t) s = .next s))
      ∧ (∀ t r, t < tileCount s → runningOn s t = some r → (∀ j ∈ r.members, j.stream < 16) →
        let gone := s.sched.running.filter (fun q => q.num != r.num)
        let left := granted s - (r.grant.map (·.2)).sum
        (allEnded s r = true → ∃ u, exec (.jobEnd t) s = .next u ∧ u.sched.running = gone ∧ granted u = left
            ∧ u.sched.completions = s.sched.completions
              ++ r.members.map (fun j => ⟨j.num, j.stream, jobRecord s r j 0, descIrq j.desc⟩) ∧ u.ts = s.ts)
          ∧ (allEnded s r = false → exec (.jobEnd t) s = .next s)
          ∧ (∀ st, r.stop = some st → st ≠ 0 → (∀ q ∈ r.tiles, openTickets s q = []) → sendsOpen s r = false → allEnded s r = false →
            ∃ u, exec (.jobTrapEnd t) s = .next u ∧ u.sched.running = gone ∧ granted u = left
              ∧ u.sched.completions.map (fun c => (c.num, c.stream)) = s.sched.completions.map (fun c => (c.num, c.stream))
                ++ r.members.map (fun j => (j.num, j.stream))
              ∧ (∀ j ∈ r.members, regBit s (rWfQCfg j.stream) 29 = false → halted u j.stream = true))
          ∧ (r.stop = none → (∃ j ∈ r.members, leAt j.desc 6 2 ≠ 0) → ∃ u, exec (.jobTimeLimit t) s = .next u
            ∧ (∀ q ∈ u.sched.running, q.num = r.num → q.stop ≠ none) ∧ (∃ src, Raised u 0x0341 src)
            ∧ ∀ q, (core s q).state = coreEnded → (core u q).state = coreEnded))
      ∧ (∀ n xs, n < 16 → released s 3 = true → ∃ u, exec (.abort n xs) s = .next u
        ∧ (∀ q ∈ u.sched.running, (∃ j ∈ q.members, j.stream = n) → q.stop ≠ none)
        ∧ (sqProd s n = sqCons s n → streamQueue u n = [] ∧ halted u n = true ∧ regBit u (rWfQCtrl n) 0 = false)
        ∧ (sqProd s n ≠ sqCons s n → xs = [] → streamQueue u n = [] ∧ abortTo u n = some (sqProd s n)
          ∧ regBit u (rWfQCtrl n) 0 = true))

/-- The life of a peer port (spec/14 R385, R387, R388, R390): EN starts training, the partner on which 64 TRAIN bolts in a
row agree on all four lanes brings the port UP, one with this device's own DEVID brings it DOWN; it comes UP with fresh
sequence numbers and credits, and a port that is turned off, fails to train, loses its lanes or replays eight times in a
row loses its replay buffer, its queues, the units that wait on it and the route table. The moment after eight replays and
that of a DEVID conflict are the model's choice (log entry 97). -/
def Obligations.PeerPorts : Prop :=
  ∀ (p : Nat) (s : State), Canonical s → p < 8 →
    let x := port s p
    let lost := fun u : State => (port u p).unacked = [] ∧ (port u p).txq = [] ∧ (port u p).rxq = []
      ∧ (port u p).slot = x.slot ∧ (∀ w ∈ u.kw.waits, w.port ≠ p) ∧ u.kw.route = [] ∧ ∀ q < 8, q ≠ p → port u q = port s q
    let down := fun (c : Instr) (k : Nat) =>
      ∃ u, exec c s = .next u ∧ portState u p = 3 ∧ lost u ∧ regBit u rKwFault k = true
    (∀ v, released s 7 = true → regBit s (rKwPortCfg p) 31 = false → wbit v 31 = true → ∃ u, exec (.portTrain p v) s = .next u
        ∧ reg u (rKwPortCfg p) = v &&& 0xFF0F0FFF#32 ∧ portState u p = 1 ∧ u.kw = s.kw)
      ∧ (∀ v, released s 7 = true → regBit s (rKwPortCfg p) 31 = true → wbit v 31 = false → ∃ u, exec (.portOff p v) s = .next u
        ∧ regBit u (rKwPortCfg p) 31 = false ∧ regBit u (rKwPortCfg p) 30 = wbit v 30 ∧ portState u p = 0 ∧ lost u)
      ∧ (∀ dev pp, portState s p = 1 → agreed x = some (dev, pp) → ∃ u, exec (.portUp p dev pp) s = .next u ∧ portState u p = 2
        ∧ partner u p = dev % 4096 ∧ regBit u (rKwPortPartner p) 31 = true ∧ regF u (rKwPortPartner p) 18 16 = pp % 8
        ∧ (port u p).next = 0 ∧ (port u p).expect = 0 ∧ (port u p).unacked = [] ∧ (port u p).sent = [0, 0, 0, 0]
        ∧ (port u p).freed = [0, 0, 0, 0] ∧ u.ob = s.ob)
      ∧ (∀ dev pp, (portState s p ≠ 1 ∨ agreed x ≠ some (dev, pp)) → exec (.portUp p dev pp) s = .next s)
      ∧ (∀ j tag bits pp, portState s p = 1 → j < 4 →
        let r := boltReceive true (x.descr.getD j 0) (bits.map (fun b => b != regBit s (rKwPortCfg p) (16 + j)))
        let named := (leAt r.payload 12 2 % 4096, leAt r.payload 14 1 % 8)
        let lane := trainOn (sget dTrain x.train j) (some named)
        r.lost = none → crc32 (r.payload.take 252) = leAt r.payload 252 4 → leAt r.payload 4 1 % 4 = 2 →
        leAt r.payload 5 1 % 16 = 1 → agreed { x with train := sset dTrain j lane x.train } = some (devId s, pp) →
        down (.peerBolt p j tag bits) 13)
      ∧ (portState s p = 1 → down (.portTrainFail p) 1)
      ∧ (portState s p = 3 → regBit s (rKwPortCfg p) 30 = true → regBit s (rKwPortCfg p) 31 = true →
        ∃ u, exec (.portRetrain p) s = .next u ∧ portState u p = 1 ∧ u.kw = s.kw ∧ u.ob = s.ob)
      ∧ (portState s p = 2 → down (.portDown p) 2)
      ∧ (portState s p ≠ 2 → exec (.portDown p) s = .next s ∧ exec (.replayTimeout p) s = .next s)
      ∧ (portState s p = 2 → (x.unacked = [] → exec (.replayTimeout p) s = .next s)
        ∧ (∀ o os, x.unacked = o :: os → x.replays < 8 → ∃ u, exec (.replayTimeout p) s = .next u
          ∧ port u p = { x with resend := some o.seq, replays := x.replays + 1 } ∧ Counted s u (rKwPortReplay p) 1
          ∧ u.ob = s.ob)
        ∧ (x.unacked ≠ [] → 8 ≤ x.replays → down (.replayTimeout p) 4))

/-- The bolts of a peer port (spec/14 R381-R387, R391): a slot sends a TRAIN bolt, a replayed bolt, the next messages of
the virtual lane that comes first, or an IDLE bolt, which also takes the place of bulk in a bubble; an UP port takes its
lanes in turn: a DATA bolt in order gives its messages, a duplicate is silent, a bolt with a bad CRC or out of order is
counted and asks once for a replay, and the fourth header missed in a row on a lane brings the port DOWN. That a bolt which
cannot be read counts as a rejected DATA bolt is the model's choice (log entry 97). -/
def Obligations.PeerBolts : Prop :=
  ∀ (p : Nat) (s : State), Canonical s → p < 8 →
    let x := port s p
    let j := x.slot % 4
    let line := fun (u : State) (pl : List Byte) => (port u p).slot = x.slot + 1
      ∧ (port u p).txBits = (boltLine true (x.scr.getD j 0) pl).1.map (fun b => b != regBit s (rKwPortCfg p) (16 + j))
    (∀ tag, portState s p = 1 → ∃ u, exec (.portSlotTransmit p tag) s = .next u ∧ line u (peerPayload x 0 2 false 0
        (leBytes 2 (devId s) ++ leBytes 1 p ++ leBytes 1 j ++ zeros 12)) ∧ u.regs = s.regs)
      ∧ (∀ tag, portState s p ≠ 1 → portState s p ≠ 2 → exec (.portSlotTransmit p tag) s = .next s)
      ∧ (∀ tag, portState s p = 2 → x.resend = none →
        (pickVl x = none → ∃ u, exec (.portSlotTransmit p tag) s = .next u ∧ line u (peerPayload x 0 1 false 0 [])
            ∧ (port u p).unacked = x.unacked ∧ (port u p).next = x.next ∧ u.regs = s.regs)
          ∧ (∀ v, pickVl x = some v → v ≠ 0 → peerBubble s x = true → ∃ u, exec (.portSlotTransmit p tag) s = .next u
            ∧ line u (peerPayload x 0 1 false 0 []) ∧ (port u p).txq = x.txq ∧ u.regs = s.regs)
          ∧ (∀ v, pickVl x = some v → (v = 0 ∨ peerBubble s x = false) → x.sent.length = 4 → ∃ u, exec (.portSlotTransmit p tag) s = .next u
            ∧ (port u p).slot = x.slot + 1 ∧ (port u p).next = (x.next + 1) % 65536 ∧ (port u p).txq = (packBody v 240 x.txq).2
            ∧ (port u p).unacked = x.unacked ++ [⟨x.next, v, (packBody v 240 x.txq).1⟩]
            ∧ (port u p).sent.getD v 0 = (x.sent.getD v 0 + 1) % 256
            ∧ regF u (rKwPortStatus p) 8 0 = x.unacked.length + 1))
      ∧ (∀ tag o, portState s p = 2 → x.unacked.find? (fun q => x.resend == some q.seq) = some o →
        ∃ u, exec (.portSlotTransmit p tag) s = .next u ∧ (port u p).slot = x.slot + 1 ∧ (port u p).unacked = x.unacked
          ∧ (port u p).txq = x.txq ∧ (port u p).next = x.next ∧ u.regs = s.regs)
      ∧ (∀ k tag bits, portState s p = 2 → k ≠ x.rxLane → exec (.peerBolt p k tag bits) s = .next s)
      ∧ (∀ tag bits, portState s p = 2 → x.rxLane < 4 → swf dNat x.missed = true →
        let k := x.rxLane
        let r := boltReceive true (x.descr.getD k 0) (bits.map (fun b => b != regBit s (rKwPortCfg p) (16 + k)))
        let pl := r.payload
        let back := (x.expect + 65536 - leAt pl 0 2) % 65536
        let vl := fld (leAt pl 4 1) 5 4
        let body := slice pl 12 (16 * (leAt pl 5 1 % 16))
        let bad := r.lost ≠ none ∨ crc32 (pl.take 252) ≠ leAt pl 252 4
        let data := leAt pl 4 1 % 8 = 0 ∧ x.unacked = []
          ∧ (List.range 4).map (fun v => leAt pl (6 + v) 1) = x.theirFreed
        let rejected := fun u : State => Counted s u (rKwPortRej p) 1 ∧ Raised u 0x0703 p ∧ (port u p).rxq = x.rxq
          ∧ (port u p).expect = x.expect ∧ (port u p).nakDone = true ∧ (port u p).nakDue = (x.nakDue || !x.nakDone)
        let gone := 0x0101 ∈ r.causes ∧ 3 ≤ sget dNat x.missed k
        ∃ u, exec (.peerBolt p k tag bits) s = .next u
          ∧ (gone → portState u p = 3 ∧ regBit u rKwFault 2 = true ∧ (port u p).rxq = [])
          ∧ (¬gone → (bad ∨ data) → (port u p).rxLane = (k + 1) % 4 ∧ regBit u (rKwPortStatus p) (16 + k)
            = (if 0x0101 ∈ r.causes then regBit s (rKwPortStatus p) (16 + k) else true))
          ∧ (¬gone → bad → rejected u)
          ∧ (¬gone → ¬bad → data → 256 < back → rejected u)
          ∧ (¬gone → ¬bad → data → 0 < back → back ≤ 256 → (port u p).rxq = x.rxq ∧ (port u p).expect = x.expect
            ∧ reg u (rKwPortRej p) = reg s (rKwPortRej p) ∧ u.ob = s.ob)
          ∧ (¬gone → ¬bad → data → leAt pl 0 2 = x.expect → (port u p).expect = (x.expect + 1) % 65536
            ∧ (port u p).nakDone = false
            ∧ (port u p).rxq.map (fun m => m.bytes) = x.rxq.map (fun m => m.bytes) ++ (parseBody s vl 16 body).1
            ∧ ((parseBody s vl 16 body).2 = false → u.ob = s.ob)))

/-- Messages between peers (spec/14 R395, R396, R398): an EVENT enters the event ring or is dropped; a MEM_WR writes its
line and is acknowledged, a MEM_RD is answered with its line, both once their answer has a buffer, and both are refused and
counted outside regions of their kinds; an answer ends the wait of its unit. The number of these buffers is the model's
choice (log entry 97). -/
def Obligations.PeerMessages : Prop :=
  ∀ (p : Nat) (s w : State) (m : PeerRx), Canonical s → p < 8 →
    let a := msgDpa m.bytes
    let kept := fun (u : State) (lo : Nat) => ∀ k, (k < lo ∨ lo + 64 ≤ k) → sget dByte u.bb.mem k = sget dByte s.bb.mem k
    let answer := fun (u : State) (ty fl st : Nat) (data : List Byte) => portState s p = 2 → (port u p).txq = (port s p).txq
      ++ [(3, msgHead ty fl (16 + data.length) (devId s) (leAt m.bytes 4 2 % 4096)
        (leBytes 2 st ++ zeros 4 ++ leBytes 2 (leAt m.bytes 14 2)) ++ data)]
    let done := fun (u : State) (k : PeerWait) (st : Nat) => u.kw.waits = s.kw.waits.erase k
      ∧ u.weft.tickets = (mapTicket s k.tile k.num (fun y => { y with units := y.units ++ [(k.unit, st)] })).weft.tickets
    let waits := fun (k : PeerWait) (read : Bool) =>
      s.kw.waits.find? (fun q => q.port == p && q.rtag == leAt m.bytes 14 2 && q.read == read) = some k
    (nextMsg s p 1 0x10 = some (m, w) →
        let prod := (reg s (rKwEvProd p)).toNat
        let full := (prod + 2 ^ 32 - (reg s (rKwEvCons p)).toNat) % 2 ^ 32 = evSize s p
        let slot := reg64 s (rKwEvBase p) + 64 * (prod % evSize s p)
        (regBit s (rKwEvCfg p) 31 = true → ¬full → ∃ u, exec (.event p) s = .next u ∧ memBytes u slot 64 = slice m.bytes 16 64
            ∧ kept u slot ∧ (reg u (rKwEvProd p)).toNat = (prod + 1) % 2 ^ 32 ∧ (slot % 64 = 0 → u.ob = s.ob))
          ∧ ((regBit s (rKwEvCfg p) 31 = false ∨ full) → ∃ u, exec (.event p) s = .next u ∧ u.bb.mem = s.bb.mem
            ∧ reg u (rKwEvProd p) = reg s (rKwEvProd p) ∧ Counted s u (rKwEvDrop p) 1))
      ∧ (∀ errs, answerRoom s p = false → exec (.memWr p) s = .next s ∧ exec (.memRd p errs) s = .next s)
      ∧ (answerRoom s p = true → nextMsg s p 2 0x20 = some (m, w) →
        (kindAt s a 64 = some 3 ∨ kindAt s a 64 = some 4 → ∃ u, exec (.memWr p) s = .next u
            ∧ memBytes u a 64 = slice m.bytes 16 64 ∧ kept u a ∧ (a % 64 = 0 → u.ob = s.ob) ∧ answer u 0x30 0 0 [])
          ∧ (kindAt s a 64 ≠ some 3 → kindAt s a 64 ≠ some 4 → ∃ u, exec (.memWr p) s = .next u ∧ u.bb.mem = s.bb.mem
            ∧ Raised u 0x0707 p ∧ Counted s u rBbRefusedCnt 1 ∧ answer u 0x30 0 0x0707 []))
      ∧ (∀ errs, answerRoom s p = true → nextMsg s p 2 0x21 = some (m, w) →
        let r := lineRead s (a / 64) errs
        ((∃ k, kindAt s a 64 = some k ∧ 1 ≤ k ∧ k ≤ 4) → ∃ u, exec (.memRd p errs) s = .next u
            ∧ (r.bad = false → answer u 0x31 0 0 (padTo 64 r.bytes)) ∧ (r.bad = true → answer u 0x31 1 0x0604 (padTo 64 r.bytes)))
          ∧ (¬(∃ k, kindAt s a 64 = some k ∧ 1 ≤ k ∧ k ≤ 4) → ∃ u, exec (.memRd p errs) s = .next u ∧ u.bb.mem = s.bb.mem
            ∧ Raised u 0x0707 p ∧ Counted s u rBbRefusedCnt 1 ∧ answer u 0x31 0 0x0707 (zeros 64)))
      ∧ (∀ k, nextMsg s p 3 0x30 = some (m, w) → waits k false → ∃ u, exec (.wrAck p) s = .next u
        ∧ done u k (if leAt m.bytes 8 2 = 0 then 0 else 0x0346) ∧ u.bb.mem = s.bb.mem ∧ u.ts = s.ts)
      ∧ (∀ k x, nextMsg s p 3 0x31 = some (m, w) → waits k true →
        let poison := bitN (leAt m.bytes 1 1) 0
        (leAt m.bytes 8 2 = 0 → poison = false → shSpace k.dst = 0 → k.dst + 64 ≤ tsSize → ∃ u, exec (.rdData p x) s = .next u
            ∧ done u k 0 ∧ tsRead u k.tile k.dst 64 = slice m.bytes 16 64 ∧ u.bb.mem = s.bb.mem)
          ∧ (leAt m.bytes 8 2 ≠ 0 → poison = false → ∃ u, exec (.rdData p x) s = .next u ∧ done u k 0x0346 ∧ u.ts = s.ts
            ∧ u.bb.mem = s.bb.mem))

/-- Time cross-checks and farm power (spec/14 R399-R405, spec/16 R465): each port that is UP sends its times, the four
times of an exchange give offset and delay and the comparison with the limit; scores go to the root, where the coordinator
pairs devices; a grant of a newer epoch within the limits and under the farm key sets the cap, and any other is refused;
while Keep is occupied a grant waits. -/
def Obligations.FarmAndTime : Prop :=
  ∀ (p : Nat) (s : State), Canonical s → p < 8 →
    let taken := fun (v ty : Nat) (m : PeerRx) => ∃ w, nextMsg s p v ty = some (m, w)
    (runActive s = true → s.tb.tick % 2 ^ tcLog2 s = 0 → ∃ u, exec .timeCheckSend s = .next u ∧ u.regs = s.regs
        ∧ ∀ q < 8, (portState s q = 2 → (port u q).txq = (0, timeCheckMsg s q) :: (port s q).txq
            ∧ (port u q).tcN = (port s q).tcN + 1) ∧ (portState s q ≠ 2 → port u q = port s q))
      ∧ ((runActive s = false ∨ s.tb.tick % 2 ^ tcLog2 s ≠ 0) → exec .timeCheckSend s = .next s)
      ∧ (∀ m d r, taken 0 1 m → runActive s = true → leAt m.bytes 12 4 = (reg s rBbRunid).toNat →
        (port s p).tcDeps.find? (fun e => e.1 == leAt m.bytes 10 2) = some d → (port s p).tcRx = some r →
        (r.1 + 1) % 65536 = leAt m.bytes 8 2 → d.2 ≠ 0 → r.2 ≠ 0 → leAt m.bytes 24 8 ≠ 0 → leAt m.bytes 16 8 ≠ 0 →
        let there : Int := (leAt m.bytes 24 8 : Int) - d.2
        let back : Int := (r.2 : Int) - leAt m.bytes 16 8
        ∃ u, exec (.timeCheck p) s = .next u ∧ reg u (rKwTcOfs2 p) = BitVec.ofInt 32 (there - back)
          ∧ reg u (rKwTcDly2 p) = BitVec.ofInt 32 (there + back) ∧ regBit u (rKwPortStatus p) 28 = true
          ∧ regBit u (rKwPortStatus p) 27 = decide (2 * regF s rKwTcLimit 15 0 < (there - back).natAbs)
          ∧ (2 * regF s rKwTcLimit 15 0 < (there - back).natAbs → Raised u 0x0709 p)
          ∧ ((there - back).natAbs ≤ 2 * regF s rKwTcLimit 15 0 → u.ob = s.ob))
      ∧ (∀ m, taken 0 1 m → runActive s = true → leAt m.bytes 12 4 ≠ (reg s rBbRunid).toNat → ∃ u,
        exec (.timeCheck p) s = .next u ∧ reg u (rKwTcOfs2 p) = reg s (rKwTcOfs2 p)
          ∧ (regBit u rKwFault 10 = true ∨ (0x070A, 0) ∈ s.tb.once))
      ∧ (farmOn s = false → exec .scoreSend s = .next s)
      ∧ (∀ q, farmOn s = true → upPort s = some q → portState s q = 2 → ∃ u d, exec .scoreSend s = .next u
        ∧ (port u q).txq = (port s q).txq ++ [(0, scoreMsg s d)] ∧ u.regs = s.regs)
      ∧ (farmOn s = true → upPort s = none → ∃ u, exec .scoreSend s = .next u ∧ (devId s, ownScore s) ∈ u.kw.scores)
      ∧ (∀ m, taken 0 2 m → regBit s rKwTreeCfg (8 + p) = true → swf dNat s.kw.route = true →
        (∀ q, upPort s = some q → q ≠ p → portState s q = 2 → ∃ u, exec (.score p) s = .next u
            ∧ (port u q).txq = (port s q).txq ++ [(0, m.bytes)]
            ∧ sget dNat u.kw.route (leAt m.bytes 4 2 % 4096) = p + 1 ∧ u.regs = s.regs)
          ∧ (upPort s = none → ∃ u, exec (.score p) s = .next u
            ∧ (leAt m.bytes 4 2 % 4096, scoreOf m.bytes) ∈ u.kw.scores))
      ∧ (∀ m, taken 0 3 m →
        let dst := leAt m.bytes 6 2 % 4096
        let epoch := leAt m.bytes 8 4
        let cap := leAt m.bytes 12 4
        let fine := farmOn s = true ∧ kmac256 s.kw.farmKey (m.bytes.take 16) 16 [] = slice m.bytes 16 16
          ∧ (reg s rKwFarmEpoch).toNat < epoch ∧ farmFloor s ≤ cap ∧ cap ≤ regF s rKwFarmCeil 19 0
          ∧ 120000 ≤ cap ∧ cap ≤ 450000
        let idle := keepBusy s = false ∧ s.kp.waiting = []
        (dst = devId s → ¬idle → ∃ u, exec (.grant p) s = .next u ∧ u.kp.waiting = s.kp.waiting ++ [.grant m.bytes]
            ∧ u.regs = s.regs)
          ∧ (dst = devId s → idle → fine → ∃ u, exec (.grant p) s = .next u ∧ regF u rPmCap 19 0 = cap
            ∧ (reg u rKwFarmEpoch).toNat = epoch ∧ regF u rPmStatus 27 26 = 2)
          ∧ (dst = devId s → idle → ¬fine → ∃ u, exec (.grant p) s = .next u ∧ regF u rPmCap 19 0 = regF s rPmCap 19 0
            ∧ reg u rKwFarmEpoch = reg s rKwFarmEpoch ∧ Raised u 0x070B noSource)
          ∧ (dst ≠ devId s → ∀ q, sget dNat s.kw.route dst = q + 1 → q ≠ p → portState s q = 2 →
            ∃ u, exec (.grant p) s = .next u ∧ (port u q).txq = (port s q).txq ++ [(0, m.bytes)] ∧ u.regs = s.regs)
          ∧ (dst ≠ devId s → sget dNat s.kw.route dst = 0 → ∃ u, exec (.grant p) s = .next u
            ∧ Raised u 0x070C noSource ∧ regF u rPmCap 19 0 = regF s rPmCap 19 0))
      ∧ (coordinates s = false → exec .coordinator s = .next s)
      ∧ (coordinates s = true → ∃ u, exec .coordinator s = .next u ∧ u.kw.scores = s.kw.scores ∧ u.kw.pairs.length ≤ 16
        ∧ ∀ q ∈ u.kw.pairs, ∃ g d, (q.down, g) ∈ s.kw.scores ∧ (q.up, d) ∈ s.kw.scores ∧ q.downCap + 5000 = g.cap
          ∧ q.upCap = d.cap + 5000 ∧ g.floor ≤ q.downCap ∧ q.upCap ≤ d.ceil ∧ g.score + 1 < d.score)

/-- Snapshots (spec/18 R508-R511): a request names a latch tick and takes the one pending place, merges with it, goes
before it or is missed; the banks latch at the pending tick or at once outside a run and stay until released; SN_DATA shows
the word that SN_SEL selects, a tile-store word only from debug level 1 on, and 0 outside a bank. -/
def Obligations.Snapshots : Prop :=
  ∀ (s : State), Canonical s →
    let request := fun (c : Instr) (tick src : Nat) => runActive s = true → ∃ u, exec c s = .next u ∧ u.snap = s.snap
      ∧ (regBit s rSnStatus 31 = true → u.ob.pendTick = s.ob.pendTick ∧ Counted s u rSnMissed 1)
      ∧ (regBit s rSnStatus 31 = false → s.ob.pendTick = none → u.ob.pendTick = some tick ∧ regF u rSnStatus 2 0 = 2 ^ src
        ∧ regBit u rSnStatus 30 = true ∧ reg u rSnMissed = reg s rSnMissed)
      ∧ (∀ t, regBit s rSnStatus 31 = false → s.ob.pendTick = some t →
        (tick = t → u.ob.pendTick = some t ∧ reg u rSnMissed = reg s rSnMissed
            ∧ ∀ k < 3, regBit u rSnStatus k = (regBit s rSnStatus k || k == src))
          ∧ (tick < t → u.ob.pendTick = some tick ∧ regF u rSnStatus 2 0 = 2 ^ src ∧ Counted s u rSnMissed 1)
          ∧ (t < tick → u.ob.pendTick = some t ∧ Counted s u rSnMissed 1))
    let sel := fun hi lo : Nat => regF s rSnSel hi lo
    (∀ tag : Nat, (0 : Int) ≤ tag + sextI 16 (regF s rTbSkewSnapIn 15 0) →
        request (.snapInEdge tag) (((tag : Int) + sextI 16 (regF s rTbSkewSnapIn 15 0)).toNat / 256 + max 2 (regF s rSnCfg 7 0)) 0)
      ∧ (∀ tag : Nat, (tag : Int) + sextI 16 (regF s rTbSkewSnapIn 15 0) < 0 → runActive s = true →
        ∃ u, exec (.snapInEdge tag) s = .next u ∧ u.ob.pendTick = s.ob.pendTick ∧ Counted s u rTbPrerunCnt 1)
      ∧ (released s 11 = true → s.tb.tick + 2 ≤ reg64 s rSnAt → request .atGo (reg64 s rSnAt) 2)
      ∧ (released s 11 = true → runActive s = true → reg64 s rSnAt < s.tb.tick + 2 → ∃ u, exec .atGo s = .next u
        ∧ u.ob.pendTick = s.ob.pendTick ∧ Raised u 0x0BB2 noSource)
      ∧ (runActive s = false → (∀ tag, exec (.snapInEdge tag) s = .next s) ∧ exec .atGo s = .next s)
      ∧ (released s 11 = true → runActive s = false → regBit s rSnStatus 31 = false → ∃ u z, exec .snapshotNow s = .next u
        ∧ u.snap = some z ∧ z.ts = s.ts ∧ z.tile = s.tile ∧ z.weft = s.weft ∧ z.warp = s.warp ∧ z.tr = s.tr ∧ z.bb = s.bb
        ∧ (∀ a, a ≠ rSnStatus → sget regReset z.regs a = reg s a) ∧ regBit u rSnStatus 31 = true
        ∧ regF u rSnStatus 2 0 = 4 ∧ reg64 u rSnTag = 0 ∧ u.ob.pendTick = none)
      ∧ (∀ t, s.ob.pendTick = some t → runActive s = true →
        (s.tb.tick < t → exec .snapshotLatch s = .next s)
          ∧ (t ≤ s.tb.tick → ∃ u z, exec .snapshotLatch s = .next u ∧ u.snap = some z ∧ z.ts = s.ts ∧ z.regs = s.regs
            ∧ z.tile = s.tile ∧ z.weft = s.weft ∧ z.warp = s.warp ∧ z.tr = s.tr ∧ z.bb = s.bb ∧ u.ob.pendTick = none
            ∧ regBit u rSnStatus 31 = true ∧ regBit u rSnStatus 30 = false ∧ reg64 u rSnTag = t * 256 % 2 ^ 64
            ∧ u.pins.snapOut = true ∧ u.ts = s.ts ∧ u.tile = s.tile ∧ u.weft = s.weft))
      ∧ (s.ob.pendTick = none → exec .snapshotLatch s = .next s)
      ∧ (∃ u, exec .snapOutEnd s = .next u ∧ u.pins.snapOut = false ∧ u.snap = s.snap ∧ u.regs = s.regs)
      ∧ (released s 11 = true → ∃ u, exec .snapshotRelease s = .next u ∧ regBit u rSnStatus 31 = false ∧ u.snap = s.snap)
      ∧ (reachable s rSnData = true → ∀ z, s.snap = some z →
        let k := sel 31 24
        let n := sel 23 16
        let w := sel 15 0
        ∃ u, exec .snDataRead s = .next u ∧ u.snap = s.snap
          ∧ (tileStoreWord s k n w = true → debugLevel s = 0 → u.readData = 0 ∧ regBit u rSnStatus 29 = true)
          ∧ (tileStoreWord s k n w = true → debugLevel s ≠ 0 → regBit u rSnStatus 29 = false ∧ u.readData =
            BitVec.ofNat 32 (ofLe (tsRead (thaw z) n (regF (thaw z) rSnTsAddr 18 12 * 4096 + 4 * (w - 32)) 4)))
          ∧ (tileStoreWord s k n w = false → regBit u rSnStatus 29 = false ∧ match bankOf s (thaw z) k n w with
            | some (size, content) => u.readData = if w < size then BitVec.ofNat 32 (Config.bankWord k n w content) else 0
            | none => u.readData = 0))

/-- Eye scan and boundary scan (spec/18 R516, R520-R522, spec/13 R378): GO starts a point on a lane that is up and ends it
at once on one that is not, a point ends with its counts or aborted with the counts it has so far; IDCODE, SAMPLE and
BYPASS leave the device alone, and a driven instruction ends the run, every job and the CXL link. The cells that
SAMPLE/PRELOAD leaves are free (log entry 76). -/
def Obligations.EyeAndBoundaryScan : Prop :=
  ∀ (s : State), Canonical s →
    (∀ i, i < 144 → reachable s (rEyCtrl i) = true →
        (∀ v, regBit s (rEyStatus i) 31 = true → exec (.eyeScanGo i v) s = .next s)
          ∧ (∀ v, regBit s (rEyStatus i) 31 = false → ∃ u, exec (.eyeScanGo i v) s = .next u
            ∧ (∀ k < 30, regBit u (rEyCtrl i) k = (wbit v k && wbit 0x3F7F003F#32 k))
            ∧ (eyeLaneUp s i = true → reg u (rEyStatus i) = 0x80000000#32 ∧ reg u (rEyBits i) = 0 ∧ reg u (rEyErrs i) = 0
              ∧ regBit u (rEyCtrl i) 31 = true)
            ∧ (eyeLaneUp s i = false → reg u (rEyStatus i) = 0x38000000#32 ∧ regBit u (rEyCtrl i) 31 = false))
          ∧ (∀ lost, regBit s (rEyStatus i) 31 = false → exec (.eyeScanAbort i lost) s = .next s
            ∧ ∀ e, exec (.eyeScanDone i e) s = .next s)
          ∧ (∀ lost, regBit s (rEyStatus i) 31 = true → ∃ u, exec (.eyeScanAbort i lost) s = .next u
            ∧ reg u (rEyStatus i) = (if lost then 0x28000000#32 else 0x30000000#32)
            ∧ (reg u (rEyBits i)).toNat < 2 ^ (max 10 (min 40 (regF s (rEyCtrl i) 29 24)) - 10)
            ∧ (reg u (rEyErrs i)).toNat < 1024 * ((reg u (rEyBits i)).toNat + 1)
            ∧ regBit u (rEyCtrl i) 31 = false)
          ∧ (∀ e, regBit s (rEyStatus i) 31 = true →
            let d := max 10 (min 40 (regF s (rEyCtrl i) 29 24))
            ∃ u, exec (.eyeScanDone i e) s = .next u ∧ reg u (rEyStatus i) = 0x40000000#32
              ∧ (reg u (rEyBits i)).toNat = 2 ^ (d - 10) ∧ (reg u (rEyErrs i)).toNat = min (min e (2 ^ d)) (2 ^ 32 - 1)
              ∧ regBit u (rEyCtrl i) 31 = false))
      ∧ exec .tapReset s = .next { s with ob := { s.ob with tapIr := 1, pinsSafe := s.ob.testMode } }
      ∧ (∃ u, exec .samplePreload s = .next u ∧ u.ob = { s.ob with tapIr := 2, cells := u.ob.cells }
        ∧ u.ob.cells.length = (if s.fuse.grade192 then 2604 else 3412) ∧ u.regs = s.regs ∧ u.pins = s.pins)
      ∧ exec .bypass s = .next { s with ob := { s.ob with tapIr := 0xFF } }
      ∧ (∃ u, exec .idcode s = .next u ∧ u.ob = { s.ob with tapIr := 1 } ∧ u.regs = s.regs ∧ wbit u.readData 0 = true
        ∧ wfld u.readData 11 1 = 0x2B6 ∧ wfld u.readData 27 12 = (if s.fuse.grade192 then 0x0E21 else 0x0E20)
        ∧ wfld u.readData 31 28 = (if s.fuse.stepA0 then 0 else 1))
      ∧ ∀ p ∈ [(0, Instr.extest), (4, .extestPulse), (5, .extestTrain), (6, .clamp), (7, .highz)],
        ∃ u, exec p.2 s = .next u ∧ u.ob.tapIr = p.1 ∧ u.ob.pinsSafe = false
          ∧ ((s.ob.testMode = true ∨ s.pins.powered = false) → u.regs = s.regs ∧ u.ob.testMode = s.ob.testMode)
          ∧ (s.ob.testMode = false → s.pins.powered = true → u.ob.testMode = true ∧ regBit u rObFault 3 = true
            ∧ tbState u = 7 ∧ u.tb.sysclkLost = true ∧ u.sched.running = [] ∧ u.sched.queue = [] ∧ u.sched.completions = []
            ∧ u.weft.cores = [] ∧ u.bb.pend = [] ∧ u.rd.packets = [] ∧ u.ts = s.ts ∧ u.bb.mem = s.bb.mem
            ∧ (cxUp s = true → reg u rCxLinkStatus = 0 ∧ regBit u rCxMemStatus 29 = false))

/-- The power loop (spec/16 R446-R450, R455-R458, R460, R469, R470): what the tiles counted goes into the sample and their
counts start anew; the corrected estimate enters the window, PM_P_EST and the energy count; no excess gives no bubbles and
the throttle level at least 32 for C3; calibration moves offset and gain within their limits unless a rail is frozen; a
step moves the operating point by one. What an instruction adds to the counts is the model's choice (log entry 96). -/
def Obligations.PowerLoop : Prop :=
  ∀ (s : State), Canonical s →
    (∀ sample : PmcSample,
        let x := withTiles s sample
        let raw := opPower s (issuedOps x) + leakPower s + s.fuse.pSpnMw
        let p := ((calGain s * raw / 2 ^ 16 : Nat) + calOfs s).toNat
        let n := windowUs s
        let w := (p :: s.pm.window).take 16000
        let eff := regF s rPmCapEff 19 0
        let allow : Int := eff + ((eff * n : Nat) - ((w.take n).sum : Int)).tdiv (n / 8 : Nat)
        let held := demand s x.c4 x.heldC4 + demand s x.peer x.heldPeer + demand s x.c3 x.heldC3 + demand s x.c2 x.heldC2
        let own := demand s x.c4 [] + demand s x.peer [] + demand s x.c3 [] + demand s x.c2 [] + demand s x.marrow []
        let load : Int := (p : Int) - own + held
        let e := s.pm.carryNj + p
        ∃ u, exec (.pmcControlUpdate sample) s = .next u ∧ u.pm.window = w ∧ regF u rPmPEst 19 0 = min p (2 ^ 20 - 1)
          ∧ u.tile.act = [] ∧ u.tile.held = [] ∧ u.pm.rawSum = s.pm.rawSum + raw ∧ u.pm.rawN = s.pm.rawN + 1
          ∧ reg64 u rPmEnergy = (reg64 s rPmEnergy + e / 1000) % 2 ^ 64 ∧ u.pm.carryNj = e % 1000
          ∧ (∀ k < 4, regF u rPmBubble (8 * k + 7) (8 * k) ≤ 64) ∧ (throttled s = true → 32 ≤ regF u rPmBubble 23 16)
          ∧ (load ≤ allow → regF u rPmBubble 7 0 = 0 ∧ regF u rPmBubble 15 8 = 0 ∧ regF u rPmBubble 31 24 = 0)
          ∧ (load ≤ allow → throttled s = false → (regBit s rPmMarrowCfg 31 = false ∨ runActive s = false) →
            reg u rPmBubble = 0)
          ∧ regBit u rWfBudget 31 = regBit s rPmThermStatus 24
          ∧ (reg u rPmMarrowMchk).toNat = (if x.mismatches = 0 then (reg s rPmMarrowMchk).toNat
            else satN 32 ((reg s rPmMarrowMchk).toNat + x.mismatches)))
      ∧ (∀ core, ∃ u, exec (.pmcMeasurement core) s = .next u ∧ u.pm.rawSum = 0 ∧ u.pm.rawN = 0
        ∧ regF u rPmPMeas 19 0 = min (core + railSum s) (2 ^ 20 - 1)
        ∧ (frozen s = true → calGain u = calGain s ∧ calOfs u = calOfs s ∧ regBit u rPmStatus 28 = false)
        ∧ (frozen s = false →
          let pe := if s.pm.rawN = 0 then 0 else s.pm.rawSum / s.pm.rawN
          let err : Int := ((core + railSum s : Nat) : Int) - (((calGain s * pe / 2 ^ 16 : Nat) : Int) + calOfs s)
          calOfs u = clampI (-20000) 20000 (calOfs s + err.tdiv 256)
            ∧ (calGain u : Int) = (if 20000 ≤ pe then clampI 55705 75366 (calGain s + (err * 2 ^ 16).tdiv (pe * 64))
              else calGain s)
            ∧ u.pm.calN = s.pm.calN + 1))
      ∧ (∀ stretched,
        let k := regF s rPmOp 2 0
        let up := (3200 < s.pm.c3Sum ∨ throttled s = true) ∧ k < 7
        let down := s.pm.c3Sum = 0 ∧ s.pm.headroom = true ∧ throttled s = false ∧ opCeiling s < k
        let k' := if up then k + 1 else if down then k - 1 else if k < opCeiling s then k + 1 else k
        ∃ u, exec (.pmcOpStep stretched) s = .next u ∧ u.pm = { s.pm with c3Sum := 0 } ∧ regF u rPmOp 2 0 = k'
          ∧ (k' ≠ k → regF u rTbWeftOp 6 4 = k' ∧ regBit u rTbWeftOp 8 = stretched
            ∧ regF u rTbWeftOp 2 0 = (if stretched then regF s rTbWeftOp 2 0 else k'))
          ∧ (k' = k → stretched = true → u.regs = s.regs))

/-- Rails, temperatures and trips (spec/16 R448, R466-R469): a poll keeps the power of each rail that answers and counts
each that does not; a reading stands in its register and sets the levels at their thresholds, cleared 3 degrees below; a
trip stops every core clock; VR_HOT_N throttles while it is low. -/
def Obligations.SensorsAndTrips : Prop :=
  ∀ (s : State), Canonical s →
    (∀ vals : List (Option Nat), swf dNat s.pm.rails = true → swf dNat s.pm.railFails = true →
      ∃ u, exec (.pmbusPoll vals) s = .next u ∧ u.ts = s.ts ∧ ∀ r < 8,
        (∀ mw, vals[r]? = some (some mw) → sget dNat u.pm.rails r = mw ∧ sget dNat u.pm.railFails r = 0)
          ∧ (vals[r]? = some none → sget dNat u.pm.rails r = sget dNat s.pm.rails r
            ∧ sget dNat u.pm.railFails r = sget dNat s.pm.railFails r + 1
            ∧ (sget dNat s.pm.railFails r = 2 → regBit u rPmFault 12 = true))
          ∧ (vals[r]? = none → sget dNat u.pm.rails r = sget dNat s.pm.rails r
            ∧ sget dNat u.pm.railFails r = sget dNat s.pm.railFails r))
      ∧ (∀ qs : List Int, ∃ u, exec (.tempSample qs) s = .next u
        ∧ (∀ i q, i < 72 → qs[i]? = some q → sensorPresent s i = true → regBit u (rPmTemp i) 31 = true
          ∧ sextI 12 (regF u (rPmTemp i) 11 0) = clampI (-2048) 2047 q)
        ∧ (∀ i, i < 72 → sensorPresent s i = false → reg u (rPmTemp i) = reg s (rPmTemp i))
        ∧ ∀ t i, hottest u (List.range 72) = some (t, i) → sextI 12 (regF u rPmThermStatus 11 0) = t
          ∧ regF u rPmThermStatus 22 16 = i
          ∧ ∀ l ∈ [(rPmThermStatus, 24, min 105 (regF s rPmThermCfg 7 0)), (rPmThermStatus, 25, min 105 (regF s rPmThermCfg 15 8)),
              (rPmStatus, 29, 105)],
            (4 * (l.2.2 : Int) ≤ t → regBit u l.1 l.2.1 = true) ∧ (t ≤ 4 * ((l.2.2 : Int) - 3) → regBit u l.1 l.2.1 = false)
              ∧ (4 * ((l.2.2 : Int) - 3) < t → t < 4 * (l.2.2 : Int) → regBit u l.1 l.2.1 = regBit s l.1 l.2.1))
      ∧ (∀ k, k < 72 → (sensorPresent s k = false → exec (.thermalTrip k) s = .next s)
        ∧ (sensorPresent s k = true → ∃ u, exec (.thermalTrip k) s = .next u ∧ u.pins.thermtripN = false
          ∧ u.pins.pwrOffReqN = false ∧ u.pm.tripped = true ∧ u.pm.tripSensor = k ∧ u.tb.sysclkLost = true ∧ tbState u = 7
          ∧ regBit u rTbStatus 4 = false ∧ u.rwlLock = false ∧ regBit u rPmFault 10 = true ∧ u.ts = s.ts
          ∧ u.bb.mem = s.bb.mem))
      ∧ (∃ u, exec .vrHot s = .next u ∧ u.pins.vrHotN = false ∧ regBit u rPmThermStatus 26 = true ∧ throttled u = true
        ∧ (regBit s rPmThermStatus 26 = false → Raised u 0x0A0B noSource) ∧ (regBit s rPmThermStatus 26 = true → u.ob = s.ob))
      ∧ (∃ u, exec .vrHotNHigh s = .next u ∧ u.pins.vrHotN = true ∧ throttled u = regBit s rPmThermStatus 25
        ∧ u.ob = s.ob ∧ u.pm = s.pm)

/-- Writes from outside (spec/00 R11-R14, spec/01 R29-R31, R34, spec/15 R417, R432, R436): a write out of reach or with
partial byte enables does nothing; a 32-bit write takes each field by its access type; a write of a bit that starts an
action has the effect of the command of that name, and so has a doorbell; a 64-bit register takes both halves at the write
of the high half; a locked decoder and a mailbox that runs a command take no write. The fields of a register do not
overlap. -/
def Obligations.RegisterWrites : Prop :=
  (∀ a, ∀ f ∈ fieldsAt a, f.lo ≤ f.hi ∧ f.hi < 32 ∧ ∀ g ∈ fieldsAt a, g = f ∨ g.hi < f.lo ∨ f.hi < g.lo)
    ∧ ∀ (s : State) (be : Nat), Canonical s →
      (∀ a v, reachable s a = false → exec (.registerWrite (.bar0 a) ⟨v, be⟩) s = .next s)
        ∧ (∀ x v, be % 16 ≠ 15 → exec (.registerWrite x ⟨v, be⟩) s = .next s)
        ∧ (∀ a v, be % 16 ≠ 15 → exec (.reg64LowWrite a ⟨v, be⟩) s = .next s ∧ exec (.reg64HighWrite a ⟨v, be⟩) s = .next s)
        ∧ (be % 16 = 15 →
          (∀ a v, reachable s a = true → wide a = none → ¬(0xC00000 ≤ a ∧ 0x3000 ≤ a % 0x4000) → a ≠ rSnCtrl →
            a ≠ rCxBiasCtrl → writeRefused s a (BitVec.ofNat 32 v) = false → (∀ p < 8, a ≠ rKwPortCfg p) → v < 2 ^ 32 →
            (if 0xC00000 ≤ a then tileAction s ((a - 0xC00000) / 0x4000) (a % 0x4000) (BitVec.ofNat 32 v)
              else unitAction s a (BitVec.ofNat 32 v)) = none →
            ∃ u, exec (.registerWrite (.bar0 a) ⟨v, be⟩) s = .next u ∧ ∀ f ∈ fieldsAt a, ∀ k, f.lo ≤ k → k ≤ f.hi →
              (k = 31 → (∀ n < 16, a ≠ rWfQCfg n) ∧ ∀ p < 8, a ≠ rKwEvCfg p) →
              regBit u a k = match f.acc with
                | .rw => bitN v k
                | .rwl => if s.rwlLock then regBit s a k else bitN v k
                | .w1c => regBit s a k && !bitN v k
                | .ro | .wo | .w1s | .rc => regBit s a k)
          ∧ (∀ n < 16, ∀ p ∈ [(rSnCtrl, 1, Instr.snapshotNow), (rSnCtrl, 2, .atGo), (rSnCtrl, 4, .snapshotRelease),
              (rWfQCtrl n, 1, .abort n []), (rWfQCtrl n, 2, .resume n), (rTrForce n, 1, .force n), (rBbStCtrl n, 1, .rearm n),
              (rTbCtrl, 1, .lockEnSet), (rCxBiasCtrl, 2 ^ 31, .biasFlip false), (rCxBiasCtrl, 2 ^ 31 + 1, .biasFlip true)],
            reachable s p.1 = true → exec (.registerWrite (.bar0 p.1) ⟨p.2.1, be⟩) s = exec p.2.2 s)
          ∧ (regBit s rTbCtrl 0 = true → reachable s rTbCtrl = true →
            exec (.registerWrite (.bar0 rTbCtrl) ⟨0, be⟩) s = exec .lockEnClear s)
          ∧ (∀ n v, n < 16 → v < 2 ^ 16 → released s 3 = true →
            (∀ x ∈ [RegTarget.bar0 (rWfSqProd n), .bar2 (0x80000 + 0x1000 * n)],
                exec (.registerWrite x ⟨v, be⟩) s = exec (.wfSqProd n v) s)
              ∧ ∀ x ∈ [RegTarget.bar0 (rWfCqCons n), .bar2 (0x8000C + 0x1000 * n)],
                exec (.registerWrite x ⟨v, be⟩) s = exec (.wfCqCons n v) s)
          ∧ (∀ i v, i < 144 → reachable s (rEyCtrl i) = true → regBit s (rEyStatus i) 31 = false → v < 2 ^ 30 →
            ∃ u, exec (.registerWrite (.bar0 (rEyCtrl i)) ⟨v, be⟩) s = .next u
              ∧ ∀ k < 30, wbit 0x3F7F003F#32 k = true → regBit u (rEyCtrl i) k = bitN v k)
          ∧ (∀ n v, n < 16 → released s 3 = true → v < 2 ^ 32 →
            let bad := fld v 12 8 < 4 ∨ 16 < fld v 12 8 ∨ fld v 20 16 < 4 ∨ 16 < fld v 20 16
            ∃ u, exec (.registerWrite (.bar0 (rWfQCfg n)) ⟨v, be⟩) s = .next u
              ∧ queueEn u n = if bad ∧ queueEn s n = false then false else bitN v 31)
          ∧ (∀ p v, p < 8 → released s 7 = true → v < 2 ^ 32 →
            let ring := regionOf s (reg64 s (rKwEvBase p)) (64 * 2 ^ fld v 4 0)
            let fits := ∃ r, ring = some r ∧ (region s r).kind = 3
            ∃ u, exec (.registerWrite (.bar0 (rKwEvCfg p)) ⟨v, be⟩) s = .next u
              ∧ (regBit s (rKwEvCfg p) 31 = true ∨ fits → regBit u (rKwEvCfg p) 31 = bitN v 31 ∧ u.ob = s.ob)
              ∧ (regBit s (rKwEvCfg p) 31 = false → ¬fits → regBit u (rKwEvCfg p) 31 = false
                ∧ (bitN v 31 = true → Raised u 0x0707 p)))
          ∧ (∀ p v, p < 8 → released s 7 = true → v < 2 ^ 32 → bitN v 31 = regBit s (rKwPortCfg p) 31 →
            ∃ u, exec (.registerWrite (.bar0 (rKwPortCfg p)) ⟨v, be⟩) s = .next u ∧ regBit u (rKwPortCfg p) 30 = bitN v 30
              ∧ ∀ k < 32, k ≠ 30 → regBit u (rKwPortCfg p) k = regBit s (rKwPortCfg p) k)
          ∧ (∀ a lo, wide a = some (a, false) → reachable s a = true → swf regReset s.staging = true →
            ∃ u, exec (.reg64LowWrite a ⟨lo, be⟩) s = .next u ∧ u.regs = s.regs ∧
              ∀ (w : State) hi, Canonical w → w.staging = u.staging → wide (a + 4) = some (a, true) →
                reachable w (a + 4) = true → windowRead w a = none → writeRefused w a lo = false →
                ∃ z, exec (.reg64HighWrite (a + 4) ⟨hi, be⟩) w = .next z ∧ z.staging = w.staging
                  ∧ reg z a = writeFields w.rwlLock (fieldsAt a) (reg w a) lo
                  ∧ reg z (a + 4) = writeFields w.rwlLock (fieldsAt (a + 4)) (reg w (a + 4)) hi)
          ∧ (∀ a v, v < 2 ^ 32 → released s 11 = true → a < 0x80000 →
            ∃ u, exec (.registerWrite (.bar2 a) ⟨v, be⟩) s = .next u
              ∧ (a = 0 → wbit u.cx.mbCtrl 1 = bitN v 1)
              ∧ (a = 4 → u.cx.mbStatus = s.cx.mbStatus &&& ~~~(BitVec.ofNat 32 v &&& 0x60000000#32))
              ∧ (0x1000 ≤ a → wbit s.cx.mbStatus 31 = true → u = s))
          ∧ (∀ v, released s 8 = true → ∃ u, exec (.registerWrite (.cfg .memEnable) ⟨v, be⟩) s = .next u
            ∧ regBit u rCxMemStatus 29 = (v % 2 == 1 && regBit s rCxLinkStatus 30))
          ∧ (∀ i f v, i ≤ 1 → (decoder s i).locked = true → exec (.registerWrite (.hdm i f) ⟨v, be⟩) s = .next s)
          ∧ (∀ i v, i ≤ 1 → (decoder s i).locked = false → released s 8 = true →
            ∃ u, exec (.registerWrite (.hdm i .base) ⟨v, be⟩) s = .next u
              ∧ decoder u i = { decoder s i with base := v % 2 ^ 64 } ∧ decoder u (1 - i) = decoder s (1 - i)))

/-- Reads from outside (spec/00 R4, R12-R14, spec/01 R29-R31, R34, spec/15 R436): a read out of reach or at an offset of
the global blocks with no register gives 0; a read clears the RC fields and nothing else of the register, whatever its byte
enables; SN_DATA and TILE_IA_DATA are read as their own commands read them; the low half of a 64-bit register latches the
high half, which the next read of the high half returns and forgets; the doorbell pages show the indices of the streams. -/
def Obligations.RegisterReads : Prop :=
  ∀ (s : State) (be : Nat), Canonical s →
    (∀ a, reachable s a = false → exec (.rcRead ⟨.bar0 a, be⟩) s = .next { s with readData := 0 })
      ∧ (∀ a, wide a = none → reachable s a = true → a ≠ rSnData → ¬(0xC00000 ≤ a ∧ a % 0x4000 = 0x3008) →
        ∃ u, exec (.rcRead ⟨.bar0 a, be⟩) s = .next u ∧ u.readData = regView s a
        ∧ (∀ b, b ≠ a → reg u b = reg s b)
        ∧ ∀ f ∈ fieldsAt a, ∀ k, f.lo ≤ k → k ≤ f.hi → regBit u a k = (regBit s a k && !(f.acc == .rc)))
      ∧ exec (.rcRead ⟨.bar0 rSnData, be⟩) s = exec .snDataRead s
      ∧ (∀ t, t < tileCount s → reachable s (0xC00000 + 0x4000 * t + 0x3008) = true →
        exec (.rcRead ⟨.bar0 (0xC00000 + 0x4000 * t + 0x3008), be⟩) s = exec (.tileIaData t none) s)
      ∧ (∀ a, a < 0xC00000 → a % 4 = 0 → regLookup a = none → ∃ u, exec (.rcRead ⟨.bar0 a, be⟩) s = .next u ∧ u.readData = 0)
      ∧ (∀ a, wide a = some (a, false) → reachable s a = true → swf dNone s.latch = true →
        ∃ u, exec (.reg64LowRead ⟨a, be⟩) s = .next u ∧ u.readData = regView s a ∧ u.regs = s.regs ∧
          ∀ w : State, w.latch = u.latch → wide (a + 4) = some (a, true) → reachable w (a + 4) = true →
            ∃ z, exec (.reg64HighRead ⟨a + 4, be⟩) w = .next z ∧ z.readData = regView s (a + 4) ∧ z.regs = w.regs
              ∧ sget dNone z.latch a = none)
      ∧ (∀ a, wide (a + 4) = some (a, true) → reachable s (a + 4) = true → sget dNone s.latch a = none →
        ∃ u, exec (.reg64HighRead ⟨a + 4, be⟩) s = .next u ∧ u.readData = regView s (a + 4) ∧ u.latch = s.latch)
      ∧ (∀ n < 16, ∀ x ∈ [(0, rWfSqProd n), (4, rWfSqCons n), (8, rWfCqProd n), (0xC, rWfCqCons n)],
        exec (.rcRead ⟨.bar2 (0x80000 + 0x1000 * n + x.1), be⟩) s = .next { s with readData := regView s x.2 })
      ∧ (released s 8 = true → ∃ u, exec (.rcRead ⟨.cfg .subsystemId, be⟩) s = .next u
        ∧ u.readData = if s.fuse.grade192 then 0x0E21 else 0x0E20)

/-- A step runs the command at the front of the queue on the state whose queue is the rest; on an empty queue one REED
cycle passes (log entry 1; spec/02 R44, R51, spec/07 R200): Reed counts it, a pending weft operating point takes effect; in
a run it adds its eighths of a warp period, and the tick count goes up by one when they end the running tick; outside one
nothing of the run moves. -/
def Obligations.StepRunsTheFront : Prop :=
  (∀ (c : Instr) (rest : List Instr) (s : State),
      step { s with pending := c :: rest } = exec c { s with pending := rest })
    ∧ ∀ s : State, s.pending = [] → ∃ u, step s = .next u ∧ u.pending = []
      ∧ u.rd.now = s.rd.now + 1
      ∧ (regBit s rTbWeftOp 8 = true → regF u rTbWeftOp 2 0 = regF s rTbWeftOp 6 4 ∧ regBit u rTbWeftOp 8 = false)
      ∧ (runActive s = false → u.tb.tick = s.tb.tick ∧ u.tb.cyc = s.tb.cyc ∧ u.ts = s.ts ∧ u.bb = s.bb ∧ u.warp = s.warp)
      ∧ (runActive s = true →
        let c := { s with tb := { s.tb with cyc := s.tb.cyc + 1, eighth := s.tb.eighth + 4 + b2n s.tb.slow } }
        u.tb.tick = s.tb.tick + b2n (edgeDue c)
          ∧ (edgeDue c = false → u.tb.cyc = s.tb.cyc + 1 ∧ u.tb.eighth = s.tb.eighth + 4 + b2n s.tb.slow)
          ∧ (edgeDue c = true → lastTick s = true → u.tb.cyc = 0 ∧ u.tb.eighth = 0 ∧ u.tb.q ≤ 1))

/-- Every command about a unit that the architecture has runs to a next state, whatever the state; every other command
stops with the one fault of the model. -/
def Obligations.ExecAnswers : Prop :=
  ∀ (c : Instr) (s : State), (unitExists c = true → ∃ u, exec c s = .next u)
    ∧ (unitExists c = false → exec c s = .fault .noSuchUnit)

/-- No command touches the queue, and none but FUSE_ADVANCE touches a fuse (spec/17 R498). -/
def Obligations.QueueAndFusesStand : Prop :=
  ∀ (c : Instr) (s u : State), exec c s = .next u → u.pending = s.pending
    ∧ match c with
      | .fuseAdvance _ _ => u.fuse = { s.fuse with antiRollback := u.fuse.antiRollback }
      | _ => u.fuse = s.fuse

/-- The loaded program stands through everything but a reset, a load, a debug unlock, a zeroize and, for pick stores, a
register write at the port of a tile: no frame, no instruction and no other packet changes the image or a pick word
(spec/01 R22, spec/10 R298). -/
def Obligations.LoadedProgramStands : Prop :=
  ∀ (c : Instr) (s u : State), exec c s = .next u → match c with
    | .powerUp | .sysRstNAssert _ | .railUndervoltage _ | .aonUndervoltage | .powerLoss | .sysRstNRelease _ | .railBackInDcBand _
    | .stepTimeout _ | .watchdog _ | .warmReset _ _ | .recoveryWrite _ _ | .fwUpdate _ _ _ _ _ | .debugUnlock _ _ | .zeroize _
    | .zeroizeDdr4Done _ | .ownerTransfer _ _ _ | .loadComplete _ => True
    | .load _ _ => u.tile.pick = s.tile.pick
    | .tileIaData _ _ | .registerWrite _ _ | .regWr _ _ => u.image = s.image
    | _ => u.image = s.image ∧ u.tile.pick = s.tile.pick

/-- Every step keeps every sparse store in its canonical form: registers, DDR4, tile stores, pick stores, tables, the
register files of the weft cores, the stores of the warp plane, lanes, streams and ports. -/
def Obligations.StepKeepsCanonical : Prop :=
  ∀ s u : State, Canonical s → step s = .next u → Canonical u

/-- What reset leaves (spec/00 R15, spec/02 R61, spec/09 R257, spec/16 R446, spec/17 R479): empty stores in canonical form,
the queue empty, no block released, no lock and no run, the energy classes and the energy table at their reset values. -/
def Obligations.ResetState : Prop :=
  Canonical State.reset ∧ Memory.wf State.reset ∧ State.reset.pending = [] ∧ tbState State.reset = 0
    ∧ runActive State.reset = false ∧ State.reset.rwlLock = false ∧ debugLevel State.reset = 0
    ∧ (∀ k < 12, released State.reset k = false) ∧ (∀ c < 16, reg State.reset (rWfEclass c) = BitVec.ofNat 32 (100 * (c + 1)))
    ∧ (∀ k < 13, reg State.reset (rPmEtab k) = BitVec.ofNat 32
      ([117965, 25000, 1900, 1500, 3000, 4000, 1800, 6400, 12000, 2048000, 2600, 2500, 9000].getD k 0))
    ∧ (∀ t < 256, core State.reset t = {}) ∧ State.reset.ts = [] ∧ State.reset.image = none

/-- A raise (spec/18 R519): it merges into the newest entry of the error log when that has its cause and source, and else
takes a new entry, over the oldest of 4,096; its FAULT bit is set and no other bit of that register changes, and only the
first fault stores its time tag. -/
def Obligations.RaisesAreLogged : Prop :=
  ∀ (s : State) (cause source detail : Nat), Canonical s →
    let u := raise s cause source detail
    let same := ∃ e, s.ob.log.head? = some e ∧ e.cause = cause ∧ e.source = source
    (∀ e es, s.ob.log = e :: es → e.cause = cause → e.source = source →
        u.ob.log = { e with reps := min (e.reps + 1) 0xFFFF } :: es ∧ reg u rObLogOvw = reg s rObLogOvw)
      ∧ (¬same → u.ob.log = (⟨cause, source, 1, detail % 2 ^ 16, nowTag s⟩ :: s.ob.log).take 4096
        ∧ (s.ob.log.length < 4096 → reg u rObLogOvw = reg s rObLogOvw)
        ∧ (4096 ≤ s.ob.log.length → Counted s u rObLogOvw 1))
      ∧ (∀ a b, faultBit cause = some (a, b) → (∀ k < 32, regBit u a k = (regBit s a k || k == b))
        ∧ reg64 u (faultTagOf a) = (if reg s a = 0 then nowTag s % 2 ^ 64 else reg64 s (faultTagOf a)))
      ∧ (faultBit cause = none → ∀ a, a ≠ rObLogOvw → reg u a = reg s a)

/-- The 128-bit pick word (spec/06 R158): its fields read back from the word that holds them, and the word from its fields. -/
def Obligations.PickWordRoundTrip : Prop :=
  (∀ x : PickWord, pickFits x = true → encodePick x < 2 ^ 128 ∧ decodePick (encodePick x) = x)
    ∧ ∀ w < 2 ^ 128, pickFits (decodePick w) = true ∧ encodePick (decodePick w) = w

end Statements
end

