-- ==== Sys2Proof/Laws/Sparse.lean ====
section
/-! SUPPORT. Sparse stores: reading after writing, and the canonical form that every operation keeps. -/

namespace Sys2Proof.Machine

variable {α : Type} [DecidableEq α] {d : Nat → α} {k j : Nat} {v w : α} {m : Sparse α}

@[simp] theorem sabove_nil : sabove k ([] : Sparse α) = true := rfl
@[simp] theorem sabove_cons {e : Nat × α} : sabove k (e :: m) = decide (k < e.1) := rfl
@[simp] theorem swf_nil : swf d ([] : Sparse α) = true := rfl
@[simp] theorem swf_cons {e : Nat × α} :
    swf d (e :: m) = true ↔ (e.2 ≠ d e.1 ∧ sabove e.1 m = true) ∧ swf d m = true := by
  simp [swf]

theorem sabove_mono (h : sabove k m = true) (hj : j ≤ k) : sabove j m = true := by
  cases m with
  | nil => rfl
  | cons e m => simp at *; omega

theorem sabove_trans (h : sabove k m = true) (hm : swf d m = true) : ∀ e ∈ m, k < e.1 := by
  induction m generalizing k with
  | nil => simp
  | cons e m ih =>
    simp at h hm
    intro x hx
    rcases List.mem_cons.1 hx with rfl | hx
    · exact h
    · exact Nat.lt_trans h (ih hm.1.2 hm.2 x hx)

/-- A key below every listed key reads its default. -/
theorem sget_of_sabove (h : sabove k m = true) (hm : swf d m = true) : sget d m k = d k := by
  induction m with
  | nil => rfl
  | cons e m ih =>
    simp at h hm
    simp only [sget]
    split
    · omega
    · exact ih (sabove_mono hm.1.2 (by omega)) hm.2

theorem swf_scons (ha : sabove k m = true) (hm : swf d m = true) : swf d (scons d k v m) = true := by
  unfold scons
  split
  · exact hm
  · simp_all

theorem sabove_scons (ha : sabove j m = true) (hk : j < k) : sabove j (scons d k v m) = true := by
  unfold scons
  split
  · exact ha
  · simpa using hk

theorem sabove_sset (ha : sabove j m = true) (hk : j < k) (hm : swf d m = true) :
    sabove j (sset d k v m) = true := by
  cases m with
  | nil => exact sabove_scons rfl hk
  | cons e m =>
    simp at ha hm
    unfold sset
    split
    · exact sabove_scons (by simpa using ha) hk
    · split
      · exact sabove_scons (sabove_mono hm.1.2 (by omega)) hk
      · simpa using ha

/-- A write keeps the canonical form. -/
@[simp] theorem swf_sset (hm : swf d m = true) : swf d (sset d k v m) = true := by
  induction m with
  | nil => exact swf_scons rfl rfl
  | cons e m ih =>
    unfold sset
    split
    · exact swf_scons (by simpa) hm
    · simp at hm
      split
      · exact swf_scons (by simp_all) hm.2
      · rw [swf_cons]
        exact ⟨⟨hm.1.1, sabove_sset hm.1.2 (by omega) hm.2⟩, ih hm.2⟩

@[simp] theorem swf_ssetMany {vs : List α} (hm : swf d m = true) : swf d (ssetMany d k vs m) = true := by
  induction vs generalizing k m with
  | nil => exact hm
  | cons v vs ih => exact ih (swf_sset hm)

theorem sabove_filter {p : Nat × α → Bool} (ha : sabove k m = true) (hm : swf d m = true) :
    sabove k (m.filter p) = true := by
  have h := sabove_trans ha hm
  cases hf : m.filter p with
  | nil => rfl
  | cons e l =>
    have : e ∈ m := (List.mem_filter.1 (hf ▸ List.mem_cons_self : e ∈ m.filter p)).1
    simpa using h e this

/-- Dropping entries keeps the canonical form. -/
@[simp] theorem swf_filter {p : Nat × α → Bool} (hm : swf d m = true) : swf d (m.filter p) = true := by
  induction m with
  | nil => rfl
  | cons e m ih =>
    simp at hm
    simp only [List.filter_cons]
    split
    · rw [swf_cons]
      exact ⟨⟨hm.1.1, sabove_filter hm.1.2 hm.2⟩, ih hm.2⟩
    · exact ih hm.2

@[simp] theorem swf_sclear {lo n : Nat} (hm : swf d m = true) : swf d (sclear lo n m) = true := swf_filter hm

theorem swf_smap {f : α → α} (hm : swf d m = true) : swf d (smap d f m) = true := by
  suffices h : swf d (smap d f m) = true ∧ ∀ k, sabove k m = true → sabove k (smap d f m) = true from h.1
  induction m with
  | nil => exact ⟨rfl, fun _ _ => rfl⟩
  | cons e m ih =>
    simp at hm
    have ih := ih hm.2
    refine ⟨swf_scons (ih.2 _ hm.1.2) ih.1, fun k hk => ?_⟩
    simp at hk
    exact sabove_scons (ih.2 k (sabove_mono hm.1.2 (by omega))) hk

theorem sget_scons_same (ha : sabove k m = true) (hm : swf d m = true) : sget d (scons d k v m) k = v := by
  unfold scons
  split
  · rename_i h; rw [sget_of_sabove ha hm, h]
  · simp [sget]

theorem sget_scons_ne (h : j ≠ k) : sget d (scons d k v m) j = sget d m j := by
  unfold scons
  split
  · rfl
  · simp [sget, h]

/-- A read after a write to the same key gives what was written. -/
@[simp] theorem sget_sset_same (hm : swf d m = true) : sget d (sset d k v m) k = v := by
  induction m with
  | nil => exact sget_scons_same rfl rfl
  | cons e m ih =>
    unfold sset
    split
    · exact sget_scons_same (by simpa) hm
    · simp at hm
      split
      · exact sget_scons_same (by simp_all) hm.2
      · simp [sget, *]

/-- A write leaves every other key alone, in any store. -/
@[simp] theorem sget_sset_ne (h : j ≠ k) : sget d (sset d k v m) j = sget d m j := by
  induction m with
  | nil => exact sget_scons_ne h
  | cons e m ih =>
    unfold sset
    split
    · exact sget_scons_ne h
    · split
      · rename_i hk
        rw [sget_scons_ne h]
        simp [sget, ← hk, h]
      · simp [sget, ih]

theorem sget_sset (hm : swf d m = true) : sget d (sset d k v m) j = if j = k then v else sget d m j := by
  split
  · rename_i h; rw [h, sget_sset_same hm]
  · rename_i h; exact sget_sset_ne h

/-- Many writes leave a key outside their range alone. -/
theorem sget_ssetMany_out {vs : List α} (h : j < k ∨ k + vs.length ≤ j) :
    sget d (ssetMany d k vs m) j = sget d m j := by
  induction vs generalizing k m with
  | nil => rfl
  | cons v vs ih =>
    simp at h
    unfold ssetMany
    rw [ih (by omega), sget_sset_ne (by omega)]

/-- Many writes give each key of their range its value. -/
theorem sget_ssetMany_in {vs : List α} {i : Nat} (hm : swf d m = true) (hi : i < vs.length) :
    sget d (ssetMany d k vs m) (k + i) = vs[i] := by
  induction vs generalizing k i m with
  | nil => simp at hi
  | cons v vs ih =>
    unfold ssetMany
    cases i with
    | zero => rw [sget_ssetMany_out (by omega)]; simp [hm]
    | succ i =>
      have := ih (k := k + 1) (i := i) (swf_sset (k := k) (v := v) hm) (by simpa using hi)
      simpa [Nat.add_assoc, Nat.add_comm 1 i] using this

end Sys2Proof.Machine
end

