-- ==== Sys2Proof/Laws/Good.lean ====
section
/-! SUPPORT. `Good W s` says of a state what a `Watch` watches. Every operation of the model keeps it, except for the
watched fields that it writes: a lemma about an operation that writes one takes as a hypothesis that any content meets the
field's predicate. The other Laws files state that once for each operation. -/

namespace Sys2Proof.Machine

/-- What is watched: the queue, whether stores stand in canonical form, and a predicate on each of the fuses, DDR4, tile
store, the boot flash, the loaded image, the register files of the weft cores, the pick stores. -/
structure Watch where
  queue : List Instr
  canon : Prop
  fuse : Fuse → Prop
  mem : Sparse Byte → Prop
  ts : Sparse Byte → Prop
  flash : Flash → Prop
  image : Option Image → Prop
  sreg : Sparse DWord → Prop
  preg : Sparse DWord → Prop
  vreg : Sparse Word → Prop
  xa : Sparse XLane → Prop
  pick : Sparse DWord → Prop

/-- The queue is `W.queue`, `s` is canonical if `W.canon`, and every watched field meets its predicate. -/
def Good (W : Watch) (s : State) : Prop :=
  s.pending = W.queue ∧ (W.canon → Canonical s) ∧ W.fuse s.fuse ∧ W.mem s.bb.mem ∧ W.ts s.ts ∧ W.flash s.kp.flash
    ∧ W.image s.image ∧ W.sreg s.weft.sreg ∧ W.preg s.weft.preg ∧ W.vreg s.weft.vreg ∧ W.xa s.weft.xa ∧ W.pick s.tile.pick

/-- `P` holds of the next state, where there is one. -/
def nextAll (P : State → Prop) : Host.Outcome State Fault Refusal → Prop
  | .next t => P t
  | .fault _ => True
  | .refused _ => True

/-- `P` holds of the state that an instruction's result carries. -/
@[irreducible] def resAll (P : State → Prop) : WRes → Prop
  | .done s _ => P s
  | .trap s _ => P s
  | .wait s _ => P s

variable {W : Watch} {s t : State} {P : State → Prop}

@[simp] theorem nextAll_next : nextAll P (.next t) = P t := rfl
@[simp] theorem nextAll_fault {r : Fault} : nextAll P (.fault r) = True := rfl
@[simp] theorem nextAll_refused {r : Refusal} : nextAll P (.refused r) = True := rfl
@[simp] theorem resAll_done {x : Option Nat} : resAll P (.done s x) = P s := by unfold resAll; rfl
@[simp] theorem resAll_trap {x : Trap} : resAll P (.trap s x) = P s := by unfold resAll; rfl
@[simp] theorem resAll_wait {x : WaitOn} : resAll P (.wait s x) = P s := by unfold resAll; rfl

/-- A step of a fold keeps it, so the fold does. -/
@[simp] theorem good_foldl {β : Type} {g : State → β → State} {l : List β} (h : Good W s)
    (hg : ∀ s x, Good W s → Good W (g s x)) : Good W (l.foldl g s) := by
  induction l generalizing s with
  | nil => exact h
  | cons x l ih => exact ih (hg s x h)

/-- A step of a fold with a second component keeps it, so the fold does. -/
@[simp] theorem good_foldl_fst {β γ : Type} {g : State × γ → β → State × γ} {l : List β} {z : State × γ} (h : Good W z.1)
    (hg : ∀ s x, Good W s.1 → Good W (g s x).1) : Good W (l.foldl g z).1 := by
  induction l generalizing z with
  | nil => exact h
  | cons x l ih => exact ih (hg z x h)

@[simp] theorem good_ite {p : Prop} [Decidable p] {a b : State} :
    Good W (if p then a else b) ↔ (p → Good W a) ∧ (¬p → Good W b) := by
  split <;> simp_all

@[simp] theorem good_ite_fst {γ : Type} {p : Prop} [Decidable p] {a b : State × γ} :
    Good W (if p then a else b).1 ↔ (p → Good W a.1) ∧ (¬p → Good W b.1) := by
  split <;> simp_all

@[simp] theorem good_ite_snd {γ : Type} {p : Prop} [Decidable p] {a b : γ × State} :
    Good W (if p then a else b).2 ↔ (p → Good W a.2) ∧ (¬p → Good W b.2) := by
  split <;> simp_all

@[simp] theorem nextAll_ite {p : Prop} [Decidable p] {a b : Host.Outcome State Fault Refusal} :
    nextAll P (if p then a else b) ↔ (p → nextAll P a) ∧ (¬p → nextAll P b) := by
  split <;> simp_all

@[simp] theorem resAll_ite {p : Prop} [Decidable p] {a b : WRes} :
    resAll P (if p then a else b) ↔ (p → resAll P a) ∧ (¬p → resAll P b) := by
  split <;> simp_all

/-- A state with other fields is good when every store that is canonical in `s` stays so and every watched field that
meets its predicate in `s` still meets it. -/
@[simp] theorem good_upd {xfreeCtr xreadData xfuse xpins xregs xlatch xstaging xrwlLock xtb xbm xtr xbb xob xcx ximage xjobs xmarks xdmap xts xtile xwarp xweft xsched xrd xkw xpm xsnap xkp} (h : Good W s)
    (h0 : W.canon → swf regReset s.regs = true → swf regReset xregs = true)
    (h1 : W.canon → swf dLane s.bm.lanes = true → swf dLane xbm.lanes = true)
    (h2 : W.canon → swf dStream s.bm.streams = true → swf dStream xbm.streams = true)
    (h3 : W.canon → swf dDWord s.tr.tables = true → swf dDWord xtr.tables = true)
    (h4 : W.canon → swf dMachine s.tr.machines = true → swf dMachine xtr.machines = true)
    (h5 : W.canon → swf dScore s.tr.scores = true → swf dScore xtr.scores = true)
    (h6 : W.canon → swf dTrigIn s.tr.trigIn = true → swf dTrigIn xtr.trigIn = true)
    (h7 : W.canon → swf dTrigOut s.tr.trigOut = true → swf dTrigOut xtr.trigOut = true)
    (h8 : W.canon → swf dByte s.bb.mem = true → swf dByte xbb.mem = true)
    (h9 : W.canon → swf dFalse s.bb.bad = true → swf dFalse xbb.bad = true)
    (h10 : W.canon → swf dDWord s.bb.chmap = true → swf dDWord xbb.chmap = true)
    (h11 : W.canon → swf dCap s.bb.cap = true → swf dCap xbb.cap = true)
    (h12 : W.canon → swf dMemChan s.bb.chans = true → swf dMemChan xbb.chans = true)
    (h13 : W.canon → swf dChain s.ob.chains = true → swf dChain xob.chains = true)
    (h14 : W.canon → swf dFalse s.cx.bias = true → swf dFalse xcx.bias = true)
    (h15 : W.canon → swf dMark s.marks = true → swf dMark xmarks = true)
    (h16 : W.canon → swf dDWord s.dmap = true → swf dDWord xdmap = true)
    (h17 : W.canon → swf dByte s.ts = true → swf dByte xts = true)
    (h18 : W.canon → swf dDWord s.tile.pick = true → swf dDWord xtile.pick = true)
    (h19 : W.canon → swf dNat s.tile.cells = true → swf dNat xtile.cells = true)
    (h20 : W.canon → swf dPage s.tile.pages = true → swf dPage xtile.pages = true)
    (h21 : W.canon → swf dWord s.tile.acc = true → swf dWord xtile.acc = true)
    (h22 : W.canon → swf dFalse s.tile.sat = true → swf dFalse xtile.sat = true)
    (h23 : W.canon → swf dSide s.tile.side = true → swf dSide xtile.side = true)
    (h24 : W.canon → swf dFalse s.warp.preds = true → swf dFalse xwarp.preds = true)
    (h25 : W.canon → swf dTokens s.warp.tokens = true → swf dTokens xwarp.tokens = true)
    (h26 : W.canon → swf dSkein s.warp.skeins = true → swf dSkein xwarp.skeins = true)
    (h27 : W.canon → swf dExec s.warp.execs = true → swf dExec xwarp.execs = true)
    (h28 : W.canon → swf dDWord s.weft.sreg = true → swf dDWord xweft.sreg = true)
    (h29 : W.canon → swf dDWord s.weft.preg = true → swf dDWord xweft.preg = true)
    (h30 : W.canon → swf dWord s.weft.vreg = true → swf dWord xweft.vreg = true)
    (h31 : W.canon → swf dXLane s.weft.xa = true → swf dXLane xweft.xa = true)
    (h32 : W.canon → swf dCore s.weft.cores = true → swf dCore xweft.cores = true)
    (h33 : W.canon → swf dSel s.weft.sel = true → swf dSel xweft.sel = true)
    (h34 : W.canon → swf dChan s.weft.chans = true → swf dChan xweft.chans = true)
    (h35 : W.canon → swf dCnt s.weft.cycles = true → swf dCnt xweft.cycles = true)
    (h36 : W.canon → swf dDWord s.rd.slots = true → swf dDWord xrd.slots = true)
    (h37 : W.canon → swf dPort s.kw.ports = true → swf dPort xkw.ports = true)
    (w0 : W.fuse s.fuse → W.fuse xfuse)
    (w1 : W.mem s.bb.mem → W.mem xbb.mem)
    (w2 : W.ts s.ts → W.ts xts)
    (w3 : W.flash s.kp.flash → W.flash xkp.flash)
    (w4 : W.image s.image → W.image ximage)
    (w5 : W.sreg s.weft.sreg → W.sreg xweft.sreg)
    (w6 : W.preg s.weft.preg → W.preg xweft.preg)
    (w7 : W.vreg s.weft.vreg → W.vreg xweft.vreg)
    (w8 : W.xa s.weft.xa → W.xa xweft.xa)
    (w9 : W.pick s.tile.pick → W.pick xtile.pick) :
    Good W (State.mk s.pending xfreeCtr xreadData xfuse xpins xregs xlatch xstaging xrwlLock xtb xbm xtr xbb xob xcx ximage xjobs xmarks xdmap xts xtile xwarp xweft xsched xrd xkw xpm xsnap xkp) := by
  obtain ⟨hq, hc, k0, k1, k2, k3, k4, k5, k6, k7, k8, k9⟩ := h
  refine ⟨hq, fun k => ?_, w0 k0, w1 k1, w2 k2, w3 k3, w4 k4, w5 k5, w6 k6, w7 k7, w8 k8, w9 k9⟩
  obtain ⟨c0, ⟨c1, c2⟩, ⟨c3, c4, c5, c6, c7⟩, ⟨c8, c9, c10, c11, c12⟩, c13, c14, c15, c16, c17, ⟨c18, c19, c20, c21, c22,
    c23⟩, ⟨c24, c25, c26, c27⟩, ⟨c28, c29, c30, c31, c32, c33, c34, c35⟩, c36, c37⟩ := hc k
  exact ⟨h0 k c0, ⟨h1 k c1, h2 k c2⟩, ⟨h3 k c3, h4 k c4, h5 k c5, h6 k c6, h7 k c7⟩, ⟨h8 k c8, h9 k c9, h10 k c10, h11 k
    c11, h12 k c12⟩, h13 k c13, h14 k c14, h15 k c15, h16 k c16, h17 k c17, ⟨h18 k c18, h19 k c19, h20 k c20, h21 k
    c21, h22 k c22, h23 k c23⟩, ⟨h24 k c24, h25 k c25, h26 k c26, h27 k c27⟩, ⟨h28 k c28, h29 k c29, h30 k c30, h31
    k c31, h32 k c32, h33 k c33, h34 k c34, h35 k c35⟩, h36 k c36, h37 k c37⟩

end Sys2Proof.Machine
end

