-- ==== Sys2Proof/Laws/GoodOps.lean ====
section
/-! SUPPORT. The operations of Machine/Ops.lean keep the queue, the fuses and the canonical form of every store. -/

namespace Sys2Proof.Machine

variable {W : Watch} {s : State}

@[simp] theorem setReg_good {x1} {x2} (h : Good W s) :
    Good W (setReg s x1 x2) := by
  simp (maxDischargeDepth := 30) +contextual only [setReg, *, good_upd, implies_true, swf_sset]

@[simp] theorem setF_good {x1} {x2} {x3} {x4} (h : Good W s) :
    Good W (setF s x1 x2 x3 x4) := by
  simp (maxDischargeDepth := 30) +contextual only [setF, *, setReg_good]

@[simp] theorem setRegBit_good {x1} {x2} {x3} (h : Good W s) :
    Good W (setRegBit s x1 x2 x3) := by
  simp (maxDischargeDepth := 30) +contextual only [setRegBit, *, setF_good]

@[simp] theorem setReg64_good {x1} {x2} (h : Good W s) :
    Good W (setReg64 s x1 x2) := by
  simp (maxDischargeDepth := 30) +contextual only [setReg64, *, setReg_good]

@[simp] theorem setRegN_good {x1} {x2} (h : Good W s) :
    Good W (setRegN s x1 x2) := by
  simp (maxDischargeDepth := 30) +contextual only [setRegN, *, setReg_good]

@[simp] theorem countUp_good {x1} {x2} (h : Good W s) :
    Good W (countUp s x1 x2) := by
  simp (maxDischargeDepth := 30) +contextual only [countUp, *, setRegN_good]

@[simp] theorem countUpF_good {x1} {x2} {x3} {x4} (h : Good W s) :
    Good W (countUpF s x1 x2 x3 x4) := by
  simp (maxDischargeDepth := 30) +contextual only [countUpF, *, setF_good]

@[simp] theorem resetRegs_good {x1} {x2} (h : Good W s) :
    Good W (resetRegs s x1 x2) := by
  simp (maxDischargeDepth := 30) +contextual only [resetRegs, *, good_upd, implies_true, swf_sclear]

@[simp] theorem onUnit_good {x1} {x2} {x3} {k4 : State → State} (h : Good W s) (hk : ∀ s, Good W s → Good W (k4 s)) :
    nextAll (Good W) (onUnit x1 x2 x3 s k4) := by
  simp (maxDischargeDepth := 30) +contextual only [onUnit, *, implies_true, and_self, nextAll_next, nextAll_ite,
      nextAll_fault]

@[simp] theorem onBlock_good {x1} {k2 : State → State} (h : Good W s) (hk : ∀ s, Good W s → Good W (k2 s)) :
    Good W (onBlock x1 s k2) := by
  simp (maxDischargeDepth := 30) +contextual only [onBlock, *, good_ite, implies_true, and_self]

@[simp] theorem freeBytes_good {x1} (h : Good W s) :
    Good W (freeBytes s x1).2 := by
  simp (maxDischargeDepth := 30) +contextual only [freeBytes, *, good_upd, implies_true]

@[simp] theorem setTbState_good {x1} (h : Good W s) :
    Good W (setTbState s x1) := by
  simp (maxDischargeDepth := 30) +contextual only [setTbState, *, setF_good]

@[simp] theorem tagTaken_good (h : Good W s) :
    Good W (tagTaken s) := by
  simp (maxDischargeDepth := 30) +contextual only [tagTaken, *, good_upd, implies_true]

@[simp] theorem msix_good {x1} (h : Good W s) :
    Good W (msix s x1) := by
  simp (maxDischargeDepth := 30) +contextual only [msix, *, good_upd, good_ite, implies_true, and_self, setRegBit_good]

@[simp] theorem msixUnmask_good {x1} (h : Good W s) :
    Good W (msixUnmask s x1) := by
  simp (maxDischargeDepth := 30) +contextual only [msixUnmask, *, good_upd, good_ite, implies_true, and_self,
      setRegBit_good]

@[simp] theorem faultDetail_good {x1} {x2} (h : Good W s) :
    Good W (faultDetail s x1 x2) := by
  simp (maxDischargeDepth := 30) +contextual only [faultDetail, *, good_ite, implies_true, and_self, setRegN_good]

@[simp] theorem logRaise_good {x1} {x2} {x3} (h : Good W s) :
    Good W (logRaise s x1 x2 x3) := by
  unfold logRaise
  split <;> simp (maxDischargeDepth := 30) +contextual only [*, good_upd, good_ite, implies_true, and_self, countUp_good]

@[simp] theorem setFaultBit_good {x1} {x2} {x3} {x4} (h : Good W s) :
    Good W (setFaultBit s x1 x2 x3 x4) := by
  simp (maxDischargeDepth := 30) +contextual only [setFaultBit, *, good_ite, implies_true, and_self, faultDetail_good,
      setReg64_good, setRegBit_good, msix_good]

@[simp] theorem raise_good {x1} {x2} {x3} (h : Good W s) :
    Good W (raise s x1 x2 x3) := by
  unfold raise
  split <;> simp (maxDischargeDepth := 30) +contextual only [*, logRaise_good, tagTaken_good, setFaultBit_good]

@[simp] theorem raiseOnce_good {x1} {x2} {x3} {x4} (h : Good W s) :
    Good W (raiseOnce s x1 x2 x3 x4) := by
  simp (maxDischargeDepth := 30) +contextual only [raiseOnce, *, good_upd, good_ite, implies_true, and_self, raise_good]

@[simp] theorem memPut_good {x1} {x2} (h : Good W s) (hmem : ∀ x, W.mem x := by assumption) :
    Good W (memPut s x1 x2) := by
  simp (maxDischargeDepth := 30) +contextual only [memPut, *, good_upd, imp_self, implies_true, swf_ssetMany]

@[simp] theorem setBad_good {x1} {x2} (h : Good W s) :
    Good W (setBad s x1 x2) := by
  simp (maxDischargeDepth := 30) +contextual only [setBad, *, good_upd, implies_true, swf_sset]

@[simp] theorem clearWhole_good {x1} {x2} (h : Good W s) :
    Good W (clearWhole s x1 x2) := by
  simp (maxDischargeDepth := 30) +contextual only [clearWhole, *, good_ite, implies_true, and_self, good_foldl, setBad_good]

@[simp] theorem refuseAccess_good (h : Good W s) :
    Good W (refuseAccess s) := by
  simp (maxDischargeDepth := 30) +contextual only [refuseAccess, *, countUp_good, raise_good]

@[simp] theorem eyeLost_good {x1} (h : Good W s) :
    Good W (eyeLost s x1) := by
  simp (maxDischargeDepth := 30) +contextual only [eyeLost, *, good_ite, implies_true, and_self, setRegBit_good,
      setReg_good]

@[simp] theorem keepLater_good {x1} (h : Good W s) :
    Good W (keepLater s x1) := by
  simp (maxDischargeDepth := 30) +contextual only [keepLater, *, good_upd, implies_true]

end Sys2Proof.Machine
end

