-- ==== Sys2Proof/Laws/GoodSchedOps.lean ====
section
/-! SUPPORT. The operations of Machine/SchedOps.lean keep the queue, the fuses and the canonical form of every store. -/

namespace Sys2Proof.Machine

variable {W : Watch} {s : State}

@[simp] theorem setHalted_good {x1} {x2} (h : Good W s) :
    Good W (setHalted s x1 x2) := by
  simp (maxDischargeDepth := 30) +contextual only [setHalted, *, setRegBit_good]

@[simp] theorem noteQueue_good {x1} (h : Good W s) :
    Good W (noteQueue s x1) := by
  simp (maxDischargeDepth := 30) +contextual only [noteQueue, *, setF_good]

@[simp] theorem enqueue_good {x1} {x2} {x3} {x4} (h : Good W s) :
    Good W (enqueue s x1 x2 x3 x4) := by
  simp (maxDischargeDepth := 30) +contextual only [enqueue, *, good_upd, good_ite, implies_true, and_self, raise_good,
      noteQueue_good]

@[simp] theorem autoJob_good {x1} {x2} {x3} (h : Good W s) :
    Good W (autoJob s x1 x2 x3) := by
  unfold autoJob
  (repeat' split) <;> simp (maxDischargeDepth := 30) +contextual only [*, good_ite, implies_true, and_self,
      freeBytes_good, setRegN_good, enqueue_good, countUp_good, raise_good]

end Sys2Proof.Machine
end

