-- ==== Sys2Proof/Laws/GoodNetwork.lean ====
section
/-! SUPPORT. The operations of Machine/Network.lean keep the queue, the fuses and the canonical form of every store. -/

namespace Sys2Proof.Machine

variable {W : Watch} {s : State}

@[simp] theorem dropped_good {x1} (h : Good W s) :
    Good W (dropped s x1) := by
  simp (maxDischargeDepth := 30) +contextual only [dropped, *, countUp_good]

@[simp] theorem inject_good {x1} (h : Good W s) :
    Good W (inject s x1) := by
  simp (maxDischargeDepth := 30) +contextual only [inject, *, good_upd, good_ite, implies_true, and_self, dropped_good,
      raise_good]

@[simp] theorem injectWrites_good {x1} {x2} {x3} {x4} {x5} (h : Good W s) :
    Good W (injectWrites s x1 x2 x3 x4 x5) := by
  simp (maxDischargeDepth := 30) +contextual only [injectWrites, *, implies_true, good_foldl, inject_good]

@[simp] theorem flitsMeet_good {x1} {x2} (h : Good W s) :
    Good W (flitsMeet s x1 x2).1 := by
  unfold flitsMeet
  split <;> simp (maxDischargeDepth := 30) +contextual only [*, countUpF_good, raise_good]

@[simp] theorem takePacket_good {x1} {x2} (h : Good W s) :
    Good W (takePacket s x1 x2).1 := by
  simp (maxDischargeDepth := 30) +contextual only [takePacket, *, good_upd, implies_true, flitsMeet_good]

@[simp] theorem received_good {x1} (h : Good W s) :
    Good W (received s x1).2 := by
  unfold received
  split <;> simp (maxDischargeDepth := 30) +contextual only [*, freeBytes_good]

end Sys2Proof.Machine
end

