-- ==== Sys2Proof/Laws/GoodPeerOps.lean ====
section
/-! SUPPORT. The operations of Machine/PeerOps.lean keep the queue, the fuses and the canonical form of every store. -/

namespace Sys2Proof.Machine

variable {W : Watch} {s : State}

@[simp] theorem setPort_good {x1} {x2} (h : Good W s) :
    Good W (setPort s x1 x2) := by
  simp (maxDischargeDepth := 30) +contextual only [setPort, *, good_upd, implies_true, swf_sset]

@[simp] theorem setPortState_good {x1} {x2} (h : Good W s) :
    Good W (setPortState s x1 x2) := by
  simp (maxDischargeDepth := 30) +contextual only [setPortState, *, good_ite, implies_true, and_self, msix_good, setF_good]

@[simp] theorem portSend_good {x1} {x2} {x3} (h : Good W s) :
    Good W (portSend s x1 x2 x3) := by
  simp (maxDischargeDepth := 30) +contextual only [portSend, *, good_ite, implies_true, and_self, setPort_good]

@[simp] theorem forwardOn_good {x1} {x2} (h : Good W s) :
    Good W (forwardOn s x1 x2) := by
  simp (maxDischargeDepth := 30) +contextual only [forwardOn, *, good_ite, implies_true, and_self, countUp_good,
      raiseOnce_good, portSend_good]

@[simp] theorem forwardRecord_good {x1} {x2} (h : Good W s) :
    Good W (forwardRecord s x1 x2) := by
  simp (maxDischargeDepth := 30) +contextual only [forwardRecord, *, good_ite, implies_true, and_self, good_foldl,
      forwardOn_good]

end Sys2Proof.Machine
end

