-- ==== Sys2Proof/Laws/GoodProvenance.lean ====
section
/-! SUPPORT. The operations of Machine/Provenance.lean keep the queue, the fuses and the canonical form of every store. -/

namespace Sys2Proof.Machine

variable {W : Watch} {s : State}

@[simp] theorem setChain_good {x1} {x2} (h : Good W s) :
    Good W (setChain s x1 x2) := by
  simp (maxDischargeDepth := 30) +contextual only [setChain, *, good_upd, implies_true, swf_sset]

@[simp] theorem closeBlock_good {x1} {x2} (h : Good W s) :
    Good W (closeBlock s x1 x2) := by
  simp (maxDischargeDepth := 30) +contextual only [closeBlock, *, good_ite, implies_true, and_self, good_foldl,
      setChain_good, setRegN_good]

@[simp] theorem provDeliver_good {x1} {x2} {x3} {x4} (h : Good W s) :
    Good W (provDeliver s x1 x2 x3 x4) := by
  simp (maxDischargeDepth := 30) +contextual only [provDeliver, *, good_ite, implies_true, and_self, setChain_good,
      setRegN_good, closeBlock_good]

@[simp] theorem provRunStart_good (h : Good W s) :
    Good W (provRunStart s) := by
  simp (maxDischargeDepth := 30) +contextual only [provRunStart, *, implies_true, good_foldl, setChain_good, setRegN_good]

@[simp] theorem provRunEnd_good (h : Good W s) :
    Good W (provRunEnd s) := by
  simp (maxDischargeDepth := 30) +contextual only [provRunEnd, *, implies_true, good_foldl, closeBlock_good]

@[simp] theorem snapMissed_good (h : Good W s) :
    Good W (snapMissed s) := by
  simp (maxDischargeDepth := 30) +contextual only [snapMissed, *, countUp_good, raiseOnce_good]

@[simp] theorem snapRequest_good {x1} {x2} (h : Good W s) :
    Good W (snapRequest s x1 x2) := by
  unfold snapRequest
  (repeat' split) <;> simp (maxDischargeDepth := 30) +contextual only [*, good_upd, implies_true, snapMissed_good,
      setF_good, setRegBit_good]

@[simp] theorem latchBanks_good {x1} (h : Good W s) :
    Good W (latchBanks s x1) := by
  simp (maxDischargeDepth := 30) +contextual only [latchBanks, *, good_upd, implies_true, setReg64_good, setRegBit_good]

@[simp] theorem snapLatch_good (h : Good W s) :
    Good W (snapLatch s) := by
  unfold snapLatch
  split <;> simp (maxDischargeDepth := 30) +contextual only [*, good_upd, good_ite, implies_true, and_self, latchBanks_good]

@[simp] theorem snapOutFalls_good (h : Good W s) :
    Good W (snapOutFalls s) := by
  unfold snapOutFalls
  split <;> simp (maxDischargeDepth := 30) +contextual only [*, good_upd, good_ite, implies_true, and_self]

end Sys2Proof.Machine
end

