-- ==== Sys2Proof/Laws/GoodTreadle.lean ====
section
/-! SUPPORT. The operations of Machine/Treadle.lean keep the queue, the fuses and the canonical form of every store. -/

namespace Sys2Proof.Machine

variable {W : Watch} {s : State}

@[simp] theorem setTrigIn_good {x1} {x2} (h : Good W s) :
    Good W (setTrigIn s x1 x2) := by
  simp (maxDischargeDepth := 30) +contextual only [setTrigIn, *, good_upd, implies_true, swf_sset]

@[simp] theorem setBmStream_good {x1} {x2} (h : Good W s) :
    Good W (setBmStream s x1 x2) := by
  simp (maxDischargeDepth := 30) +contextual only [setBmStream, *, good_upd, implies_true, swf_sset]

@[simp] theorem pruneEdges_good {x1} (h : Good W s) :
    Good W (pruneEdges s x1) := by
  simp (maxDischargeDepth := 30) +contextual only [pruneEdges, *, setTrigIn_good]

@[simp] theorem setMachine_good {x1} {x2} {x3} (h : Good W s) :
    Good W (setMachine s x1 x2 x3) := by
  simp (maxDischargeDepth := 30) +contextual only [setMachine, *, good_upd, implies_true, swf_sset]

@[simp] theorem tickTimers_good (h : Good W s) :
    Good W (tickTimers s) := by
  simp (maxDischargeDepth := 30) +contextual only [tickTimers, *, good_ite, implies_true, and_self, good_foldl,
      setMachine_good]

@[simp] theorem setTrigOut_good {x1} {x2} (h : Good W s) :
    Good W (setTrigOut s x1 x2) := by
  simp (maxDischargeDepth := 30) +contextual only [setTrigOut, *, good_upd, implies_true, swf_sset]

@[simp] theorem pulseStart_good {x1} (h : Good W s) :
    Good W (pulseStart s x1) := by
  simp (maxDischargeDepth := 30) +contextual only [pulseStart, *, setTrigOut_good]

@[simp] theorem trigOutOff_good (h : Good W s) : Good W (trigOutOff s) := by
  apply good_upd h <;> simp +contextual only [implies_true, swf_nil]

@[simp] theorem decisionPulses_good {x1} {x2} (h : Good W s) :
    Good W (decisionPulses s x1 x2) := by
  simp (maxDischargeDepth := 30) +contextual only [decisionPulses, *, good_ite, implies_true, and_self, good_foldl,
      pulseStart_good]

@[simp] theorem sendRecord_good {x1} {x2} {x3} (h : Good W s) :
    Good W (sendRecord s x1 x2 x3) := by
  simp (maxDischargeDepth := 30) +contextual only [sendRecord, *, good_upd, good_ite, implies_true, and_self,
      countUp_good, raise_good, inject_good, raiseOnce_good]

@[simp] theorem lostFrame_good {x1} {x2} {x3} {x4} (h : Good W s) :
    Good W (lostFrame s x1 x2 x3 x4) := by
  simp (maxDischargeDepth := 30) +contextual only [lostFrame, *, countUp_good, raiseOnce_good, sendRecord_good,
      forwardRecord_good]

@[simp] theorem loseUndecided_good {x1} (h : Good W s) :
    Good W (loseUndecided s x1) := by
  simp (maxDischargeDepth := 30) +contextual only [loseUndecided, *, good_upd, implies_true, good_foldl, lostFrame_good]

@[simp] theorem markFrame_good {x1} {x2} (h : Good W s) :
    Good W (markFrame s x1 x2) := by
  simp (maxDischargeDepth := 30) +contextual only [markFrame, *, good_upd, good_ite, implies_true, and_self, swf_sset,
      countUp_good]

@[simp] theorem applyActions_good {n t acts} (h : Good W s) : Good W (applyActions s n t acts) := by
  refine good_foldl h fun u m hu => ?_
  split <;> simp [*]

@[simp] theorem decisionEffects_good {e d t} (h : Good W s) : Good W (decisionEffects s e d t) := by
  unfold decisionEffects
  extract_lets n s1 s2 a b s3 s4 y s5 s6 x
  have g1 : Good W s1 := by simp only [s1, setRegBit_good, h]
  clear_value s1
  have g2 : Good W s2 := by simp only [s2, good_ite, setRegBit_good, g1, implies_true, and_self]
  clear_value s2
  have g3 : Good W s3 := by
    simp only [s3, a, b]
    split
    · apply good_upd (countUp_good g2) <;>
    first | exact id | exact fun _ k => k
    · exact g2
  clear_value s3
  have g4 : Good W s4 := by simp only [s4, good_ite, countUp_good, g3, implies_true, and_self]
  clear_value s4
  have g5 : Good W s5 := by
    simp only [s5, y, good_ite, setRegBit_good, msix_good, g4, implies_true, and_self]
  clear_value s5
  have g6 : Good W s6 := by simp only [s6, good_ite, snapRequest_good, g5, implies_true, and_self]
  clear_value s6
  simp only [good_ite, setBmStream_good, g6, implies_true, and_self]

@[simp] theorem evaluate_good {x1} (h : Good W s) :
    Good W (evaluate s x1) := by
  simp (maxDischargeDepth := 30) +contextual only [evaluate, *, good_upd, good_ite, implies_true, and_self, good_foldl,
      raise_good, applyActions_good, decisionEffects_good, decisionPulses_good, forwardRecord_good, sendRecord_good,
      pruneEdges_good]

@[simp] theorem treadleRunStart_good (h : Good W s) : Good W (treadleRunStart s) := by
  refine good_foldl ?_ fun t m ht => by simp [ht]
  apply good_upd h <;> simp +contextual [*]

@[simp] theorem execEvaluation_good {x1} (h : Good W s) :
    nextAll (Good W) (execEvaluation x1 s) := by
  unfold execEvaluation
  refine onUnit_good h fun s h => ?_
  (repeat' split) <;> simp (maxDischargeDepth := 30) +contextual only [*, evaluate_good]

@[simp] theorem execTreadleTimerExpiry_good {x1} {x2} {x3} (h : Good W s) :
    nextAll (Good W) (execTreadleTimerExpiry x1 x2 x3 s) := by
  simp (maxDischargeDepth := 30) +contextual only [execTreadleTimerExpiry, *, good_ite, implies_true, and_self,
      onUnit_good, setMachine_good]

@[simp] theorem execTrigOutPulseEnd_good {x1} (h : Good W s) :
    nextAll (Good W) (execTrigOutPulseEnd x1 s) := by
  simp (maxDischargeDepth := 30) +contextual only [execTrigOutPulseEnd, *, implies_true, onUnit_good, setTrigOut_good]

@[simp] theorem execForce_good {x1} (h : Good W s) :
    nextAll (Good W) (execForce x1 s) := by
  simp (maxDischargeDepth := 30) +contextual only [execForce, *, implies_true, onUnit_good, onBlock_good, setRegBit_good]

@[simp] theorem prerunEvent_good (h : Good W s) :
    Good W (prerunEvent s) := by
  simp (maxDischargeDepth := 30) +contextual only [prerunEvent, *, countUp_good, raiseOnce_good]

@[simp] theorem execTrigInEdge_recordEdge_good {x1} {x2} (h : Good W s) :
    Good W (execTrigInEdge.recordEdge x1 x2 s) := by
  simp (maxDischargeDepth := 30) [execTrigInEdge.recordEdge, *]

@[simp] theorem execTrigInEdge_good {i r t} (h : Good W s) : nextAll (Good W) (execTrigInEdge i r t s) := by
  refine onUnit_good h fun s h => ?_
  dsimp only
  have := @execTrigInEdge_recordEdge_good W
  (repeat' split) <;> simp [*]

end Sys2Proof.Machine
end

