-- ==== Sys2Proof/Laws/GoodBobbin.lean ====
section
/-! SUPPORT. The operations of Machine/Bobbin.lean keep the queue, the fuses and the canonical form of every store. -/

namespace Sys2Proof.Machine

variable {W : Watch} {s : State}

@[simp] theorem noteBad_good {x1} (h : Good W s) :
    Good W (noteBad s x1) := by
  simp (maxDischargeDepth := 30) +contextual only [noteBad, *, good_upd, good_ite, implies_true, and_self,
      countUp_good, raise_good, setReg64_good, setBad_good]

@[simp] theorem readLine_good {x1} {x2} (h : Good W s) (hmem : ∀ x, W.mem x := by assumption) :
    Good W (readLine s x1 x2).1 := by
  unfold readLine
  (try dsimp only)
  (repeat' split) <;> simp (maxDischargeDepth := 30) +contextual only [*, implies_true, noteBad_good, setF_good,
      countUp_good, raise_good, memPut_good]

@[simp] theorem memWrite_good {x1} {x2} {x3} (h : Good W s) (hmem : ∀ x, W.mem x := by assumption) :
    Good W (memWrite s x1 x2 x3) := by
  simp (maxDischargeDepth := 30) +contextual only [memWrite, *, good_ite, implies_true, and_self, good_foldl,
      readLine_good, memPut_good, clearWhole_good]

@[simp] theorem writeRegion_good {x1} {x2} (h : Good W s) :
    Good W (writeRegion s x1 x2) := by
  simp (maxDischargeDepth := 30) +contextual only [writeRegion, *, good_ite, implies_true, and_self, setF_good,
      raise_good, setRegBit_good]

@[simp] theorem setCap_good {x1} {x2} (h : Good W s) :
    Good W (setCap s x1 x2) := by
  simp (maxDischargeDepth := 30) +contextual only [setCap, *, good_upd, implies_true, implies_true, swf_sset]

@[simp] theorem placeRecord_good {x1} {x2} (h : Good W s) :
    Good W (placeRecord s x1 x2) := by
  simp (maxDischargeDepth := 30) +contextual only [placeRecord, *, setCap_good]

@[simp] theorem stopCapture_good {x1} {x2} {x3} (h : Good W s) :
    Good W (stopCapture s x1 x2 x3) := by
  simp (maxDischargeDepth := 30) +contextual only [stopCapture, *, good_ite, implies_true, and_self, placeRecord_good,
      setCap_good, countUp_good, raise_good, setRegBit_good, setF_good, msix_good]

@[simp] theorem setFill_good {x1} {x2} (h : Good W s) :
    Good W (setFill s x1 x2) := by
  simp (maxDischargeDepth := 30) +contextual only [setFill, *, good_ite, implies_true, and_self, setF_good, setRegN_good]

@[simp] theorem commitFrame_good {x1} {x2} {x3} {x4} (h : Good W s) :
    Good W (commitFrame s x1 x2 x3 x4) := by
  simp (maxDischargeDepth := 30) +contextual only [commitFrame, *, good_ite, implies_true, and_self, good_foldl,
      setRegBit_good, countUp_good, setCap_good, stopCapture_good, setFill_good, placeRecord_good]

@[simp] theorem dropPending_good {x1} (h : Good W s) :
    Good W (dropPending s x1) := by
  simp (maxDischargeDepth := 30) +contextual only [dropPending, *, good_upd, implies_true]

@[simp] theorem decidePending_good {x1} {x2} {x3} {x4} (h : Good W s) :
    Good W (decidePending s x1 x2 x3 x4) := by
  unfold decidePending
  split <;> simp (maxDischargeDepth := 30) +contextual only [*, good_ite, implies_true, and_self, dropPending_good,
      autoJob_good, commitFrame_good]

@[simp] theorem missPending_good {x1} (h : Good W s) :
    Good W (missPending s x1) := by
  simp (maxDischargeDepth := 30) +contextual only [missPending, *, good_upd, implies_true, dropPending_good,
      raise_good, inject_good]

@[simp] theorem bobbinRunStart_good (h : Good W s) :
    Good W (bobbinRunStart s) := by
  simp (maxDischargeDepth := 30) +contextual only [bobbinRunStart, *, good_upd, implies_true, good_foldl,
      missPending_good, setCap_good, setF_good, setRegBit_good]

@[simp] theorem bobbinRunEnd_good (h : Good W s) :
    Good W (bobbinRunEnd s) := by
  simp (maxDischargeDepth := 30) +contextual only [bobbinRunEnd, *, implies_true, good_foldl, setRegBit_good]

@[simp] theorem dropC1_good (h : Good W s) :
    Good W (dropC1 s) := by
  simp (maxDischargeDepth := 30) +contextual only [dropC1, *, good_upd, implies_true]

@[simp] theorem ignored_good {x1} {x2} (h : Good W s) :
    Good W (ignored s x1 x2) := by
  simp (maxDischargeDepth := 30) +contextual only [ignored, *, good_upd, implies_true]

@[simp] theorem countRecord_good {x1} (h : Good W s) :
    Good W (countRecord s x1) := by
  simp (maxDischargeDepth := 30) +contextual only [countRecord, *, good_upd, good_ite, implies_true, and_self, setRegN_good]

@[simp] theorem recordArrives_good {x1} {x2} (h : Good W s) (hmem : ∀ x, W.mem x := by assumption) :
    Good W (recordArrives s x1 x2) := by
  simp (maxDischargeDepth := 30) +contextual only [recordArrives, *, good_ite, implies_true, and_self, ignored_good,
      received_good, countRecord_good, memWrite_good, decidePending_good]

@[simp] theorem execC1Record_good {x1} {x2} (h : Good W s) (hmem : ∀ x, W.mem x := by assumption) :
    nextAll (Good W) (execC1Record x1 x2 s) := by
  unfold execC1Record
  refine onUnit_good h fun s h => ?_
  (try dsimp only)
  (repeat' split) <;> simp (maxDischargeDepth := 30) +contextual only [*, implies_true, takePacket_good, recordArrives_good]

@[simp] theorem frameReportedLost_good {x1} {x2} (h : Good W s) :
    Good W (frameReportedLost s x1 x2) := by
  simp (maxDischargeDepth := 30) +contextual only [frameReportedLost, *, good_upd, implies_true, lostFrame_good]

@[simp] theorem commitArrives_good {x1} {x2} (h : Good W s) :
    Good W (commitArrives s x1 x2) := by
  simp (maxDischargeDepth := 30) +contextual only [commitArrives, *, good_ite, implies_true, and_self, ignored_good,
      decidePending_good]

@[simp] theorem execC1Commit_good {x1} {x2} {x3} (h : Good W s) :
    nextAll (Good W) (execC1Commit x1 x2 x3 s) := by
  unfold execC1Commit
  refine onUnit_good h fun s h => ?_
  (try dsimp only)
  (repeat' split) <;> simp (maxDischargeDepth := 30) +contextual only [*, takePacket_good, frameReportedLost_good,
      commitArrives_good]

@[simp] theorem execDecisionMissing_good {x1} (h : Good W s) :
    nextAll (Good W) (execDecisionMissing x1 s) := by
  unfold execDecisionMissing
  refine onUnit_good h fun s h => ?_
  (try dsimp only)
  (repeat' split) <;> simp (maxDischargeDepth := 30) +contextual only [*, missPending_good]

@[simp] theorem execBobbinWrite_good {x1} (h : Good W s) (hmem : ∀ x, W.mem x := by assumption) :
    nextAll (Good W) (execBobbinWrite x1 s) := by
  unfold execBobbinWrite
  refine onUnit_good h fun s h => ?_
  dsimp only
  (repeat' split) <;> simp (maxDischargeDepth := 30) +contextual only [*, implies_true, setCap_good, memWrite_good,
      setReg64_good]

@[simp] theorem execRearm_good {x1} (h : Good W s) :
    nextAll (Good W) (execRearm x1 s) := by
  simp (maxDischargeDepth := 30) +contextual only [execRearm, *, good_ite, implies_true, and_self, onUnit_good,
      onBlock_good, setRegBit_good]

@[simp] theorem newBobbin_good {x1} (h : Good W s) : Good W (newBobbin s x1) := by
  simp (maxDischargeDepth := 30) +contextual only [newBobbin, *, setCap_good, setReg64_good]

@[simp] theorem execRegionValidWrite_good {x1} {x2} {x3} (h : Good W s) :
    nextAll (Good W) (execRegionValidWrite x1 x2 x3 s) := by
  simp (maxDischargeDepth := 30) +contextual only [execRegionValidWrite, *, good_ite, implies_true, and_self,
      onUnit_good, onBlock_good, writeRegion_good, newBobbin_good]

@[simp] theorem execRefresh_good {x1} {x2} (h : Good W s) :
    nextAll (Good W) (execRefresh x1 x2 s) := by
  simp (maxDischargeDepth := 30) +contextual only [execRefresh, *, good_upd, good_ite, implies_true, and_self, onUnit_good]

@[simp] theorem execZqCalibration_good {x1} (h : Good W s) :
    nextAll (Good W) (execZqCalibration x1 s) := by
  simp (maxDischargeDepth := 30) +contextual only [execZqCalibration, *, implies_true, onUnit_good]

@[simp] theorem execDimmTempRead_good {x1} {x2} (h : Good W s) :
    nextAll (Good W) (execDimmTempRead x1 x2 s) := by
  simp (maxDischargeDepth := 30) +contextual only [execDimmTempRead, *, good_ite, implies_true, and_self, onUnit_good,
      setF_good, setRegBit_good, raise_good]

@[simp] theorem execScrub_good {x1} {x2} (h : Good W s) (hmem : ∀ x, W.mem x := by assumption) :
    nextAll (Good W) (execScrub x1 x2 s) := by
  simp (maxDischargeDepth := 30) +contextual only [execScrub, *, good_upd, good_ite, imp_self, implies_true, and_self,
      onUnit_good, readLine_good]

@[simp] theorem execLinkRecord_good {x1} (h : Good W s) (hmem : ∀ x, W.mem x := by assumption) :
    nextAll (Good W) (execLinkRecord x1 s) := by
  unfold execLinkRecord
  refine onUnit_good h fun s h => ?_
  dsimp only
  (repeat' split) <;> simp (maxDischargeDepth := 30) +contextual only [*, implies_true, setChain_good, setRegBit_good,
      raiseOnce_good, memWrite_good, setRegN_good]

end Sys2Proof.Machine
end

