-- ==== Sys2Proof/Laws/GoodTileStore.lean ====
section
/-! SUPPORT. The operations of Machine/TileStore.lean keep the queue, the fuses and the canonical form of every store. -/

namespace Sys2Proof.Machine

variable {W : Watch} {s : State}

@[simp] theorem tsWrite_good {x1} {x2} {x3} (h : Good W s) (hts : ∀ x, W.ts x := by assumption) :
    Good W (tsWrite s x1 x2 x3) := by
  simp (maxDischargeDepth := 30) +contextual only [tsWrite, *, good_upd, imp_self, implies_true, swf_ssetMany]

end Sys2Proof.Machine
end

