-- ==== Sys2Proof/Laws/GoodReedOps.lean ====
section
/-! SUPPORT. The operations of Machine/ReedOps.lean keep the queue, the fuses and the canonical form of every store. -/

namespace Sys2Proof.Machine

variable {W : Watch} {s : State}

@[simp] theorem launchBurst_good {x1} {x2} {x3} {x4} {x5} (h : Good W s) :
    Good W (launchBurst s x1 x2 x3 x4 x5) := by
  simp (maxDischargeDepth := 30) +contextual only [launchBurst, *, good_upd, implies_true]

@[simp] theorem followEntry_good {x1} {x2} (h : Good W s) :
    Good W (followEntry s x1 x2) := by
  unfold followEntry
  dsimp only
  (repeat' split) <;> simp (maxDischargeDepth := 30) +contextual only [*, good_upd, implies_true]

@[simp] theorem cutFlits_good (h : Good W s) :
    Good W (cutFlits s) := by
  simp (maxDischargeDepth := 30) +contextual only [cutFlits, *, good_upd, good_ite, implies_true, and_self,
      dropped_good, raise_good]

end Sys2Proof.Machine
end

