-- ==== Sys2Proof/Laws/GoodBeam.lean ====
section
/-! SUPPORT. The operations of Machine/Beam.lean keep the queue, the fuses and the canonical form of every store. -/

namespace Sys2Proof.Machine

variable {W : Watch} {s : State}

@[simp] theorem setLane_good {x1} {x2} (h : Good W s) :
    Good W (setLane s x1 x2) := by
  simp (maxDischargeDepth := 30) +contextual only [setLane, *, good_upd, implies_true, implies_true, swf_sset]

@[simp] theorem setLaneState_good {x1} {x2} (h : Good W s) :
    Good W (setLaneState s x1 x2) := by
  simp (maxDischargeDepth := 30) +contextual only [setLaneState, *, setF_good]

@[simp] theorem laneCause_good {x1} {x2} (h : Good W s) :
    Good W (laneCause s x1 x2) := by
  simp (maxDischargeDepth := 30) +contextual only [laneCause, *, countUp_good, raise_good]

@[simp] theorem laneGoesDown_good {x1} (h : Good W s) :
    Good W (laneGoesDown s x1) := by
  simp (maxDischargeDepth := 30) +contextual only [laneGoesDown, *, laneCause_good, setRegBit_good, setLaneState_good,
      setLane_good, eyeLost_good]

@[simp] theorem headerMissed_good {x1} (h : Good W s) :
    Good W (headerMissed s x1) := by
  simp (maxDischargeDepth := 30) +contextual only [headerMissed, *, good_ite, implies_true, and_self, setRegBit_good,
      setLane_good, laneGoesDown_good]

@[simp] theorem headerFound_good {x1} (h : Good W s) :
    Good W (headerFound s x1) := by
  simp (maxDischargeDepth := 30) +contextual only [headerFound, *, good_ite, implies_true, and_self, setLane_good,
      setRegBit_good]

@[simp] theorem keepBolt_good {x1} {x2} (h : Good W s) :
    Good W (keepBolt s x1 x2) := by
  simp (maxDischargeDepth := 30) +contextual only [keepBolt, *, setLane_good]

@[simp] theorem laneAlign_good {x1} {x2} (h : Good W s) :
    Good W (laneAlign s x1 x2) := by
  simp (maxDischargeDepth := 30) +contextual only [laneAlign, *, good_ite, implies_true, and_self, setRegN_good,
      setRegBit_good, setLaneState_good, countUp_good, raiseOnce_good]

@[simp] theorem keepLost_good {x1} {x2} {x3} {x4} {x5} (h : Good W s) :
    Good W (keepLost s x1 x2 x3 x4 x5) := by
  simp (maxDischargeDepth := 30) +contextual only [keepLost, *, good_ite, implies_true, and_self, keepBolt_good]

@[simp] theorem noteBolt_good {x1} {x2} (h : Good W s) :
    Good W (noteBolt s x1 x2) := by
  simp (maxDischargeDepth := 30) +contextual only [noteBolt, *, good_ite, implies_true, and_self, good_foldl,
      laneCause_good, countUp_good]

@[simp] theorem takeBolt_good {x1} {x2} {x3} {x4} {x5} (h : Good W s) :
    Good W (takeBolt s x1 x2 x3 x4 x5) := by
  unfold takeBolt
  extract_lets l r hdr t1 t2
  have g1 : Good W t1 := by simp (maxDischargeDepth := 30) +contextual only [t1, *, noteBolt_good, setLane_good]
  clear_value t1
  have g2 : Good W t2 := by simp (maxDischargeDepth := 30) +contextual only [t2, *, good_ite, implies_true, and_self,
      headerMissed_good, headerFound_good]
  clear_value t2
  (repeat' split) <;> simp (maxDischargeDepth := 30) +contextual only [*, implies_true, good_foldl, keepLost_good,
      keepBolt_good, laneCause_good]

@[simp] theorem searchBolt_good {x1} {x2} (h : Good W s) :
    Good W (searchBolt s x1 x2) := by
  simp (maxDischargeDepth := 30) +contextual only [searchBolt, *, good_ite, implies_true, and_self, setLane_good,
      setRegBit_good, noteBolt_good, headerFound_good]

@[simp] theorem idleBolt_good {x1} {x2} (h : Good W s) :
    Good W (idleBolt s x1 x2) := by
  simp (maxDischargeDepth := 30) +contextual only [idleBolt, *, good_ite, implies_true, and_self, searchBolt_good,
      setLaneState_good]

@[simp] theorem firstBolt_good {x1} {x2} {x3} {x4} {x5} (h : Good W s) :
    Good W (firstBolt s x1 x2 x3 x4 x5) := by
  simp (maxDischargeDepth := 30) +contextual only [firstBolt, *, good_ite, implies_true, and_self, takeBolt_good,
      laneAlign_good, searchBolt_good]

@[simp] theorem runBolt_good {x1} {x2} {x3} {x4} {x5} (h : Good W s) :
    Good W (runBolt s x1 x2 x3 x4 x5) := by
  simp (maxDischargeDepth := 30) +contextual only [runBolt, *, good_ite, implies_true, and_self, firstBolt_good,
      takeBolt_good, setRegBit_good, setLaneState_good, searchBolt_good, setLane_good, headerMissed_good,
      laneCause_good, keepLost_good]

@[simp] theorem queueStatus_good {x1} {x2} (h : Good W s) :
    Good W (queueStatus s x1 x2) := by
  simp (maxDischargeDepth := 30) +contextual only [queueStatus, *, good_ite, implies_true, and_self, countUp_good,
      raiseOnce_good, setBmStream_good]

@[simp] theorem deliverToTiles_good {x1} {x2} {x3} (h : Good W s) (hts : ∀ x, W.ts x := by assumption) :
    Good W (deliverToTiles s x1 x2 x3) := by
  simp (maxDischargeDepth := 30) +contextual only [deliverToTiles, *, good_ite, implies_true, and_self, good_foldl,
      tsWrite_good]

@[simp] theorem unitErrors_good {x1} (h : Good W s) : Good W (unitErrors s x1) := by
  refine good_foldl h fun s f h => ?_
  split <;> simp [*]

@[simp] theorem prerunChannels_good {x1} {x2} {x3} (h : Good W s) :
    Good W (prerunChannels s x1 x2 x3) := by
  simp (maxDischargeDepth := 30) +contextual only [prerunChannels, *, good_ite, implies_true, and_self, good_foldl,
      prerunEvent_good]

@[simp] theorem handOver_good {x1} {x2} {x3} {x4} {x5} {x6} (h : Good W s) (hts : ∀ x, W.ts x := by assumption) :
    Good W (handOver s x1 x2 x3 x4 x5 x6) := by
  simp (maxDischargeDepth := 30) +contextual only [handOver, *, good_upd, good_ite, imp_self, implies_true, and_self,
      setBmStream_good, countUp_good, unitErrors_good, deliverToTiles_good, prerunChannels_good, provDeliver_good]

@[simp] theorem dropBolts_good {x1} {x2} (h : Good W s) :
    Good W (dropBolts s x1 x2) := by
  simp (maxDischargeDepth := 30) +contextual only [dropBolts, *, implies_true, good_foldl, setLane_good]

@[simp] theorem laneDownDue_good {x1} {x2} (h : Good W s) :
    Good W (laneDownDue s x1 x2) := by
  simp (maxDischargeDepth := 30) +contextual only [laneDownDue, *, good_ite, implies_true, and_self, setLane_good,
      laneCause_good]

@[simp] theorem statusRecords_good {n t fs} (h : Good W s) : Good W (statusRecords s n t fs) := by
  refine good_foldl h fun s p h => ?_
  dsimp only
  split <;> simp [*]

@[simp] theorem deliverFrame_good {x1} {x2} {x3} (h : Good W s) (hts : ∀ x, W.ts x := by assumption) :
    Good W (deliverFrame s x1 x2 x3) := by
  simp (maxDischargeDepth := 30) +contextual only [deliverFrame, *, good_ite, implies_true, and_self, dropBolts_good,
      handOver_good, raiseOnce_good, statusRecords_good, setBmStream_good]

@[simp] theorem beamRunStart_good (h : Good W s) :
    Good W (beamRunStart s) := by
  simp (maxDischargeDepth := 30) +contextual only [beamRunStart, *, good_ite, implies_true, and_self, good_foldl,
      setLane_good, setRegBit_good, setRegN_good, setLaneState_good, setBmStream_good, raiseOnce_good]

@[simp] theorem execBolt_good {x1} {x2} {x3} {x4} {x5} (h : Good W s) :
    nextAll (Good W) (execBolt x1 x2 x3 x4 x5 s) := by
  simp (maxDischargeDepth := 30) +contextual only [execBolt, *, good_ite, implies_true, and_self, onUnit_good,
      runBolt_good, idleBolt_good]

@[simp] theorem execLaneDown_good {x1} (h : Good W s) :
    nextAll (Good W) (execLaneDown x1 s) := by
  simp (maxDischargeDepth := 30) +contextual only [execLaneDown, *, good_ite, implies_true, and_self, onUnit_good,
      laneGoesDown_good, setRegBit_good, setLaneState_good, eyeLost_good, setLane_good]

@[simp] theorem execClockRecoveryLock_good {x1} (h : Good W s) :
    nextAll (Good W) (execClockRecoveryLock x1 s) := by
  simp (maxDischargeDepth := 30) +contextual only [execClockRecoveryLock, *, good_ite, implies_true, and_self,
      onUnit_good, setLaneState_good]

@[simp] theorem execFrameDelivery_good {x1} {x2} (h : Good W s) (hts : ∀ x, W.ts x := by assumption) :
    nextAll (Good W) (execFrameDelivery x1 x2 s) := by
  simp (maxDischargeDepth := 30) +contextual only [execFrameDelivery, *, good_ite, implies_true, and_self, onUnit_good,
      deliverFrame_good]

@[simp] theorem execBackChannelBolt_good {x1} {x2} {x3} (h : Good W s) :
    nextAll (Good W) (execBackChannelBolt x1 x2 x3 s) := by
  simp (maxDischargeDepth := 30) +contextual only [execBackChannelBolt, *, good_ite, implies_true, and_self,
      onUnit_good, setBmStream_good, setLane_good]

end Sys2Proof.Machine
end

