-- ==== Sys2Proof/Laws/GoodCxlOps.lean ====
section
/-! SUPPORT. The operations of Machine/CxlOps.lean keep the queue, the fuses and the canonical form of every store. -/

namespace Sys2Proof.Machine

variable {W : Watch} {s : State}

@[simp] theorem setPageBias_good {x1} {x2} (h : Good W s) :
    Good W (setPageBias s x1 x2) := by
  simp (maxDischargeDepth := 30) +contextual only [setPageBias, *, good_upd, implies_true, implies_true, swf_sset]

@[simp] theorem resolveBias_good {x1} {x2} (h : Good W s) (hmem : ∀ x, W.mem x := by assumption) :
    ∀ r, resolveBias s x1 x2 = some r → Good W r := by
  unfold resolveBias
  (repeat' split) <;> simp (maxDischargeDepth := 30) [*]

@[simp] theorem cacheFill_good {x1} (h : Good W s) :
    Good W (cacheFill s x1) := by
  simp (maxDischargeDepth := 30) +contextual only [cacheFill, *, good_upd, good_ite, implies_true, and_self]

@[simp] theorem atcFill_good {x1} (h : Good W s) :
    Good W (atcFill s x1) := by
  simp (maxDischargeDepth := 30) +contextual only [atcFill, *, good_upd, good_ite, implies_true, and_self]

@[simp] theorem hostRead_good {x1} {x2} {x3} (h : Good W s) :
    Good W (hostRead s x1 x2 x3).1 := by
  unfold hostRead
  (try dsimp only)
  (repeat' split) <;> simp (maxDischargeDepth := 30) +contextual only [*, good_upd, implies_true, raise_good,
      cacheFill_good, atcFill_good]

@[simp] theorem hostWrite_good {x1} {x2} {x3} {x4} (h : Good W s) :
    Good W (hostWrite s x1 x2 x3 x4).1 := by
  unfold hostWrite
  (repeat' split) <;> simp (maxDischargeDepth := 30) +contextual only [*, good_upd, implies_true, raise_good]

end Sys2Proof.Machine
end

