-- ==== Sys2Proof/Laws/GoodLedgerOps.lean ====
section
/-! SUPPORT. The operations of Machine/LedgerOps.lean keep the queue, the fuses and the canonical form of every store. -/

namespace Sys2Proof.Machine

variable {W : Watch} {s : State}

@[simp] theorem withKp_good {f} (h : Good W s) (hf : ∀ k, W.flash k.flash → W.flash (f k).flash) : Good W (withKp s f) := by
  unfold withKp
  apply good_upd h <;>
    first | exact hf _ | exact id | exact fun _ k => k

@[simp] theorem writeRecord_good (h : Good W s) (hflash : ∀ x, W.flash x := by assumption) :
    Good W (writeRecord s) := by
  unfold writeRecord
  split <;> simp (maxDischargeDepth := 30) +contextual only [*, imp_self, implies_true, withKp_good]

@[simp] theorem ledgerEvent_good {x1} {x2} (h : Good W s) (hflash : ∀ x, W.flash x := by assumption) :
    Good W (ledgerEvent s x1 x2) := by
  simp (maxDischargeDepth := 30) +contextual only [ledgerEvent, *, good_ite, imp_self, implies_true, and_self,
      withKp_good, writeRecord_good]

@[simp] theorem noteSmb_good (h : Good W s) :
    Good W (noteSmb s) := by
  simp (maxDischargeDepth := 30) +contextual only [noteSmb, *, good_upd, implies_true]

@[simp] theorem kpEvent_good {x1} (h : Good W s) :
    Good W (kpEvent s x1) := by
  simp (maxDischargeDepth := 30) +contextual only [kpEvent, *, good_ite, implies_true, and_self, setRegBit_good,
      noteSmb_good, msix_good]

end Sys2Proof.Machine
end

