-- ==== Sys2Proof/Laws/GoodPowerFloor.lean ====
section
/-! SUPPORT. The operations of Machine/PowerFloor.lean keep the queue, the fuses and the canonical form of every store. -/

namespace Sys2Proof.Machine

variable {W : Watch} {s : State}

@[simp] theorem updateCapEff_good (h : Good W s) :
    Good W (updateCapEff s) := by
  simp (maxDischargeDepth := 30) +contextual only [updateCapEff, *, good_ite, implies_true, and_self, setF_good,
      setRegBit_good, raise_good]

@[simp] theorem setFloor_good {x1} (h : Good W s) :
    Good W (setFloor s x1) := by
  simp (maxDischargeDepth := 30) +contextual only [setFloor, *, updateCapEff_good, setF_good]

end Sys2Proof.Machine
end

