-- ==== Sys2Proof/Laws/GoodTile.lean ====
section
/-! SUPPORT. The operations of Machine/Tile.lean keep the queue, the fuses and the canonical form of every store. -/

namespace Sys2Proof.Machine

variable {W : Watch} {s : State}

@[simp] theorem setPage_good {x1} {x2} {x3} {x4} (h : Good W s) :
    Good W (setPage s x1 x2 x3 x4) := by
  simp (maxDischargeDepth := 30) +contextual only [setPage, *, good_upd, implies_true, swf_sset]

@[simp] theorem writeCells_good {x1} {x2} {x3} {x4} {x5} (h : Good W s) :
    Good W (writeCells s x1 x2 x3 x4 x5) := by
  simp (maxDischargeDepth := 30) +contextual only [writeCells, *, good_upd, implies_true, swf_ssetMany]

@[simp] theorem writePage_good {x1} {x2} {x3} {x4} {x5} (h : Good W s) :
    Good W (writePage s x1 x2 x3 x4 x5) := by
  simp (maxDischargeDepth := 30) +contextual only [writePage, *, good_ite, implies_true, and_self, good_foldl,
      setPage_good, writeCells_good]

@[simp] theorem spoilPage_good {x1} {x2} {x3} (h : Good W s) :
    Good W (spoilPage s x1 x2 x3) := by
  simp (maxDischargeDepth := 30) +contextual only [spoilPage, *, setPage_good]

@[simp] theorem writeF8Set_good {x1} {x2} {x3} {x4} {x5} (h : Good W s) :
    Good W (writeF8Set s x1 x2 x3 x4 x5).1 := by
  simp (maxDischargeDepth := 30) +contextual only [writeF8Set, *, good_upd, implies_true, good_foldl, writeCells_good,
      setPage_good]

@[simp] theorem setLaneSat_good {x1} {x2} {x3} {x4} {x5} (h : Good W s) :
    Good W (setLaneSat s x1 x2 x3 x4 x5) := by
  simp (maxDischargeDepth := 30) +contextual only [setLaneSat, *, good_upd, implies_true, swf_sset]

@[simp] theorem noteSat_good {x1} (h : Good W s) :
    Good W (noteSat s x1) := by
  simp (maxDischargeDepth := 30) +contextual only [noteSat, *, countUp_good, setRegBit_good]

@[simp] theorem combineLane_good {x1} {x2} {x3} {x4} {x5} (h : Good W s) :
    Good W (combineLane s x1 x2 x3 x4 x5).1 := by
  unfold combineLane
  (try dsimp only)
  (repeat' split) <;> simp (maxDischargeDepth := 30) +contextual only [*, setLaneSat_good, noteSat_good]

@[simp] theorem clearBank_good {x1} {x2} (h : Good W s) :
    Good W (clearBank s x1 x2) := by
  simp (maxDischargeDepth := 30) +contextual only [clearBank, *, good_upd, implies_true, swf_sclear]

@[simp] theorem setBacc_good {x1} {x2} {x3} {x4} (h : Good W s) :
    Good W (setBacc s x1 x2 x3 x4) := by
  simp (maxDischargeDepth := 30) +contextual only [setBacc, *, good_upd, implies_true]

@[simp] theorem foldLane_good {x1} {x2} {x3} {x4} {x5} (h : Good W s) :
    Good W (foldLane s x1 x2 x3 x4 x5).1 := by
  unfold foldLane
  extract_lets x t1
  have g1 : Good W t1 := by simp (maxDischargeDepth := 30) +contextual only [t1, *, setBacc_good]
  clear_value t1
  (repeat' split) <;> simp (maxDischargeDepth := 30) +contextual only [*, noteSat_good, setLaneSat_good]

@[simp] theorem swf_sideSet {m t a x} (h : swf dSide m = true) : swf dSide (sideSet m t a x) = true := by
  unfold sideSet
  split <;> simp [h, swf_sset]

@[simp] theorem setSide_good {x1} {x2} {x3} (h : Good W s) :
    Good W (setSide s x1 x2 x3) := by
  simp (maxDischargeDepth := 30) +contextual only [setSide, *, good_upd, implies_true, swf_sideSet]

@[simp] theorem clearSlots_good {x1} {x2} {x3} (h : Good W s) :
    Good W (clearSlots s x1 x2 x3) := by
  simp (maxDischargeDepth := 30) +contextual only [clearSlots, *, setSide_good]

@[simp] theorem noteMchk_good {x1} {x2} (h : Good W s) :
    Good W (noteMchk s x1 x2) := by
  unfold noteMchk
  split <;> simp (maxDischargeDepth := 30) +contextual only [*, good_ite, implies_true, and_self, setRegN_good,
      countUp_good, setRegBit_good]

@[simp] theorem intStep_good {x1} {x2} {x3} {x4} {x5} (h : Good W s) :
    Good W (intStep s x1 x2 x3 x4 x5).st := by
  simp (maxDischargeDepth := 30) +contextual only [intStep, *, noteMchk_good]

@[simp] theorem blockStep_good {x1} {x2} {x3} {x4} {x5} {x6} (h : Good W s) :
    Good W (blockStep s x1 x2 x3 x4 x5 x6).st := by
  simp (maxDischargeDepth := 30) +contextual only [blockStep, *, noteMchk_good]

@[simp] theorem stepFold_good {x1} {x2} {x3} {x} {x4} (h : Good W x.st) :
    Good W (stepFold x1 x2 x3 x x4).st := by
  unfold stepFold
  (repeat' split) <;> simp (maxDischargeDepth := 30) +contextual only [*, foldLane_good]

@[simp] theorem laneBlock_good {x1} {x2} {x3} {x} {x4} (h : Good W x.st) :
    Good W (laneBlock x1 x2 x3 x x4).st := by
  unfold laneBlock
  (try dsimp only)
  (repeat' split) <;> simp (maxDischargeDepth := 30) +contextual only [*, stepFold_good, setBacc_good]

theorem laneBlocks_good {t c w l} {x : LaneRun} (h : Good W x.st) : Good W (List.foldl (laneBlock t c w) x l).st := by
  induction l generalizing x with
  | nil => exact h
  | cons q l ih => exact ih (laneBlock_good h)

@[simp] theorem stepLane_good {x1} {x2} {x3} (h : Good W s) :
    Good W (stepLane s x1 x2 x3).1 := by
  unfold stepLane
  split
  · dsimp only
    have h1 : Good W (List.foldl (laneBlock x1 x2 x3) ⟨s, false, false⟩ (x3.prods.getD x2 [])).st := laneBlocks_good h
    split
    · exact stepFold_good h1
    · exact h1
  · exact combineLane_good h

@[simp] theorem applyStep_good {x1} {x2} (h : Good W s) :
    Good W (applyStep s x1 x2).1 := by
  simp (maxDischargeDepth := 30) +contextual only [applyStep, *, good_upd, implies_true, good_foldl_fst, stepLane_good]

end Sys2Proof.Machine
end

