-- ==== Sys2Proof/Laws/GoodWarpOps.lean ====
section
/-! SUPPORT. The operations of Machine/WarpOps.lean keep the queue, the fuses and the canonical form of every store. -/

namespace Sys2Proof.Machine

variable {W : Watch} {s : State}

@[simp] theorem ringRecord_good {x1} {x2} (h : Good W s) :
    Good W (ringRecord s x1 x2) := by
  simp (maxDischargeDepth := 30) +contextual only [ringRecord, *, good_upd, good_ite, implies_true, and_self, countUp_good]

@[simp] theorem firstRecord_good {x1} (h : Good W s) :
    Good W (firstRecord s x1) := by
  simp (maxDischargeDepth := 30) +contextual only [firstRecord, *, good_upd, good_ite, implies_true, and_self,
      good_foldl, setRegN_good]

@[simp] theorem warpFault_good {x1} {x2} {x3} {x4} {x5} {x6} {x7} (h : Good W s) :
    Good W (warpFault s x1 x2 x3 x4 x5 x6 x7) := by
  unfold warpFault
  split <;> simp (maxDischargeDepth := 30) +contextual only [*, good_upd, good_ite, implies_true, and_self,
      markFrame_good, countUpF_good, raise_good, firstRecord_good, ringRecord_good]

@[simp] theorem eccFixed_good {x1} {x2} (h : Good W s) :
    Good W (eccFixed s x1 x2) := by
  simp (maxDischargeDepth := 30) +contextual only [eccFixed, *, good_ite, implies_true, and_self, countUpF_good]

@[simp] theorem eccBad_good {x1} {x2} (h : Good W s) :
    Good W (eccBad s x1 x2) := by
  simp (maxDischargeDepth := 30) +contextual only [eccBad, *, good_ite, implies_true, and_self, countUpF_good]

@[simp] theorem noteIssue_good {x1} {x2} (h : Good W s) :
    Good W (noteIssue s x1 x2) := by
  simp (maxDischargeDepth := 30) +contextual only [noteIssue, *, good_upd, implies_true]

@[simp] theorem noteBadWord_good {x1} (h : Good W s) :
    Good W (noteBadWord s x1) := by
  simp (maxDischargeDepth := 30) +contextual only [noteBadWord, *, good_upd, good_ite, implies_true, and_self, eccBad_good]

@[simp] theorem countAct_good {x1} {x2} (h : Good W s) :
    Good W (countAct s x1 x2) := by
  simp (maxDischargeDepth := 30) +contextual only [countAct, *, good_upd, implies_true]

@[simp] theorem warpSlot_good {x1} {x2} {x3} {x4} {k5 : State → WarpSite → Bool → State} (h : Good W s)
    (hk : ∀ s y1 y2, Good W s → Good W (k5 s y1 y2)) :
    Good W (warpSlot x1 x2 x3 x4 s k5) := by
  unfold warpSlot
  (try dsimp only)
  (repeat' split) <;> simp (maxDischargeDepth := 30) +contextual only [*, eccFixed_good, noteIssue_good,
      noteBadWord_good, warpFault_good, eccBad_good, countAct_good]

@[simp] theorem sendLater_good {x1} {x2} {x3} (h : Good W s) :
    Good W (sendLater s x1 x2 x3) := by
  simp (maxDischargeDepth := 30) +contextual only [sendLater, *, good_upd, implies_true]

@[simp] theorem later_good {x1} {x2} {x3} (h : Good W s) :
    Good W (later s x1 x2 x3) := by
  simp (maxDischargeDepth := 30) +contextual only [later, *, sendLater_good]

@[simp] theorem setSkein_good {x1} {x2} {x3} (h : Good W s) :
    Good W (setSkein s x1 x2 x3) := by
  simp (maxDischargeDepth := 30) +contextual only [setSkein, *, good_upd, implies_true, implies_true, swf_sset]

@[simp] theorem skeinPush_good {x1} {x2} {x3} (h : Good W s) (hts : ∀ x, W.ts x := by assumption) :
    Good W (skeinPush s x1 x2 x3) := by
  simp (maxDischargeDepth := 30) +contextual only [skeinPush, *, good_ite, implies_true, and_self, warpFault_good,
      tsWrite_good, setSkein_good]

@[simp] theorem skeinDrop_good {x1} {x2} (h : Good W s) :
    Good W (skeinDrop s x1 x2) := by
  simp (maxDischargeDepth := 30) +contextual only [skeinDrop, *, setSkein_good]

@[simp] theorem skeinPop_good {w b k n} (h : Good W s) : Good W (skeinPop w b k n s).1 := by
  induction n generalizing s with
  | zero => unfold skeinPop; dsimp only; (repeat' split) <;> simp [*]
  | succ n ih =>
    unfold skeinPop
    dsimp only
    split
    · simp [*]
    · split
      · simp [*]
      · split
        · simp [*]
        · exact ih (by simp [*])

@[simp] theorem setTokens_good {x1} {x2} {x3} (h : Good W s) :
    Good W (setTokens s x1 x2 x3) := by
  simp (maxDischargeDepth := 30) +contextual only [setTokens, *, good_upd, implies_true, implies_true, swf_sset]

@[simp] theorem burstSlot_good {x1} {x2} {x3} {x4} (h : Good W s) : Good W (burstSlot s x1 x2 x3 x4) := by
  unfold burstSlot
  (repeat' split) <;> simp (maxDischargeDepth := 30) +contextual only [*, setSide_good]

@[simp] theorem landBurst_good {x1} {x2} {x3} {x4} (h : Good W s) (hts : ∀ x, W.ts x := by assumption) :
    Good W (landBurst s x1 x2 x3 x4) := by
  unfold landBurst
  split <;> simp (maxDischargeDepth := 30) +contextual only [*, implies_true, good_foldl, tsWrite_good, burstSlot_good]

@[simp] theorem routeData_good {x1} {x2} {x3} {x4} {x5} {x6} {x7} (h : Good W s) :
    Good W (routeData s x1 x2 x3 x4 x5 x6 x7) := by
  unfold routeData
  (try dsimp only)
  (repeat' split) <;> simp (maxDischargeDepth := 30) +contextual only [*, sendLater_good]

@[simp] theorem noteSlack_good {x1} {x2} {x3} {x4} (h : Good W s) :
    Good W (noteSlack s x1 x2 x3 x4) := by
  simp (maxDischargeDepth := 30) +contextual only [noteSlack, *, good_ite, implies_true, and_self, setF_good]

@[simp] theorem steer_good {x1} {x2} {x3} {x4} {x5} (h : Good W s) :
    Good W (steer s x1 x2 x3 x4 x5) := by
  unfold steer
  (try dsimp only)
  (repeat' split) <;> simp (maxDischargeDepth := 30) +contextual only [*, routeData_good, warpFault_good,
      noteSlack_good, setTokens_good]

@[simp] theorem expireToken_good {x1} {x2} {x3} {x4} {x5} (h : Good W s) :
    Good W (expireToken s x1 x2 x3 x4 x5) := by
  unfold expireToken
  split <;> simp (maxDischargeDepth := 30) +contextual only [*, implies_true, good_foldl, warpFault_good,
      routeData_good, setTokens_good]

@[simp] theorem setPred_good {x1} {x2} {x3} (h : Good W s) :
    Good W (setPred s x1 x2 x3) := by
  simp (maxDischargeDepth := 30) +contextual only [setPred, *, good_upd, implies_true, swf_sset]

@[simp] theorem landStep_good {x1} {x2} (h : Good W s) :
    Good W (landStep s x1 x2) := by
  simp (maxDischargeDepth := 30) +contextual only [landStep, *, good_ite, implies_true, and_self, applyStep_good,
      warpFault_good]

@[simp] theorem landOne_good {x1} (h : Good W s) (hts : ∀ x, W.ts x := by assumption) :
    Good W (landOne s x1) := by
  unfold landOne
  split <;> simp (maxDischargeDepth := 30) +contextual only [*, good_upd, imp_self, implies_true, swf_sset,
      tsWrite_good, landBurst_good, setSide_good, landStep_good, clearBank_good, setPred_good, skeinPush_good]

@[simp] theorem landDue_good (h : Good W s) (hts : ∀ x, W.ts x := by assumption) :
    Good W (landDue s) := by
  simp (maxDischargeDepth := 30) +contextual only [landDue, *, good_upd, imp_self, implies_true, good_foldl, landOne_good]

@[simp] theorem clearSlack_good {x1} (h : Good W s) :
    Good W (clearSlack s x1) := by
  simp (maxDischargeDepth := 30) +contextual only [clearSlack, *, implies_true, good_foldl, setReg_good]

@[simp] theorem clearWarpTile_good {x1} (h : Good W s) :
    Good W (clearWarpTile s x1) := by
  simp (maxDischargeDepth := 30) +contextual only [clearWarpTile, *, good_upd, implies_true, good_foldl, swf_sclear,
      clearBank_good, clearSlack_good]

@[simp] theorem restoreRecords_good {x1} (h : Good W s) (hts : ∀ x, W.ts x := by assumption) :
    Good W (restoreRecords s x1) := by
  unfold restoreRecords
  split <;> simp (maxDischargeDepth := 30) +contextual only [*, good_ite, implies_true, and_self, good_foldl, tsWrite_good]

@[simp] theorem warpRunStart_good (h : Good W s) (hts : ∀ x, W.ts x := by assumption) : Good W (warpRunStart s) := by
  unfold warpRunStart
  extract_lets ws s1 s2 s3
  have h1 : Good W s1 := good_foldl h fun s t h => clearWarpTile_good h
  have h3 : Good W s3 := setRegBit_good (setRegBit_good (setRegN_good (restoreRecords_good h1)))
  clear_value s3
  refine good_upd h3 ?_ ?_ ?_ ?_ ?_ ?_ ?_ ?_ ?_ ?_ ?_ ?_ ?_ ?_ ?_ ?_ ?_ ?_ ?_ ?_ ?_ ?_ ?_ ?_ ?_ ?_ ?_ ?_ ?_ ?_ ?_ ?_ ?_ ?_ ?_ ?_ ?_ ?_ ?_ ?_ ?_ ?_ ?_ ?_ ?_ ?_ ?_ ?_ <;>
    first | exact id | exact fun _ k => k | exact fun _ _ => swf_nil

@[simp] theorem warpRunEnd_good (h : Good W s) :
    Good W (warpRunEnd s) := by
  simp (maxDischargeDepth := 30) +contextual only [warpRunEnd, *, setRegBit_good]

end Sys2Proof.Machine
end

