-- ==== Sys2Proof/Laws/GoodRunEdges.lean ====
section
/-! SUPPORT. The operations of Machine/RunEdges.lean keep the queue, the fuses and the canonical form of every store. -/

namespace Sys2Proof.Machine

variable {W : Watch} {s : State}

@[simp] theorem armRefused_good {x1} (h : Good W s) :
    Good W (armRefused s x1) := by
  simp (maxDischargeDepth := 30) +contextual only [armRefused, *, good_ite, implies_true, and_self, logRaise_good,
      setReg64_good, msix_good, setF_good]

@[simp] theorem armNoImage_good {x1} (h : Good W s) :
    Good W (armNoImage s x1) := by
  simp (maxDischargeDepth := 30) +contextual only [armNoImage, *, setRegN_good, setF_good, raise_good]

@[simp] theorem armChecks_good (h : Good W s) :
    Good W (armChecks s).1 := by
  unfold armChecks
  dsimp only
  (repeat' split) <;> simp (maxDischargeDepth := 30) +contextual only [*, implies_true, good_foldl, armRefused_good,
      armNoImage_good, raise_good]

@[simp] theorem armAccepted_good (h : Good W s) :
    Good W (armAccepted s) := by
  simp (maxDischargeDepth := 30) +contextual only [armAccepted, *, good_upd, good_ite, implies_true, and_self,
      good_foldl, setRegBit_good, setTbState_good, setRegN_good, setFloor_good]

@[simp] theorem clearArm_good (h : Good W s) :
    Good W (clearArm s) := by
  simp (maxDischargeDepth := 30) +contextual only [clearArm, *, good_upd, implies_true, setRegBit_good]

@[simp] theorem kwengoRunStart_good (h : Good W s) : Good W (kwengoRunStart s) :=
  good_foldl h fun s p h => setPort_good (setRegBit_good (setReg_good (setReg_good h)))

@[simp] theorem beginRun_good (h : Good W s) (hts : ∀ x, W.ts x := by assumption) :
    Good W (beginRun s) := by
  simp (maxDischargeDepth := 30) +contextual only [beginRun, *, good_upd, imp_self, implies_true, setRegBit_good,
      setTbState_good, setRegN_good, setReg64_good, kwengoRunStart_good, provRunStart_good, bobbinRunStart_good,
      treadleRunStart_good, warpRunStart_good, beamRunStart_good]

@[simp] theorem endRun_good {x1} {x2} (h : Good W s) :
    Good W (endRun s x1 x2) := by
  unfold endRun
  split <;> simp (maxDischargeDepth := 30) +contextual only [*, good_upd, implies_true, loseUndecided_good,
      warpRunEnd_good, bobbinRunEnd_good, provRunEnd_good, cutFlits_good, clearArm_good, setRegBit_good,
      setTbState_good, setFloor_good]

@[simp] theorem abortRun_good {x1} (h : Good W s) :
    Good W (abortRun s x1) := by
  simp (maxDischargeDepth := 30) +contextual only [abortRun, *, good_upd, implies_true, dropC1_good, warpRunEnd_good,
      trigOutOff_good, bobbinRunEnd_good, clearArm_good, setRegBit_good, setTbState_good, setFloor_good]

@[simp] theorem restartRun_good (h : Good W s) (hts : ∀ x, W.ts x := by assumption) :
    Good W (restartRun s) := by
  simp (maxDischargeDepth := 30) +contextual only [restartRun, *, implies_true, raise_good, bobbinRunEnd_good,
      provRunEnd_good, loseUndecided_good, beginRun_good]

end Sys2Proof.Machine
end

