-- ==== Sys2Proof/Laws/GoodWeftOps.lean ====
section
/-! SUPPORT. The operations of Machine/WeftOps.lean keep the queue, the fuses and the canonical form of every store. -/

namespace Sys2Proof.Machine

variable {W : Watch} {s : State}

@[simp] theorem setCore_good {x1} {x2} (h : Good W s) :
    Good W (setCore s x1 x2) := by
  simp (maxDischargeDepth := 30) +contextual only [setCore, *, good_upd, implies_true, implies_true, swf_sset]

@[simp] theorem setS_good {x1} {x2} {x3} (h : Good W s) (hsreg : ∀ x, W.sreg x := by assumption) :
    Good W (setS s x1 x2 x3) := by
  simp (maxDischargeDepth := 30) +contextual only [setS, *, good_upd, good_ite, imp_self, implies_true, and_self, swf_sset]

@[simp] theorem setP_good {x1} {x2} {x3} (h : Good W s) (hpreg : ∀ x, W.preg x := by assumption) :
    Good W (setP s x1 x2 x3) := by
  simp (maxDischargeDepth := 30) +contextual only [setP, *, good_upd, good_ite, imp_self, implies_true, and_self, swf_sset]

@[simp] theorem setV_good {x1} {x2} {x3} {x4} (h : Good W s) (hvreg : ∀ x, W.vreg x := by assumption) :
    Good W (setV s x1 x2 x3 x4) := by
  simp (maxDischargeDepth := 30) +contextual only [setV, *, good_upd, imp_self, implies_true, swf_ssetMany]

@[simp] theorem setPLanes_good {x1} {x2} {x3} {x4} (h : Good W s) (hpreg : ∀ x, W.preg x := by assumption) :
    Good W (setPLanes s x1 x2 x3 x4) := by
  simp (maxDischargeDepth := 30) +contextual only [setPLanes, *, implies_true, setP_good]

@[simp] theorem setX_good {x1} {x2} {x3} (h : Good W s) (hxa : ∀ x, W.xa x := by assumption) :
    Good W (setX s x1 x2 x3) := by
  simp (maxDischargeDepth := 30) +contextual only [setX, *, good_upd, imp_self, implies_true, swf_ssetMany]

@[simp] theorem coreStops_good {x1} {x2} {x3} (h : Good W s) :
    Good W (coreStops s x1 x2 x3) := by
  simp (maxDischargeDepth := 30) +contextual only [coreStops, *, raise_good, ringRecord_good, setCore_good]

@[simp] theorem takeStop_good {x1} (h : Good W s) :
    Good W (takeStop s x1) := by
  simp (maxDischargeDepth := 30) +contextual only [takeStop, *, coreStops_good]

@[simp] theorem stopTilesOf_good {x1} (h : Good W s) :
    Good W (stopTilesOf s x1) := by
  simp (maxDischargeDepth := 30) +contextual only [stopTilesOf, *, good_ite, implies_true, and_self, good_foldl,
      setCore_good]

@[simp] theorem mapJob_good {x1} {x2} (h : Good W s) :
    Good W (mapJob s x1 x2) := by
  simp (maxDischargeDepth := 30) +contextual only [mapJob, *, good_upd, implies_true]

@[simp] theorem stopJob_good {x1} {x2} (h : Good W s) :
    Good W (stopJob s x1 x2) := by
  unfold stopJob
  split <;> simp (maxDischargeDepth := 30) +contextual only [*, stopTilesOf_good, mapJob_good]

@[simp] theorem trapJob_good {x1} {x2} (h : Good W s) :
    Good W (trapJob s x1 x2) := by
  unfold trapJob
  split <;> simp (maxDischargeDepth := 30) +contextual only [*, stopTilesOf_good, mapJob_good]

@[simp] theorem takeTrap_good {x1} {x2} (h : Good W s) :
    Good W (takeTrap s x1 x2) := by
  simp (maxDischargeDepth := 30) +contextual only [takeTrap, *, good_ite, implies_true, and_self, takeStop_good,
      trapJob_good, coreStops_good]

@[simp] theorem countCycles_good {x1} {x2} {x3} (h : Good W s) :
    Good W (countCycles s x1 x2 x3) := by
  simp (maxDischargeDepth := 30) +contextual only [countCycles, *, good_upd, implies_true, implies_true, swf_sset]

@[simp] theorem noteActivity_good {x1} (h : Good W s) :
    Good W (noteActivity s x1) := by
  simp (maxDischargeDepth := 30) +contextual only [noteActivity, *, good_upd, implies_true, countAct_good]

@[simp] theorem spendCycles_good {x1} {x2} (h : Good W s) :
    Good W (spendCycles s x1 x2) := by
  simp (maxDischargeDepth := 30) +contextual only [spendCycles, *, implies_true, good_foldl, countCycles_good,
      noteActivity_good, setCore_good]

@[simp] theorem retire_good {x1} {x2} (h : Good W s) :
    Good W (retire s x1 x2) := by
  simp (maxDischargeDepth := 30) +contextual only [retire, *, good_ite, implies_true, and_self, setCore_good, takeStop_good]

@[simp] theorem waitCycle_good {x1} {x2} (h : Good W s) : Good W (waitCycle s x1 x2) := by
  unfold waitCycle
  refine countCycles_good ?_
  apply good_upd h <;> try first | exact id | exact fun _ k => k
  exact fun _ hs => swf_sset hs

@[simp] theorem settle_good {t} {r : WRes} (h : resAll (Good W) r) : Good W (settle t r) := by
  cases r <;> simp only [resAll_done, resAll_trap, resAll_wait] at h <;> simp [settle, h]

@[simp] theorem weftInstr_good {x1} {x2} {x3} {x4} {x5} {k6 : State → Nat → WRes} (h : Good W s)
    (hk : ∀ s y1, Good W s → resAll (Good W) (k6 s y1)) :
    nextAll (Good W) (weftInstr x1 x2 x3 x4 x5 s k6) := by
  simp (maxDischargeDepth := 30) +contextual only [weftInstr, *, good_ite, implies_true, and_self, onUnit_good,
      spendCycles_good, takeTrap_good, retire_good, settle_good]

@[simp] theorem weftSimple_good {t f e g b} {k : State → Nat → State} (h : Good W s)
    (hk : ∀ s n, Good W s → Good W (k s n)) : nextAll (Good W) (weftSimple t f e g b s k) := by
  refine weftInstr_good h fun s n h => ?_
  rw [resAll_done]
  exact hk s n h

@[simp] theorem withAccess_good {x1} {x2} {x3} {x4} {x5} {k6 : Unit → WRes} (h : Good W s)
    (hk : ∀ y0, resAll (Good W) (k6 y0)) :
    resAll (Good W) (withAccess s x1 x2 x3 x4 x5 k6) := by
  unfold withAccess
  split <;> simp (maxDischargeDepth := 30) +contextual only [*, resAll_trap]

@[simp] theorem weftFlags_good {x1} {x2} (h : Good W s) :
    Good W (weftFlags s x1 x2) := by
  simp (maxDischargeDepth := 30) +contextual only [weftFlags, *, good_ite, implies_true, and_self, setF_good, setCore_good]

@[simp] theorem flagged_good {t unit fl addr} {k : State → State} (h : Good W s) (hk : ∀ s, Good W s → Good W (k s)) :
    resAll (Good W) (flagged s t unit fl k addr) := by
  simp (maxDischargeDepth := 30) +contextual only [flagged, *, implies_true, and_self, resAll_done, resAll_trap,
      resAll_ite, weftFlags_good]

end Sys2Proof.Machine
end

