-- ==== Sys2Proof/Laws/GoodWeftMem.lean ====
section
/-! SUPPORT. The operations of Machine/WeftMem.lean keep the queue, the fuses and the canonical form of every store. -/

namespace Sys2Proof.Machine

variable {W : Watch} {s : State}

@[simp] theorem scalarLoad_good {x1} {x2} {x3} {x4} {x5} {x6} (h : Good W s) (hsreg : ∀ x, W.sreg x := by assumption) :
    nextAll (Good W) (scalarLoad x1 x2 x3 x4 x5 x6 s) := by
  simp (maxDischargeDepth := 30) +contextual only [scalarLoad, *, implies_true, resAll_done, weftInstr_good,
      withAccess_good, setS_good]

@[simp] theorem scalarStore_good {x1} {x2} {x3} {x4} {x5} (h : Good W s) (hts : ∀ x, W.ts x := by assumption) :
    nextAll (Good W) (scalarStore x1 x2 x3 x4 x5 s) := by
  simp (maxDischargeDepth := 30) +contextual only [scalarStore, *, implies_true, resAll_done, weftInstr_good,
      withAccess_good, tsWrite_good]

@[simp] theorem execLd64_good {x1} {x2} {x3} (h : Good W s) (hsreg : ∀ x, W.sreg x := by assumption) :
    nextAll (Good W) (execLd64 x1 x2 x3 s) := by
  simp (maxDischargeDepth := 30) +contextual only [execLd64, *, implies_true, scalarLoad_good]

@[simp] theorem execLd32_good {x1} {x2} {x3} (h : Good W s) (hsreg : ∀ x, W.sreg x := by assumption) :
    nextAll (Good W) (execLd32 x1 x2 x3 s) := by
  simp (maxDischargeDepth := 30) +contextual only [execLd32, *, implies_true, scalarLoad_good]

@[simp] theorem execLd32u_good {x1} {x2} {x3} (h : Good W s) (hsreg : ∀ x, W.sreg x := by assumption) :
    nextAll (Good W) (execLd32u x1 x2 x3 s) := by
  simp (maxDischargeDepth := 30) +contextual only [execLd32u, *, implies_true, scalarLoad_good]

@[simp] theorem execLd16_good {x1} {x2} {x3} (h : Good W s) (hsreg : ∀ x, W.sreg x := by assumption) :
    nextAll (Good W) (execLd16 x1 x2 x3 s) := by
  simp (maxDischargeDepth := 30) +contextual only [execLd16, *, implies_true, scalarLoad_good]

@[simp] theorem execLd16u_good {x1} {x2} {x3} (h : Good W s) (hsreg : ∀ x, W.sreg x := by assumption) :
    nextAll (Good W) (execLd16u x1 x2 x3 s) := by
  simp (maxDischargeDepth := 30) +contextual only [execLd16u, *, implies_true, scalarLoad_good]

@[simp] theorem execLd8_good {x1} {x2} {x3} (h : Good W s) (hsreg : ∀ x, W.sreg x := by assumption) :
    nextAll (Good W) (execLd8 x1 x2 x3 s) := by
  simp (maxDischargeDepth := 30) +contextual only [execLd8, *, implies_true, scalarLoad_good]

@[simp] theorem execLd8u_good {x1} {x2} {x3} (h : Good W s) (hsreg : ∀ x, W.sreg x := by assumption) :
    nextAll (Good W) (execLd8u x1 x2 x3 s) := by
  simp (maxDischargeDepth := 30) +contextual only [execLd8u, *, implies_true, scalarLoad_good]

@[simp] theorem execSt64_good {x1} {x2} {x3} (h : Good W s) (hts : ∀ x, W.ts x := by assumption) :
    nextAll (Good W) (execSt64 x1 x2 x3 s) := by
  simp (maxDischargeDepth := 30) +contextual only [execSt64, *, implies_true, scalarStore_good]

@[simp] theorem execSt32_good {x1} {x2} {x3} (h : Good W s) (hts : ∀ x, W.ts x := by assumption) :
    nextAll (Good W) (execSt32 x1 x2 x3 s) := by
  simp (maxDischargeDepth := 30) +contextual only [execSt32, *, implies_true, scalarStore_good]

@[simp] theorem execSt16_good {x1} {x2} {x3} (h : Good W s) (hts : ∀ x, W.ts x := by assumption) :
    nextAll (Good W) (execSt16 x1 x2 x3 s) := by
  simp (maxDischargeDepth := 30) +contextual only [execSt16, *, implies_true, scalarStore_good]

@[simp] theorem execSt8_good {x1} {x2} {x3} (h : Good W s) (hts : ∀ x, W.ts x := by assumption) :
    nextAll (Good W) (execSt8 x1 x2 x3 s) := by
  simp (maxDischargeDepth := 30) +contextual only [execSt8, *, implies_true, scalarStore_good]

@[simp] theorem withLanes_good {x1} {k2 : Unit → WRes} (h : Good W s) (hk : ∀ y0, resAll (Good W) (k2 y0)) :
    resAll (Good W) (withLanes s x1 k2) := by
  unfold withLanes
  split <;> simp (maxDischargeDepth := 30) +contextual only [*, resAll_trap]

@[simp] theorem execVld_good {x1} {x2} {x3} (h : Good W s) (hvreg : ∀ x, W.vreg x := by assumption) :
    nextAll (Good W) (execVld x1 x2 x3 s) := by
  simp (maxDischargeDepth := 30) +contextual only [execVld, *, implies_true, resAll_done, weftInstr_good,
      withLanes_good, setV_good]

@[simp] theorem execVst_good {x1} {x2} {x3} (h : Good W s) (hts : ∀ x, W.ts x := by assumption) :
    nextAll (Good W) (execVst x1 x2 x3 s) := by
  simp (maxDischargeDepth := 30) +contextual only [execVst, *, good_ite, implies_true, and_self, good_foldl,
      resAll_done, weftInstr_good, withLanes_good, tsWrite_good]

@[simp] theorem execVldp_good {x1} {x2} {x3} (h : Good W s) (hvreg : ∀ x, W.vreg x := by assumption) :
    nextAll (Good W) (execVldp x1 x2 x3 s) := by
  simp (maxDischargeDepth := 30) +contextual only [execVldp, *, implies_true, resAll_done, weftInstr_good,
      withLanes_good, setV_good]

@[simp] theorem execVstp_good {x1} {x2} {x3} (h : Good W s) (hts : ∀ x, W.ts x := by assumption) :
    nextAll (Good W) (execVstp x1 x2 x3 s) := by
  simp (maxDischargeDepth := 30) +contextual only [execVstp, *, implies_true, and_self, resAll_done, resAll_ite,
      weftInstr_good, withLanes_good, tsWrite_good]

@[simp] theorem execVldx_good {x1} {x2} {x3} (h : Good W s) (hvreg : ∀ x, W.vreg x := by assumption) :
    nextAll (Good W) (execVldx x1 x2 x3 s) := by
  simp (maxDischargeDepth := 30) +contextual only [execVldx, *, implies_true, resAll_done, weftInstr_good,
      withLanes_good, setV_good]

end Sys2Proof.Machine
end

