-- ==== Sys2Proof/Laws/GoodWeftChan.lean ====
section
/-! SUPPORT. The operations of Machine/WeftChan.lean keep the queue, the fuses and the canonical form of every store. -/

namespace Sys2Proof.Machine

variable {W : Watch} {s : State}

@[simp] theorem setChanSt_good {x1} {x2} {x3} (h : Good W s) :
    Good W (setChanSt s x1 x2 x3) := by
  simp (maxDischargeDepth := 30) +contextual only [setChanSt, *, good_upd, implies_true, implies_true, swf_sset]

@[simp] theorem seqAdvance_good {x1} (h : Good W s) :
    Good W (seqAdvance s x1) := by
  unfold seqAdvance
  dsimp only
  (repeat' split) <;> simp (maxDischargeDepth := 30) +contextual only [*, setCore_good]

@[simp] theorem returnCredit_good {x1} {x2} (h : Good W s) :
    Good W (returnCredit s x1 x2) := by
  simp (maxDischargeDepth := 30) +contextual only [returnCredit, *, inject_good]

@[simp] theorem sendToken_good {x1} {x2} (h : Good W s) :
    Good W (sendToken s x1 x2) := by
  simp (maxDischargeDepth := 30) +contextual only [sendToken, *, inject_good]

@[simp] theorem takeCredit_good {x1} (h : Good W s) :
    Good W (takeCredit s x1) := by
  simp (maxDischargeDepth := 30) +contextual only [takeCredit, *, setChanSt_good]

end Sys2Proof.Machine
end

