-- ==== Sys2Proof/Laws/GoodWeftScalar.lean ====
section
/-! SUPPORT. The operations of Machine/WeftScalar.lean keep the queue, the fuses and the canonical form of every store. -/

namespace Sys2Proof.Machine

variable {W : Watch} {s : State}

@[simp] theorem execNop_good {x1} {x2} {x3} {x4} (h : Good W s) :
    nextAll (Good W) (execNop x1 x2 x3 x4 s) := by
  simp (maxDischargeDepth := 30) +contextual only [execNop, *, implies_true, and_self, nextAll_ite, onUnit_good,
      weftSimple_good]

@[simp] theorem execFence_good {x1} {x2} {x3} (h : Good W s) :
    nextAll (Good W) (execFence x1 x2 x3 s) := by
  simp (maxDischargeDepth := 30) +contextual only [execFence, *, implies_true, and_self, resAll_done, resAll_wait,
      resAll_ite, weftInstr_good]

@[simp] theorem execTrap_good {x1} {x2} {x3} (h : Good W s) :
    nextAll (Good W) (execTrap x1 x2 x3 s) := by
  simp (maxDischargeDepth := 30) +contextual only [execTrap, *, implies_true, resAll_trap, weftInstr_good]

@[simp] theorem execJend_good {x1} {x2} {x3} (h : Good W s) :
    nextAll (Good W) (execJend x1 x2 x3 s) := by
  simp (maxDischargeDepth := 30) +contextual only [execJend, *, implies_true, and_self, resAll_done, resAll_wait,
      resAll_ite, weftInstr_good, setCore_good]

@[simp] theorem execBrk_good {x1} {x2} {x3} (h : Good W s) :
    nextAll (Good W) (execBrk x1 x2 x3 s) := by
  simp (maxDischargeDepth := 30) +contextual only [execBrk, *, good_ite, implies_true, and_self, weftSimple_good,
      setCore_good]

@[simp] theorem execMfc_good {x1} {x2} {x3} (h : Good W s) (hsreg : ∀ x, W.sreg x := by assumption) :
    nextAll (Good W) (execMfc x1 x2 x3 s) := by
  unfold execMfc
  refine weftInstr_good h fun s g h => ?_
  (repeat' split) <;> simp (maxDischargeDepth := 30) +contextual only [*, implies_true, resAll_done, resAll_trap, setS_good]

@[simp] theorem execMtc_good {x1} {x2} {x3} (h : Good W s) :
    nextAll (Good W) (execMtc x1 x2 x3 s) := by
  unfold execMtc
  refine weftInstr_good h fun s g h => ?_
  (repeat' split) <;> simp (maxDischargeDepth := 30) +contextual only [*, resAll_done, resAll_trap, setCore_good]

@[simp] theorem scalarOp_good {x1} {x2} {x3} {x4} {x5} (h : Good W s) (hsreg : ∀ x, W.sreg x := by assumption) :
    nextAll (Good W) (scalarOp x1 x2 x3 x4 s x5) := by
  simp (maxDischargeDepth := 30) +contextual only [scalarOp, *, implies_true, weftSimple_good, setS_good]

@[simp] theorem scalarImm_good {x1} {x2} {x3} {x4} {x5} {x6} (h : Good W s) (hsreg : ∀ x, W.sreg x := by assumption) :
    nextAll (Good W) (scalarImm x1 x2 x3 x4 x5 s x6) := by
  simp (maxDischargeDepth := 30) +contextual only [scalarImm, *, implies_true, weftSimple_good, setS_good]

@[simp] theorem execAdd_good {x1} {x2} {x3} (h : Good W s) (hsreg : ∀ x, W.sreg x := by assumption) :
    nextAll (Good W) (execAdd x1 x2 x3 s) := by
  simp (maxDischargeDepth := 30) +contextual only [execAdd, *, implies_true, scalarOp_good]

@[simp] theorem execSub_good {x1} {x2} {x3} (h : Good W s) (hsreg : ∀ x, W.sreg x := by assumption) :
    nextAll (Good W) (execSub x1 x2 x3 s) := by
  simp (maxDischargeDepth := 30) +contextual only [execSub, *, implies_true, scalarOp_good]

@[simp] theorem execMul_good {x1} {x2} {x3} (h : Good W s) (hsreg : ∀ x, W.sreg x := by assumption) :
    nextAll (Good W) (execMul x1 x2 x3 s) := by
  simp (maxDischargeDepth := 30) +contextual only [execMul, *, implies_true, scalarOp_good]

@[simp] theorem execMulh_good {x1} {x2} {x3} (h : Good W s) (hsreg : ∀ x, W.sreg x := by assumption) :
    nextAll (Good W) (execMulh x1 x2 x3 s) := by
  simp (maxDischargeDepth := 30) +contextual only [execMulh, *, implies_true, scalarOp_good]

@[simp] theorem execMulhu_good {x1} {x2} {x3} (h : Good W s) (hsreg : ∀ x, W.sreg x := by assumption) :
    nextAll (Good W) (execMulhu x1 x2 x3 s) := by
  simp (maxDischargeDepth := 30) +contextual only [execMulhu, *, implies_true, scalarOp_good]

@[simp] theorem execAnd_good {x1} {x2} {x3} (h : Good W s) (hsreg : ∀ x, W.sreg x := by assumption) :
    nextAll (Good W) (execAnd x1 x2 x3 s) := by
  simp (maxDischargeDepth := 30) +contextual only [execAnd, *, implies_true, scalarOp_good]

@[simp] theorem execOr_good {x1} {x2} {x3} (h : Good W s) (hsreg : ∀ x, W.sreg x := by assumption) :
    nextAll (Good W) (execOr x1 x2 x3 s) := by
  simp (maxDischargeDepth := 30) +contextual only [execOr, *, implies_true, scalarOp_good]

@[simp] theorem execXor_good {x1} {x2} {x3} (h : Good W s) (hsreg : ∀ x, W.sreg x := by assumption) :
    nextAll (Good W) (execXor x1 x2 x3 s) := by
  simp (maxDischargeDepth := 30) +contextual only [execXor, *, implies_true, scalarOp_good]

@[simp] theorem execShl_good {x1} {x2} {x3} (h : Good W s) (hsreg : ∀ x, W.sreg x := by assumption) :
    nextAll (Good W) (execShl x1 x2 x3 s) := by
  simp (maxDischargeDepth := 30) +contextual only [execShl, *, implies_true, scalarOp_good]

@[simp] theorem execShr_good {x1} {x2} {x3} (h : Good W s) (hsreg : ∀ x, W.sreg x := by assumption) :
    nextAll (Good W) (execShr x1 x2 x3 s) := by
  simp (maxDischargeDepth := 30) +contextual only [execShr, *, implies_true, scalarOp_good]

@[simp] theorem execSra_good {x1} {x2} {x3} (h : Good W s) (hsreg : ∀ x, W.sreg x := by assumption) :
    nextAll (Good W) (execSra x1 x2 x3 s) := by
  simp (maxDischargeDepth := 30) +contextual only [execSra, *, implies_true, scalarOp_good]

@[simp] theorem execMin_good {x1} {x2} {x3} (h : Good W s) (hsreg : ∀ x, W.sreg x := by assumption) :
    nextAll (Good W) (execMin x1 x2 x3 s) := by
  simp (maxDischargeDepth := 30) +contextual only [execMin, *, implies_true, scalarOp_good]

@[simp] theorem execMax_good {x1} {x2} {x3} (h : Good W s) (hsreg : ∀ x, W.sreg x := by assumption) :
    nextAll (Good W) (execMax x1 x2 x3 s) := by
  simp (maxDischargeDepth := 30) +contextual only [execMax, *, implies_true, scalarOp_good]

@[simp] theorem execMinu_good {x1} {x2} {x3} (h : Good W s) (hsreg : ∀ x, W.sreg x := by assumption) :
    nextAll (Good W) (execMinu x1 x2 x3 s) := by
  simp (maxDischargeDepth := 30) +contextual only [execMinu, *, implies_true, scalarOp_good]

@[simp] theorem execMaxu_good {x1} {x2} {x3} (h : Good W s) (hsreg : ∀ x, W.sreg x := by assumption) :
    nextAll (Good W) (execMaxu x1 x2 x3 s) := by
  simp (maxDischargeDepth := 30) +contextual only [execMaxu, *, implies_true, scalarOp_good]

@[simp] theorem execCmp_good {x1} {x2} {x3} (h : Good W s) (hpreg : ∀ x, W.preg x := by assumption) :
    nextAll (Good W) (execCmp x1 x2 x3 s) := by
  simp (maxDischargeDepth := 30) +contextual only [execCmp, *, implies_true, weftSimple_good, setP_good]

@[simp] theorem execAddi_good {x1} {x2} {x3} (h : Good W s) (hsreg : ∀ x, W.sreg x := by assumption) :
    nextAll (Good W) (execAddi x1 x2 x3 s) := by
  simp (maxDischargeDepth := 30) +contextual only [execAddi, *, implies_true, scalarImm_good]

@[simp] theorem execLi_good {x1} {x2} {x3} (h : Good W s) (hsreg : ∀ x, W.sreg x := by assumption) :
    nextAll (Good W) (execLi x1 x2 x3 s) := by
  simp (maxDischargeDepth := 30) +contextual only [execLi, *, implies_true, weftSimple_good, setS_good]

@[simp] theorem execLih_good {x1} {x2} {x3} (h : Good W s) (hsreg : ∀ x, W.sreg x := by assumption) :
    nextAll (Good W) (execLih x1 x2 x3 s) := by
  simp (maxDischargeDepth := 30) +contextual only [execLih, *, implies_true, weftSimple_good, setS_good]

@[simp] theorem execAndi_good {x1} {x2} {x3} (h : Good W s) (hsreg : ∀ x, W.sreg x := by assumption) :
    nextAll (Good W) (execAndi x1 x2 x3 s) := by
  simp (maxDischargeDepth := 30) +contextual only [execAndi, *, implies_true, scalarImm_good]

@[simp] theorem execOri_good {x1} {x2} {x3} (h : Good W s) (hsreg : ∀ x, W.sreg x := by assumption) :
    nextAll (Good W) (execOri x1 x2 x3 s) := by
  simp (maxDischargeDepth := 30) +contextual only [execOri, *, implies_true, scalarImm_good]

@[simp] theorem execXori_good {x1} {x2} {x3} (h : Good W s) (hsreg : ∀ x, W.sreg x := by assumption) :
    nextAll (Good W) (execXori x1 x2 x3 s) := by
  simp (maxDischargeDepth := 30) +contextual only [execXori, *, implies_true, scalarImm_good]

@[simp] theorem execShli_good {x1} {x2} {x3} (h : Good W s) (hsreg : ∀ x, W.sreg x := by assumption) :
    nextAll (Good W) (execShli x1 x2 x3 s) := by
  simp (maxDischargeDepth := 30) +contextual only [execShli, *, implies_true, scalarImm_good]

@[simp] theorem execShri_good {x1} {x2} {x3} (h : Good W s) (hsreg : ∀ x, W.sreg x := by assumption) :
    nextAll (Good W) (execShri x1 x2 x3 s) := by
  simp (maxDischargeDepth := 30) +contextual only [execShri, *, implies_true, scalarImm_good]

@[simp] theorem execSrai_good {x1} {x2} {x3} (h : Good W s) (hsreg : ∀ x, W.sreg x := by assumption) :
    nextAll (Good W) (execSrai x1 x2 x3 s) := by
  simp (maxDischargeDepth := 30) +contextual only [execSrai, *, implies_true, scalarImm_good]

@[simp] theorem execCmpi_good {x1} {x2} {x3} (h : Good W s) (hpreg : ∀ x, W.preg x := by assumption) :
    nextAll (Good W) (execCmpi x1 x2 x3 s) := by
  simp (maxDischargeDepth := 30) +contextual only [execCmpi, *, implies_true, weftSimple_good, setP_good]

@[simp] theorem execPlog_good {x1} {x2} {x3} (h : Good W s) (hpreg : ∀ x, W.preg x := by assumption) :
    nextAll (Good W) (execPlog x1 x2 x3 s) := by
  simp (maxDischargeDepth := 30) +contextual only [execPlog, *, implies_true, weftSimple_good, setP_good]

@[simp] theorem execPmov_good {x1} {x2} {x3} (h : Good W s) (hpreg : ∀ x, W.preg x := by assumption) :
    nextAll (Good W) (execPmov x1 x2 x3 s) := by
  simp (maxDischargeDepth := 30) +contextual only [execPmov, *, implies_true, weftSimple_good, setP_good]

@[simp] theorem execPrd_good {x1} {x2} {x3} (h : Good W s) (hsreg : ∀ x, W.sreg x := by assumption) :
    nextAll (Good W) (execPrd x1 x2 x3 s) := by
  simp (maxDischargeDepth := 30) +contextual only [execPrd, *, implies_true, weftSimple_good, setS_good]

@[simp] theorem branchTo_good {x1} (h : Good W s) (h2 : Good W s2) :
    resAll (Good W) (branchTo s s2 x1) := by
  simp (maxDischargeDepth := 30) +contextual only [branchTo, *, implies_true, and_self, resAll_done, resAll_trap,
      resAll_ite]

@[simp] theorem execBr_good {x1} {x2} {x3} (h : Good W s) :
    nextAll (Good W) (execBr x1 x2 x3 s) := by
  simp (maxDischargeDepth := 30) +contextual only [execBr, *, implies_true, weftInstr_good, branchTo_good]

@[simp] theorem execBany_good {x1} {x2} {x3} (h : Good W s) :
    nextAll (Good W) (execBany x1 x2 x3 s) := by
  simp (maxDischargeDepth := 30) +contextual only [execBany, *, implies_true, and_self, resAll_done, resAll_ite,
      weftInstr_good, branchTo_good]

@[simp] theorem execBall_good {x1} {x2} {x3} (h : Good W s) :
    nextAll (Good W) (execBall x1 x2 x3 s) := by
  simp (maxDischargeDepth := 30) +contextual only [execBall, *, implies_true, and_self, resAll_done, resAll_ite,
      weftInstr_good, branchTo_good]

@[simp] theorem execJal_good {x1} {x2} {x3} (h : Good W s) (hsreg : ∀ x, W.sreg x := by assumption) :
    nextAll (Good W) (execJal x1 x2 x3 s) := by
  simp (maxDischargeDepth := 30) +contextual only [execJal, *, implies_true, weftInstr_good, branchTo_good, setS_good]

@[simp] theorem execJr_good {x1} {x2} {x3} (h : Good W s) :
    nextAll (Good W) (execJr x1 x2 x3 s) := by
  simp (maxDischargeDepth := 30) +contextual only [execJr, *, implies_true, weftInstr_good, branchTo_good]

end Sys2Proof.Machine
end

