-- ==== Sys2Proof/Laws/GoodWeftSync.lean ====
section
/-! SUPPORT. The operations of Machine/WeftSync.lean keep the queue, the fuses and the canonical form of every store. -/

namespace Sys2Proof.Machine

variable {W : Watch} {s : State}

@[simp] theorem mapTicket_good {x1} {x2} {x3} (h : Good W s) :
    Good W (mapTicket s x1 x2 x3) := by
  simp (maxDischargeDepth := 30) +contextual only [mapTicket, *, good_upd, implies_true]

@[simp] theorem newTicket_good {x1} {x2} {x3} (h : Good W s) :
    Good W (newTicket s x1 x2 x3) := by
  simp (maxDischargeDepth := 30) +contextual only [newTicket, *, good_upd, good_ite, implies_true, and_self,
      setCore_good, raise_good, refuseAccess_good, inject_good]

@[simp] theorem execShq_good {x1} {x2} {x3} (h : Good W s) (hsreg : ∀ x, W.sreg x := by assumption) :
    nextAll (Good W) (execShq x1 x2 x3 s) := by
  simp (maxDischargeDepth := 30) +contextual only [execShq, *, implies_true, and_self, resAll_done, resAll_trap,
      resAll_wait, resAll_ite, weftInstr_good, withAccess_good, setS_good, newTicket_good]

@[simp] theorem execShw_good {x1} {x2} {x3} (h : Good W s) (hsreg : ∀ x, W.sreg x := by assumption) :
    nextAll (Good W) (execShw x1 x2 x3 s) := by
  unfold execShw
  refine weftInstr_good h fun s g h => ?_
  dsimp only
  (repeat' split) <;> simp (maxDischargeDepth := 30) +contextual only [*, implies_true, resAll_done, resAll_trap,
      resAll_wait, setS_good]

@[simp] theorem execSht_good {x1} {x2} {x3} (h : Good W s) (hpreg : ∀ x, W.preg x := by assumption) :
    nextAll (Good W) (execSht x1 x2 x3 s) := by
  simp (maxDischargeDepth := 30) +contextual only [execSht, *, implies_true, weftSimple_good, setP_good]

@[simp] theorem withEvent_good {x1} {x2} {x3} {k4 : ChanDecl → WRes} (h : Good W s) (hk : ∀ y0, resAll (Good W) (k4 y0)) :
    resAll (Good W) (withEvent s x1 x2 x3 k4) := by
  unfold withEvent
  split <;> simp (maxDischargeDepth := 30) +contextual only [*, implies_true, and_self, resAll_trap, resAll_ite]

@[simp] theorem execChsend_good {x1} {x2} {x3} (h : Good W s) :
    nextAll (Good W) (execChsend x1 x2 x3 s) := by
  simp (maxDischargeDepth := 30) +contextual only [execChsend, *, implies_true, and_self, resAll_done, resAll_trap,
      resAll_wait, resAll_ite, weftInstr_good, withAccess_good, withEvent_good, injectWrites_good, seqAdvance_good,
      sendToken_good, takeCredit_good]

@[simp] theorem execChrecv_good {x1} {x2} {x3} (h : Good W s) (hsreg : ∀ x, W.sreg x := by assumption) :
    nextAll (Good W) (execChrecv x1 x2 x3 s) := by
  simp (maxDischargeDepth := 30) +contextual only [execChrecv, *, implies_true, and_self, resAll_done, resAll_wait,
      resAll_ite, weftInstr_good, withEvent_good, setChanSt_good, seqAdvance_good, setS_good, setCore_good]

@[simp] theorem execChrel_good {x1} {x2} {x3} (h : Good W s) :
    nextAll (Good W) (execChrel x1 x2 x3 s) := by
  unfold execChrel
  refine weftInstr_good h fun s g h => ?_
  dsimp only
  (repeat' split) <;> simp (maxDischargeDepth := 30) +contextual only [*, resAll_done, resAll_trap, returnCredit_good,
      setCore_good]

@[simp] theorem execChpoll_good {x1} {x2} {x3} (h : Good W s) (hpreg : ∀ x, W.preg x := by assumption) :
    nextAll (Good W) (execChpoll x1 x2 x3 s) := by
  unfold execChpoll
  refine weftInstr_good h fun s g h => ?_
  dsimp only
  (repeat' split) <;> simp (maxDischargeDepth := 30) +contextual only [*, implies_true, resAll_done, resAll_trap, setP_good]

@[simp] theorem regrant_good {x1} {x2} {x3} (h : Good W s) :
    Good W (regrant s x1 x2 x3) := by
  simp (maxDischargeDepth := 30) +contextual only [regrant, *, good_upd, implies_true, setF_good]

@[simp] theorem execEnergy_good {x1} {x2} {x3} (h : Good W s) :
    nextAll (Good W) (execEnergy x1 x2 x3 s) := by
  simp (maxDischargeDepth := 30) +contextual only [execEnergy, *, implies_true, and_self, resAll_done, resAll_trap,
      resAll_wait, resAll_ite, weftInstr_good, setCore_good, regrant_good]

@[simp] theorem execWaitTimeout_good {x1} (h : Good W s) :
    nextAll (Good W) (execWaitTimeout x1 s) := by
  unfold execWaitTimeout
  refine onUnit_good h fun s h => ?_
  (repeat' split) <;> simp (maxDischargeDepth := 30) +contextual only [*, takeTrap_good]

@[simp] theorem execScaleTagTimeout_good {x1} (h : Good W s) :
    nextAll (Good W) (execScaleTagTimeout x1 s) := by
  unfold execScaleTagTimeout
  refine onUnit_good h fun s h => ?_
  (repeat' split) <;> simp (maxDischargeDepth := 30) +contextual only [*, takeTrap_good]

end Sys2Proof.Machine
end

