-- ==== Sys2Proof/Laws/GoodShuttle.lean ====
section
/-! SUPPORT. The operations of Machine/Shuttle.lean keep the queue, the fuses and the canonical form of every store. -/

namespace Sys2Proof.Machine

variable {W : Watch} {s : State}

@[simp] theorem unitDone_good {x1} {x2} {x3} {x4} (h : Good W s) :
    Good W (unitDone s x1 x2 x3 x4) := by
  simp (maxDischargeDepth := 30) +contextual only [unitDone, *, inject_good, mapTicket_good]

@[simp] theorem peerUnit_good {x1} {x2} {x3} {x4} {x5} {x6} (h : Good W s) :
    Good W (peerUnit s x1 x2 x3 x4 x5 x6) := by
  unfold peerUnit
  (repeat' split) <;> simp (maxDischargeDepth := 30) +contextual only [*, good_upd, implies_true, unitDone_good,
      portSend_good]

@[simp] theorem readUnit_good {t a x} (h : Good W s)
    (hmem : ∀ x, W.mem x := by assumption) : Good W (readUnit s t a x).1 := by
  unfold readUnit
  dsimp only
  split
  · exact h
  · split
    · exact h
    · exact readLine_good ((resolveBias_good h) _ (by assumption))
  · split <;> exact hostRead_good h
  · exact h

@[simp] theorem writeUnit_good {t n k a bs p x} (h : Good W s) (hmem : ∀ x, W.mem x := by assumption)
    (hts : ∀ x, W.ts x := by assumption) : Good W (writeUnit s t n k a bs p x) := by
  unfold writeUnit
  extract_lets
  split
  · exact unitDone_good (tsWrite_good h)
  · split
    · exact unitDone_good h
    · exact unitDone_good (setBad_good (memPut_good ((resolveBias_good h) _ (by assumption))))
  · exact unitDone_good (hostWrite_good h)
  · split
    · exact unitDone_good h
    · exact peerUnit_good h

@[simp] theorem setTurn_good {x1} {x2} (h : Good W s) :
    Good W (setTurn s x1 x2) := by
  simp (maxDischargeDepth := 30) +contextual only [setTurn, *, good_upd, implies_true]

@[simp] theorem startTicket_good {x1} {x2} {x3} (h : Good W s) :
    Good W (startTicket s x1 x2 x3) := by
  unfold startTicket
  split <;> simp (maxDischargeDepth := 30) +contextual only [*, good_ite, implies_true, and_self, takePacket_good,
      mapTicket_good]

@[simp] theorem performUnit_good {x1} {x2} {x3} {x4} {x5} {x6} (h : Good W s) (hmem : ∀ x, W.mem x := by assumption)
    (hts : ∀ x, W.ts x := by assumption) :
    Good W (performUnit s x1 x2 x3 x4 x5 x6) := by
  unfold performUnit
  (try dsimp only)
  (repeat' split) <;> simp (maxDischargeDepth := 30) +contextual only [*, implies_true, readUnit_good, writeUnit_good,
      unitDone_good, peerUnit_good]

@[simp] theorem execShuttleReq_good {x1} {x2} {x3} {x4} (h : Good W s) (hmem : ∀ x, W.mem x := by assumption)
    (hts : ∀ x, W.ts x := by assumption) :
    nextAll (Good W) (execShuttleReq x1 x2 x3 x4 s) := by
  unfold execShuttleReq
  refine onUnit_good h fun s h => ?_
  (try dsimp only)
  (repeat' split) <;> simp (maxDischargeDepth := 30) +contextual only [*, implies_true, startTicket_good,
      performUnit_good, setTurn_good]

@[simp] theorem execShuttleResp_good {x1} {x2} {x3} (h : Good W s) :
    nextAll (Good W) (execShuttleResp x1 x2 x3 s) := by
  unfold execShuttleResp
  refine onUnit_good h fun s h => ?_
  (try dsimp only)
  (repeat' split) <;> simp (maxDischargeDepth := 30) +contextual only [*, mapTicket_good, takePacket_good]

@[simp] theorem completeTicket_good {x1} {x2} {x3} (h : Good W s) :
    Good W (completeTicket s x1 x2 x3) := by
  simp (maxDischargeDepth := 30) +contextual only [completeTicket, *, good_ite, implies_true, and_self, mapTicket_good,
      raise_good]

@[simp] theorem execShuttleTicketComplete_good {x1} {x2} (h : Good W s) :
    nextAll (Good W) (execShuttleTicketComplete x1 x2 s) := by
  unfold execShuttleTicketComplete
  refine onUnit_good h fun s h => ?_
  dsimp only
  (repeat' split) <;> simp (maxDischargeDepth := 30) +contextual only [*, completeTicket_good]

end Sys2Proof.Machine
end

