-- ==== Sys2Proof/Laws/GoodSched.lean ====
section
/-! SUPPORT. The operations of Machine/Sched.lean keep the queue, the fuses and the canonical form of every store. -/

namespace Sys2Proof.Machine

variable {W : Watch} {s : State}

@[simp] theorem setCqHeld_good {x1} {x2} (h : Good W s) :
    Good W (setCqHeld s x1 x2) := by
  simp (maxDischargeDepth := 30) +contextual only [setCqHeld, *, good_upd, implies_true]

@[simp] theorem noteCq_good {x1} (h : Good W s) :
    Good W (noteCq s x1) := by
  simp (maxDischargeDepth := 30) +contextual only [noteCq, *, setRegBit_good]

@[simp] theorem ringError_good {x1} (h : Good W s) :
    Good W (ringError s x1) := by
  simp (maxDischargeDepth := 30) +contextual only [ringError, *, setHalted_good, raise_good]

@[simp] theorem ringRead_good {a x} (h : Good W s) (hmem : ∀ x, W.mem x := by assumption) : Good W (ringRead s a x).1 := by
  unfold ringRead
  extract_lets
  split
  · split
    · exact refuseAccess_good h
    · split
      · exact h
      · exact readLine_good ((resolveBias_good h) _ (by assumption))
  · split <;> exact hostRead_good h
  · exact h

@[simp] theorem ringWrite_good {a bs x} (h : Good W s)
    (hmem : ∀ x, W.mem x := by assumption) : Good W (ringWrite s a bs x).1 := by
  unfold ringWrite
  split
  · dsimp only
    split
    · exact refuseAccess_good h
    · split
      · exact h
      · exact memWrite_good ((resolveBias_good h) _ (by assumption))
  · exact hostWrite_good h
  · exact h

@[simp] theorem execWfSqProd_good {x1} {x2} (h : Good W s) :
    nextAll (Good W) (execWfSqProd x1 x2 s) := by
  simp (maxDischargeDepth := 30) +contextual only [execWfSqProd, *, implies_true, onUnit_good, onBlock_good, setF_good]

@[simp] theorem cqRelease_good {x1} {x2} (h : Good W s) :
    Good W (cqRelease s x1 x2) := by
  simp (maxDischargeDepth := 30) +contextual only [cqRelease, *, setF_good, noteCq_good, setCqHeld_good]

@[simp] theorem execWfCqCons_good {x1} {x2} (h : Good W s) :
    nextAll (Good W) (execWfCqCons x1 x2 s) := by
  simp (maxDischargeDepth := 30) +contextual only [execWfCqCons, *, implies_true, onUnit_good, onBlock_good, cqRelease_good]

@[simp] theorem execWfPos_good {x1} {x2} (h : Good W s) :
    nextAll (Good W) (execWfPos x1 x2 s) := by
  simp (maxDischargeDepth := 30) +contextual only [execWfPos, *, good_ite, implies_true, and_self, onUnit_good,
      onBlock_good, setF_good]

@[simp] theorem fetchOne_good {x1} {x2} {x3} (h : Good W s) (hmem : ∀ x, W.mem x := by assumption) :
    Good W (fetchOne s x1 x2 x3) := by
  unfold fetchOne
  dsimp only
  (repeat' split) <;> simp (maxDischargeDepth := 30) +contextual only [*, implies_true, ringRead_good, ringError_good,
      enqueue_good, setF_good]

@[simp] theorem dropAbort_good {x1} (h : Good W s) :
    Good W (dropAbort s x1) := by
  simp (maxDischargeDepth := 30) +contextual only [dropAbort, *, good_upd, implies_true]

@[simp] theorem endAbort_good {x1} (h : Good W s) :
    Good W (endAbort s x1) := by
  simp (maxDischargeDepth := 30) +contextual only [endAbort, *, setHalted_good, setRegBit_good, dropAbort_good]

@[simp] theorem abortFetch_good {x1} {x2} (h : Good W s) (hmem : ∀ x, W.mem x := by assumption) :
    Good W (abortFetch s x1 x2) := by
  unfold abortFetch
  split <;> simp (maxDischargeDepth := 30) +contextual only [*, good_ite, implies_true, and_self, fetchOne_good,
      endAbort_good]

@[simp] theorem abortSettle_good {x1} (h : Good W s) :
    Good W (abortSettle s x1) := by
  simp (maxDischargeDepth := 30) +contextual only [abortSettle, *, good_ite, implies_true, and_self, endAbort_good]

@[simp] theorem execDescriptorFetch_good {x1} {x2} (h : Good W s) (hmem : ∀ x, W.mem x := by assumption) :
    nextAll (Good W) (execDescriptorFetch x1 x2 s) := by
  simp (maxDischargeDepth := 30) +contextual only [execDescriptorFetch, *, good_ite, implies_true, and_self,
      onUnit_good, abortSettle_good, abortFetch_good, fetchOne_good]

@[simp] theorem noteError_good {x1} {x2} (h : Good W s) :
    Good W (noteError s x1 x2) := by
  simp (maxDischargeDepth := 30) +contextual only [noteError, *, setF_good]

@[simp] theorem addCompletion_good {x1} (h : Good W s) :
    Good W (addCompletion s x1) := by
  simp (maxDischargeDepth := 30) +contextual only [addCompletion, *, good_upd, implies_true]

@[simp] theorem completeIdle_good {x1} {x2} (h : Good W s) :
    Good W (completeIdle s x1 x2) := by
  simp (maxDischargeDepth := 30) +contextual only [completeIdle, *, good_upd, implies_true, noteError_good,
      noteQueue_good, addCompletion_good]

@[simp] theorem dropDone_good {k n} (h : Good W s) : Good W (dropDone k s n) := by
  induction k generalizing s with
  | zero => exact h
  | succ k ih =>
    unfold dropDone
    split
    · exact h
    · split
      · exact ih (completeIdle_good h)
      · split
        · exact ih (completeIdle_good (raise_good h))
        · exact h

@[simp] theorem execCompletionRecord_good {x1} {x2} (h : Good W s) (hmem : ∀ x, W.mem x := by assumption) :
    nextAll (Good W) (execCompletionRecord x1 x2 s) := by
  unfold execCompletionRecord
  refine onUnit_good h fun s h => ?_
  (try dsimp only)
  (repeat' split) <;> simp (maxDischargeDepth := 30) +contextual only [*, good_upd, imp_self, implies_true,
      ringWrite_good, ringError_good, setCqHeld_good, setF_good, noteCq_good, countUp_good, msix_good]

@[simp] theorem clearCore_good {x1} {x2} (h : Good W s) (hsreg : ∀ x, W.sreg x := by assumption)
    (hpreg : ∀ x, W.preg x := by assumption) (hvreg : ∀ x, W.vreg x := by assumption)
    (hxa : ∀ x, W.xa x := by assumption) :
    Good W (clearCore s x1 x2) := by
  simp (maxDischargeDepth := 30) +contextual only [clearCore, *, good_upd, imp_self, implies_true, swf_sclear, setS_good]

@[simp] theorem startTile_good {x1} {x2} {x3} {x4} {x5} {x6} (h : Good W s) (hts : ∀ x, W.ts x := by assumption)
    (hsreg : ∀ x, W.sreg x := by assumption) (hpreg : ∀ x, W.preg x := by assumption)
    (hvreg : ∀ x, W.vreg x := by assumption) (hxa : ∀ x, W.xa x := by assumption) :
    Good W (startTile s x1 x2 x3 x4 x5 x6) := by
  simp (maxDischargeDepth := 30) +contextual only [startTile, *, implies_true, clearCore_good, tsWrite_good, setCore_good]

@[simp] theorem startSlots_good {x1} (h : Good W s) :
    Good W (startSlots s x1) := by
  simp (maxDischargeDepth := 30) +contextual only [startSlots, *, implies_true, good_foldl, setSide_good]

@[simp] theorem startChans_good {x1} (h : Good W s) :
    Good W (startChans s x1) := by
  simp (maxDischargeDepth := 30) +contextual only [startChans, *, good_ite, implies_true, and_self, good_foldl,
      setChanSt_good, startSlots_good]

@[simp] theorem noteRunning_good {x1} (h : Good W s) :
    Good W (noteRunning s x1) := by
  simp (maxDischargeDepth := 30) +contextual only [noteRunning, *, setRegBit_good]

@[simp] theorem admitNow_good {x1} {x2} {x3} {x4} (h : Good W s) (hts : ∀ x, W.ts x := by assumption)
    (hsreg : ∀ x, W.sreg x := by assumption) (hpreg : ∀ x, W.preg x := by assumption)
    (hvreg : ∀ x, W.vreg x := by assumption) (hxa : ∀ x, W.xa x := by assumption) :
    Good W (admitNow s x1 x2 x3 x4) := by
  simp (maxDischargeDepth := 30) +contextual only [admitNow, *, good_upd, imp_self, implies_true, good_foldl,
      setF_good, startChans_good, startTile_good, noteRunning_good, noteQueue_good]

@[simp] theorem tryAdmit_good {x1} (h : Good W s) (hts : ∀ x, W.ts x := by assumption)
    (hsreg : ∀ x, W.sreg x := by assumption) (hpreg : ∀ x, W.preg x := by assumption)
    (hvreg : ∀ x, W.vreg x := by assumption) (hxa : ∀ x, W.xa x := by assumption) :
    Good W (tryAdmit s x1) := by
  unfold tryAdmit
  (repeat' split) <;> simp (maxDischargeDepth := 30) +contextual only [*, good_ite, implies_true, and_self,
      countUp_good, admitNow_good]

@[simp] theorem execJobAdmission_good (h : Good W s) (hts : ∀ x, W.ts x := by assumption)
    (hsreg : ∀ x, W.sreg x := by assumption) (hpreg : ∀ x, W.preg x := by assumption)
    (hvreg : ∀ x, W.vreg x := by assumption) (hxa : ∀ x, W.xa x := by assumption) :
    nextAll (Good W) (execJobAdmission s) := by
  simp (maxDischargeDepth := 30) +contextual only [execJobAdmission, *, good_ite, implies_true, and_self, good_foldl,
      nextAll_next, dropDone_good, tryAdmit_good]

@[simp] theorem execReservedJob_good {x1} (h : Good W s) :
    nextAll (Good W) (execReservedJob x1 s) := by
  unfold execReservedJob
  refine onUnit_good h fun s h => ?_
  dsimp only
  (repeat' split) <;> simp (maxDischargeDepth := 30) +contextual only [*, good_upd, implies_true]

@[simp] theorem execEnergyGrant_good {x1} (h : Good W s) :
    nextAll (Good W) (execEnergyGrant x1 s) := by
  unfold execEnergyGrant
  refine onUnit_good h fun s h => ?_
  dsimp only
  (repeat' split) <;> simp (maxDischargeDepth := 30) +contextual only [*, regrant_good, retire_good, setCore_good]

@[simp] theorem endMember_good {x1} {x2} {x3} (h : Good W s) :
    Good W (endMember s x1 x2 x3) := by
  simp (maxDischargeDepth := 30) +contextual only [endMember, *, good_ite, implies_true, and_self, addCompletion_good,
      noteRunning_good, setF_good, noteError_good, setHalted_good]

@[simp] theorem endJob_good {x1} {x2} (h : Good W s) :
    Good W (endJob s x1 x2) := by
  simp (maxDischargeDepth := 30) +contextual only [endJob, *, good_upd, implies_true, good_foldl, setF_good, endMember_good]

@[simp] theorem execJobEnd_good {x1} (h : Good W s) :
    nextAll (Good W) (execJobEnd x1 s) := by
  unfold execJobEnd
  refine onUnit_good h fun s h => ?_
  (repeat' split) <;> simp (maxDischargeDepth := 30) +contextual only [*, endJob_good]

@[simp] theorem stopTiles_good {x1} (h : Good W s) :
    Good W (stopTiles s x1) := by
  simp (maxDischargeDepth := 30) +contextual only [stopTiles, *, good_ite, implies_true, and_self, good_foldl,
      takeStop_good]

@[simp] theorem execJobTrapEnd_good {x1} (h : Good W s) :
    nextAll (Good W) (execJobTrapEnd x1 s) := by
  unfold execJobTrapEnd
  refine onUnit_good h fun s h => ?_
  (repeat' split) <;> simp (maxDischargeDepth := 30) +contextual only [*, endJob_good, stopTiles_good]

@[simp] theorem execJobTimeLimit_good {x1} (h : Good W s) :
    nextAll (Good W) (execJobTimeLimit x1 s) := by
  unfold execJobTimeLimit
  refine onUnit_good h fun s h => ?_
  (repeat' split) <;> simp (maxDischargeDepth := 30) +contextual only [*, stopJob_good, raise_good]

@[simp] theorem abortStream_good {x1} {x2} (h : Good W s) (hmem : ∀ x, W.mem x := by assumption) :
    Good W (abortStream x1 x2 s) := by
  simp (maxDischargeDepth := 30) +contextual only [abortStream, *, good_upd, imp_self, implies_true, good_foldl,
      stopJob_good, completeIdle_good, setRegBit_good, dropAbort_good, abortSettle_good, abortFetch_good]

@[simp] theorem execAbort_good {x1} {x2} (h : Good W s) (hmem : ∀ x, W.mem x := by assumption) :
    nextAll (Good W) (execAbort x1 x2 s) := by
  simp (maxDischargeDepth := 30) +contextual only [execAbort, *, implies_true, onUnit_good, onBlock_good, abortStream_good]

@[simp] theorem execResume_good {x1} (h : Good W s) :
    nextAll (Good W) (execResume x1 s) := by
  simp (maxDischargeDepth := 30) +contextual only [execResume, *, implies_true, onUnit_good, onBlock_good, setHalted_good]

@[simp] theorem hostRingsLost_good (h : Good W s) :
    Good W (hostRingsLost s) := by
  simp (maxDischargeDepth := 30) +contextual only [hostRingsLost, *, implies_true, good_foldl, ringError_good]

end Sys2Proof.Machine
end

