-- ==== Sys2Proof/Laws/GoodTimebase.lean ====
section
/-! SUPPORT. The operations of Machine/Timebase.lean keep the queue, the fuses and the canonical form of every store. -/

namespace Sys2Proof.Machine

variable {W : Watch} {s : State}

@[simp] theorem avsStart_good (h : Good W s) :
    Good W (avsStart s) := by
  simp (maxDischargeDepth := 30) +contextual only [avsStart, *, setRegBit_good]

@[simp] theorem lockEnds_good {x1} (h : Good W s) :
    Good W (lockEnds s x1) := by
  simp (maxDischargeDepth := 30) +contextual only [lockEnds, *, clearArm_good, setTbState_good]

@[simp] theorem execLockEnSet_good (h : Good W s) :
    nextAll (Good W) (execLockEnSet s) := by
  simp (maxDischargeDepth := 30) +contextual only [execLockEnSet, *, good_ite, implies_true, and_self, nextAll_next,
      onBlock_good, setRegBit_good, setTbState_good, raise_good]

@[simp] theorem runLapses_good (h : Good W s) :
    Good W (runLapses s) := by
  simp (maxDischargeDepth := 30) +contextual only [runLapses, *, endRun_good, raise_good]

@[simp] theorem lapseDue_good (h : Good W s) :
    Good W (lapseDue s) := by
  simp (maxDischargeDepth := 30) +contextual only [lapseDue, *, good_upd, implies_true]

@[simp] theorem execLockEnClear_good (h : Good W s) :
    nextAll (Good W) (execLockEnClear s) := by
  simp (maxDischargeDepth := 30) +contextual only [execLockEnClear, *, good_ite, implies_true, and_self, nextAll_next,
      onBlock_good, setRegBit_good, lapseDue_good, lockEnds_good]

@[simp] theorem execTickLocked_good {x1} (h : Good W s) :
    nextAll (Good W) (execTickLocked x1 s) := by
  simp (maxDischargeDepth := 30) +contextual only [execTickLocked, *, good_ite, implies_true, and_self, nextAll_next,
      raise_good, setTbState_good, avsStart_good]

@[simp] theorem execTickLockFail_good (h : Good W s) :
    nextAll (Good W) (execTickLockFail s) := by
  simp (maxDischargeDepth := 30) +contextual only [execTickLockFail, *, good_ite, implies_true, and_self, nextAll_next,
      raise_good, setTbState_good]

@[simp] theorem execAvsDone_good {x1} (h : Good W s) :
    nextAll (Good W) (execAvsDone x1 s) := by
  simp (maxDischargeDepth := 30) +contextual only [execAvsDone, *, good_ite, implies_true, and_self, nextAll_next,
      raise_good, setRegN_good, setRegBit_good, setF_good]

@[simp] theorem armNow_good (h : Good W s) :
    Good W (armNow s) := by
  simp (maxDischargeDepth := 30) +contextual only [armNow, *, good_ite, implies_true, and_self, armChecks_good,
      armAccepted_good]

@[simp] theorem execArm_good (h : Good W s) :
    nextAll (Good W) (execArm s) := by
  simp (maxDischargeDepth := 30) +contextual only [execArm, *, good_ite, implies_true, and_self, nextAll_next,
      onBlock_good, keepLater_good, armNow_good]

@[simp] theorem execStop_good (h : Good W s) :
    nextAll (Good W) (execStop s) := by
  simp (maxDischargeDepth := 30) +contextual only [execStop, *, good_upd, good_ite, implies_true, and_self,
      nextAll_next, onBlock_good, setRegBit_good]

@[simp] theorem execRunStopEnd_good (h : Good W s) :
    nextAll (Good W) (execRunStopEnd s) := by
  unfold execRunStopEnd
  split <;> simp (maxDischargeDepth := 30) +contextual only [*, good_ite, implies_true, and_self, nextAll_next, endRun_good]

@[simp] theorem execRunSyncEdge_good (h : Good W s) (hts : ∀ x, W.ts x := by assumption) :
    nextAll (Good W) (execRunSyncEdge s) := by
  simp (maxDischargeDepth := 30) +contextual only [execRunSyncEdge, *, good_ite, implies_true, and_self, nextAll_next,
      restartRun_good, raise_good, setReg64_good, beginRun_good]

@[simp] theorem execTickLost_good (h : Good W s) :
    nextAll (Good W) (execTickLost s) := by
  simp (maxDischargeDepth := 30) +contextual only [execTickLost, *, good_upd, good_ite, implies_true, and_self,
      nextAll_next, raise_good, setTbState_good, lockEnds_good]

@[simp] theorem execHoldoverExit_good (h : Good W s) :
    nextAll (Good W) (execHoldoverExit s) := by
  simp (maxDischargeDepth := 30) +contextual only [execHoldoverExit, *, good_upd, good_ite, implies_true, and_self,
      nextAll_next, setTbState_good]

@[simp] theorem execHoldoverExpired_good (h : Good W s) :
    nextAll (Good W) (execHoldoverExpired s) := by
  simp (maxDischargeDepth := 30) +contextual only [execHoldoverExpired, *, good_ite, implies_true, and_self,
      nextAll_next, lapseDue_good]

@[simp] theorem execSysclkLost_good (h : Good W s) (hflash : ∀ x, W.flash x := by assumption) :
    nextAll (Good W) (execSysclkLost s) := by
  simp (maxDischargeDepth := 30) +contextual only [execSysclkLost, *, good_upd, good_ite, imp_self, implies_true,
      and_self, nextAll_next, ledgerEvent_good, raise_good, abortRun_good, lockEnds_good, setRegBit_good]

@[simp] theorem execWeftPllUnlock_good (h : Good W s) :
    nextAll (Good W) (execWeftPllUnlock s) := by
  simp (maxDischargeDepth := 30) +contextual only [execWeftPllUnlock, *, nextAll_next, raise_good, setRegBit_good]

@[simp] theorem applyOpStep_good (h : Good W s) :
    Good W (applyOpStep s) := by
  simp (maxDischargeDepth := 30) +contextual only [applyOpStep, *, good_ite, implies_true, and_self, setRegBit_good,
      setF_good]

@[simp] theorem execDroopDetected_good {x1} {x2} {x3} (h : Good W s) :
    nextAll (Good W) (execDroopDetected x1 x2 x3 s) := by
  simp (maxDischargeDepth := 30) +contextual only [execDroopDetected, *, good_upd, good_ite, implies_true, and_self,
      onUnit_good, applyOpStep_good, setReg64_good]

@[simp] theorem tickOverrun_good (h : Good W s) :
    Good W (tickOverrun s) := by
  unfold tickOverrun
  extract_lets t1
  have g1 : Good W t1 := by simp (maxDischargeDepth := 30) +contextual only [t1, *, countUp_good, raise_good]
  clear_value t1
  (repeat' split) <;> simp (maxDischargeDepth := 30) +contextual only [*, implies_true, good_foldl, markFrame_good]

@[simp] theorem periodEnd_good (h : Good W s) :
    Good W (periodEnd s) := by
  simp (maxDischargeDepth := 30) +contextual only [periodEnd, *, good_upd, good_ite, implies_true, and_self,
      cutFlits_good, tickOverrun_good, setRegN_good]

@[simp] theorem tickEdge_good (h : Good W s) :
    Good W (tickEdge s) := by
  unfold tickEdge
  extract_lets b s1 held hold tb s2 s3 s4
  have g1 : Good W s1 := by simp only [s1, good_ite, periodEnd_good, h, implies_true, and_self]
  have g2 : Good W s2 := tickTimers_good (by
    simp (maxDischargeDepth := 30) +contextual only [good_upd, g1, implies_true])
  have g3 : Good W s3 := by simp only [s3, good_ite, setRegBit_good, g2, implies_true, and_self]
  have g4 : Good W s4 := snapOutFalls_good g3
  refine snapLatch_good ?_
  simp only [good_ite, runLapses_good, g4, implies_true, and_self]

@[simp] theorem execTickOverrun_good (h : Good W s) :
    nextAll (Good W) (execTickOverrun s) := by
  simp (maxDischargeDepth := 30) +contextual only [execTickOverrun, *, good_ite, implies_true, and_self, nextAll_next,
      tickEdge_good]

@[simp] theorem warpEdge_good (h : Good W s) :
    Good W (warpEdge s) := by
  simp (maxDischargeDepth := 30) +contextual only [warpEdge, *, good_upd, implies_true]

@[simp] theorem reedCycle_good (h : Good W s) (hts : ∀ x, W.ts x := by assumption) :
    Good W (reedCycle s) := by
  simp (maxDischargeDepth := 30) +contextual only [reedCycle, *, good_upd, good_ite, imp_self, implies_true, and_self,
      tickEdge_good, landDue_good, warpEdge_good]

end Sys2Proof.Machine
end

