-- ==== Sys2Proof/Laws/GoodRegAccess.lean ====
section
/-! SUPPORT. The operations of Machine/RegAccess.lean keep the queue, the fuses and the canonical form of every store. -/

namespace Sys2Proof.Machine

variable {W : Watch} {s : State}

@[simp] theorem windowWrite_good {x1} {x2} (h : Good W s) :
    Good W (windowWrite s x1 x2) := by
  unfold windowWrite
  (repeat' split) <;> simp (maxDischargeDepth := 30) +contextual only [*, good_upd, implies_true, swf_sset]

@[simp] theorem writeEffect_good {x1} {x2} (h : Good W s) :
    Good W (writeEffect s x1 x2) := by
  unfold writeEffect
  split <;> simp (maxDischargeDepth := 30) +contextual only [*, good_upd, good_ite, implies_true, and_self, swf_sset,
      avsStart_good, noteSmb_good, setRegN_good, eyeLost_good, setReg_good, msixUnmask_good, setRegBit_good, raise_good]

@[simp] theorem writePortAuto_good {x1} {x2} (h : Good W s) :
    Good W (writePortAuto s x1 x2) := by
  simp (maxDischargeDepth := 30) +contextual only [writePortAuto, *, setRegBit_good]

@[simp] theorem storeWord_good {x1} {x2} (h : Good W s) :
    Good W (storeWord s x1 x2) := by
  simp (maxDischargeDepth := 30) +contextual only [storeWord, *, good_ite, implies_true, and_self, writePortAuto_good,
      writeEffect_good, setReg_good]

@[simp] theorem portDenied_good {x1} (h : Good W s) :
    Good W (portDenied s x1) := by
  simp (maxDischargeDepth := 30) +contextual only [portDenied, *, setRegBit_good]

@[simp] theorem portAccepted_good {x1} (h : Good W s) :
    Good W (portAccepted s x1) := by
  simp (maxDischargeDepth := 30) +contextual only [portAccepted, *, setRegBit_good]

@[simp] theorem portWrite_good {x1} {x2} {x3} (h : Good W s) :
    Good W (portWrite s x1 x2 x3) := by
  simp (maxDischargeDepth := 30) +contextual only [portWrite, *, good_upd, good_ite, implies_true, and_self,
      portDenied_good, setRegBit_good, setReg_good, portAccepted_good]

@[simp] theorem commitWide_good {x1} {x2} {x3} (h : Good W s) :
    Good W (commitWide s x1 x2 x3) := by
  simp (maxDischargeDepth := 30) +contextual only [commitWide, *, good_ite, implies_true, and_self, windowWrite_good,
      setReg_good]

@[simp] theorem bar0Write_good {x1} {x2} (h : Good W s) :
    Good W (bar0Write s x1 x2) := by
  unfold bar0Write
  (repeat' split) <;> simp (maxDischargeDepth := 30) +contextual only [*, good_upd, implies_true, commitWide_good,
      portWrite_good, storeWord_good]

@[simp] theorem clearRc_good {x1} (h : Good W s) :
    Good W (clearRc s x1) := by
  simp (maxDischargeDepth := 30) +contextual only [clearRc, *, good_upd, good_ite, implies_true, and_self, setReg_good,
      and_self, implies_true, swf_sset]

@[simp] theorem bar0Read_good {x1} (h : Good W s) :
    Good W (bar0Read s x1).1 := by
  unfold bar0Read
  (repeat' split) <;> simp (maxDischargeDepth := 30) +contextual only [*, good_upd, implies_true, tagTaken_good,
      clearRc_good]

@[simp] theorem bar2Write_good {x1} {x2} (h : Good W s) :
    Good W (bar2Write s x1 x2) := by
  simp (maxDischargeDepth := 30) +contextual only [bar2Write, *, good_upd, good_ite, implies_true, and_self]

@[simp] theorem cfgWrite_good {x1} {x2} (h : Good W s) :
    Good W (cfgWrite s x1 x2) := by
  unfold cfgWrite
  (repeat' split) <;> simp (maxDischargeDepth := 30) +contextual only [*, good_upd, good_ite, implies_true, and_self,
      good_foldl, setRegBit_good, msixUnmask_good]

@[simp] theorem setDecoder_good {x1} {x2} (h : Good W s) :
    Good W (setDecoder s x1 x2) := by
  simp (maxDischargeDepth := 30) +contextual only [setDecoder, *, good_upd, good_ite, implies_true, and_self,
      setRegBit_good]

@[simp] theorem hdmWrite_good {x1} {x2} {x3} (h : Good W s) :
    Good W (hdmWrite s x1 x2 x3) := by
  simp (maxDischargeDepth := 30) +contextual only [hdmWrite, *, good_ite, implies_true, and_self, setDecoder_good]

end Sys2Proof.Machine
end

