-- ==== Sys2Proof/Laws/GoodCxl.lean ====
section
/-! SUPPORT. The operations of Machine/Cxl.lean keep the queue, the fuses and the canonical form of every store. -/

namespace Sys2Proof.Machine

variable {W : Watch} {s : State}

@[simp] theorem flipFails_good (h : Good W s) :
    Good W (flipFails s) := by
  simp (maxDischargeDepth := 30) +contextual only [flipFails, *, good_upd, implies_true, setRegBit_good, raise_good]

@[simp] theorem linkLost_good (h : Good W s) :
    Good W (linkLost s) := by
  simp (maxDischargeDepth := 30) +contextual only [linkLost, *, good_upd, good_ite, implies_true, and_self, good_foldl,
      setReg_good, setF_good, resetRegs_good, flipFails_good, hostRingsLost_good, eyeLost_good]

@[simp] theorem execLinkUp_good {x1} {x2} {x3} (h : Good W s) :
    nextAll (Good W) (execLinkUp x1 x2 x3 s) := by
  simp (maxDischargeDepth := 30) +contextual only [execLinkUp, *, good_ite, implies_true, and_self, nextAll_next,
      setRegN_good, raise_good]

@[simp] theorem execLinkDown_good (h : Good W s) :
    nextAll (Good W) (execLinkDown s) := by
  simp (maxDischargeDepth := 30) +contextual only [execLinkDown, *, good_ite, implies_true, and_self, nextAll_next,
      linkLost_good, raise_good]

@[simp] theorem execPerstN_good (h : Good W s) :
    nextAll (Good W) (execPerstN s) := by
  simp (maxDischargeDepth := 30) +contextual only [execPerstN, *, good_upd, implies_true, nextAll_next, linkLost_good]

@[simp] theorem execPerstNDeassertion_good (h : Good W s) :
    nextAll (Good W) (execPerstNDeassertion s) := by
  simp (maxDischargeDepth := 30) +contextual only [execPerstNDeassertion, *, good_upd, implies_true, nextAll_next]

@[simp] theorem execHdmDecoderCommit_good {x1} (h : Good W s) :
    nextAll (Good W) (execHdmDecoderCommit x1 s) := by
  simp (maxDischargeDepth := 30) +contextual only [execHdmDecoderCommit, *, good_ite, implies_true, and_self,
      onUnit_good, raise_good, setDecoder_good]

@[simp] theorem hostAnswer_good {x1} {x2} (h : Good W s) :
    Good W (hostAnswer s x1 x2) := by
  simp (maxDischargeDepth := 30) +contextual only [hostAnswer, *, good_upd, implies_true]

@[simp] theorem hostFlips_good {x1} (h : Good W s) :
    Good W (hostFlips s x1) := by
  simp (maxDischargeDepth := 30) +contextual only [hostFlips, *, good_ite, implies_true, and_self, countUp_good,
      setPageBias_good]

@[simp] theorem tooEarly_good (h : Good W s) :
    Good W (tooEarly s) := by
  simp (maxDischargeDepth := 30) +contextual only [tooEarly, *, countUp_good, raise_good]

@[simp] theorem execHostMemRead_good {x1} {x2} (h : Good W s) (hmem : ∀ x, W.mem x := by assumption) :
    nextAll (Good W) (execHostMemRead x1 x2 s) := by
  unfold execHostMemRead
  dsimp only
  (repeat' split) <;> simp (maxDischargeDepth := 30) +contextual only [*, implies_true, nextAll_next, hostAnswer_good,
      tooEarly_good, readLine_good, hostFlips_good, refuseAccess_good]

@[simp] theorem hostStore_good {x1} {x2} {x3} {x4} {x5} (h : Good W s) (hmem : ∀ x, W.mem x := by assumption) :
    Good W (hostStore s x1 x2 x3 x4 x5) := by
  simp (maxDischargeDepth := 30) +contextual only [hostStore, *, good_ite, implies_true, and_self, setBad_good,
      memPut_good, countUp_good, raise_good, memWrite_good, readLine_good]

@[simp] theorem execHostMemWrite_good {x1} {x2} {x3} {x4} {x5} (h : Good W s) (hmem : ∀ x, W.mem x := by assumption) :
    nextAll (Good W) (execHostMemWrite x1 x2 x3 x4 x5 s) := by
  unfold execHostMemWrite
  dsimp only
  (repeat' split) <;> simp (maxDischargeDepth := 30) +contextual only [*, implies_true, nextAll_next, hostAnswer_good,
      tooEarly_good, hostStore_good, hostFlips_good, refuseAccess_good]

@[simp] theorem execBiasFlip_good {x1} (h : Good W s) :
    nextAll (Good W) (execBiasFlip x1 s) := by
  simp (maxDischargeDepth := 30) +contextual only [execBiasFlip, *, good_upd, good_ite, implies_true, and_self,
      nextAll_next, onBlock_good, setRegBit_good, setReg_good, flipFails_good]

@[simp] theorem flipPage_good {x1} (h : Good W s) :
    Good W (flipPage s x1) := by
  simp (maxDischargeDepth := 30) +contextual only [flipPage, *, good_upd, good_ite, implies_true, and_self,
      setPageBias_good, countUpF_good]

@[simp] theorem flipPages_good {n} (h : Good W s) : Good W (flipPages n s) := by
  induction n generalizing s with
  | zero => exact h
  | succ n ih =>
    unfold flipPages
    split
    · split
      · exact h
      · exact ih (flipPage_good h)
    · exact h

@[simp] theorem flipEnd_good (h : Good W s) :
    Good W (flipEnd s) := by
  unfold flipEnd
  split <;> simp (maxDischargeDepth := 30) +contextual only [*, good_upd, good_ite, implies_true, and_self,
      setRegBit_good, and_self, implies_true]

@[simp] theorem execBiasFlipDone_good {x1} {x2} (h : Good W s) (hmem : ∀ x, W.mem x := by assumption) :
    nextAll (Good W) (execBiasFlipDone x1 x2 s) := by
  unfold execBiasFlipDone
  split <;> simp (maxDischargeDepth := 30) +contextual only [*, good_ite, implies_true, and_self, good_foldl,
      nextAll_next, flipFails_good, memWrite_good, flipEnd_good, flipPages_good]

@[simp] theorem execHostSnoop_good {x1} {x2} (h : Good W s) :
    nextAll (Good W) (execHostSnoop x1 x2 s) := by
  simp (maxDischargeDepth := 30) +contextual only [execHostSnoop, *, good_upd, good_ite, implies_true, and_self,
      nextAll_next]

@[simp] theorem execAtsInvalidation_good {x1} {x2} (h : Good W s) :
    nextAll (Good W) (execAtsInvalidation x1 x2 s) := by
  simp (maxDischargeDepth := 30) +contextual only [execAtsInvalidation, *, good_upd, implies_true, nextAll_next]

end Sys2Proof.Machine
end

