-- ==== Sys2Proof/Laws/GoodLoadOps.lean ====
section
/-! SUPPORT. The operations of Machine/LoadOps.lean keep the queue, the fuses and the canonical form of every store. -/

namespace Sys2Proof.Machine

variable {W : Watch} {s : State}

@[simp] theorem writeCode_good {x1} {x2} (h : Good W s) (hpick : ∀ x, W.pick x := by assumption) :
    Good W (writeCode s x1 x2) := by
  simp (maxDischargeDepth := 30) +contextual only [writeCode, *, good_upd, imp_self, implies_true, swf_ssetMany, swf_sclear]

@[simp] theorem writeExtents_good {x1} {x2} {x3} (h : Good W s) (hts : ∀ x, W.ts x := by assumption) :
    Good W (writeExtents s x1 x2 x3) := by
  simp (maxDischargeDepth := 30) +contextual only [writeExtents, *, implies_true, good_foldl, tsWrite_good]

@[simp] theorem writeTstore_good {x1} {x2} (h : Good W s) (hts : ∀ x, W.ts x := by assumption) :
    Good W (writeTstore s x1 x2) := by
  simp (maxDischargeDepth := 30) +contextual only [writeTstore, *, good_upd, imp_self, implies_true, swf_sclear,
      writeExtents_good]

@[simp] theorem writePageRecord_good {x1} {x2} {x3} {x4} (h : Good W s) :
    Good W (writePageRecord s x1 x2 x3 x4) := by
  unfold writePageRecord
  split <;> simp (maxDischargeDepth := 30) +contextual only [*, writePage_good, writeF8Set_good]

@[simp] theorem writeWeights_good {x1} {x2} (h : Good W s) (hts : ∀ x, W.ts x := by assumption) :
    Good W (writeWeights s x1 x2) := by
  simp (maxDischargeDepth := 30) +contextual only [writeWeights, *, implies_true, good_foldl, writeExtents_good,
      writePageRecord_good]

@[simp] theorem writeWarpcfg_good {x1} {x2} (h : Good W s) :
    Good W (writeWarpcfg s x1 x2) := by
  simp (maxDischargeDepth := 30) +contextual only [writeWarpcfg, *, implies_true, good_foldl, setRegN_good]

@[simp] theorem writeSlots_good {x1} {x2} (h : Good W s) :
    Good W (writeSlots s x1 x2) := by
  simp (maxDischargeDepth := 30) +contextual only [writeSlots, *, good_upd, implies_true, swf_ssetMany]

@[simp] theorem writeJobs_good {x1} (h : Good W s) :
    Good W (writeJobs s x1) := by
  simp (maxDischargeDepth := 30) +contextual only [writeJobs, *, good_upd, implies_true, good_foldl, setRegN_good]

@[simp] theorem writeSect_good {x1} {x2} (h : Good W s) (hts : ∀ x, W.ts x := by assumption)
    (hpick : ∀ x, W.pick x := by assumption) :
    Good W (writeSect x1 s x2) := by
  unfold writeSect
  split <;> simp (maxDischargeDepth := 30) +contextual only [*, implies_true, writeCode_good, writeTstore_good,
      writeWeights_good, writeWarpcfg_good, writeSlots_good]

@[simp] theorem writeMarrow_good {x1} (h : Good W s) :
    Good W (writeMarrow x1 s) := by
  simp (maxDischargeDepth := 30) +contextual only [writeMarrow, *, good_ite, implies_true, and_self, good_foldl,
      writePage_good, setPage_good]

@[simp] theorem clearTables_good (h : Good W s) : Good W (clearTables s) := by
  have h1 := good_foldl (l := List.range 256) h fun s t (h : Good W s) => resetRegs_good (x1 := rWtDescBase t) (x2 := 4) h
  have h2 := good_foldl (l := List.range 256) h1 fun s t h =>
    resetRegs_good (x1 := rWtRoute t 0 0) (x2 := 0x100) (resetRegs_good (x1 := rWtSkeinCfg t 0) (x2 := 32) h)
  unfold clearTables
  apply good_upd h2 <;> simp +contextual [*]

@[simp] theorem writeImage_good {x1} (h : Good W s) (hts : ∀ x, W.ts x := by assumption)
    (hpick : ∀ x, W.pick x := by assumption) :
    Good W (writeImage x1 s) := by
  unfold writeImage
  split <;> simp (maxDischargeDepth := 30) +contextual only [*, implies_true, good_foldl, clearTables_good,
      writeSect_good, writeMarrow_good]

@[simp] theorem publishDigests_good {x1} (h : Good W s) :
    Good W (publishDigests s x1) := by
  simp (maxDischargeDepth := 30) +contextual only [publishDigests, *, implies_true, good_foldl, setRegN_good]

@[simp] theorem publishWarp_good {x1} (h : Good W s) :
    Good W (publishWarp s x1) := by
  simp (maxDischargeDepth := 30) +contextual only [publishWarp, *, setRegN_good, setF_good]

@[simp] theorem clearProv_good (h : Good W s) : Good W (clearProv s) := by
  have h1 : Good W ((List.range 16).foldl (fun s n =>
      resetRegs (setRegN (setRegN s (rPvProd n) 0) (rPvDeliv n) 0) (rPvLink n 0) 32) (setRegN s rPvStatus 0)) :=
    good_foldl (setRegN_good h) fun s n h => resetRegs_good (setRegN_good (setRegN_good h))
  unfold clearProv
  apply good_upd h1 <;> simp +contextual only [implies_true, swf_nil]

@[simp] theorem clearWarpPlane_good (h : Good W s) : Good W (clearWarpPlane s) := by
  unfold clearWarpPlane
  apply good_upd h <;> simp +contextual [*]

@[simp] theorem ldDone_good {x1} {x2} {x3} (h : Good W s) :
    Good W (ldDone s x1 x2 x3) := by
  simp (maxDischargeDepth := 30) +contextual only [ldDone, *, setRegN_good]

@[simp] theorem publishWeft_good {x1} (h : Good W s) :
    Good W (publishWeft x1 s) := by
  unfold publishWeft
  split <;> simp (maxDischargeDepth := 30) +contextual only [*, writeJobs_good]

@[simp] theorem publishImage_good {x1} {x2} (h : Good W s) (hts : ∀ x, W.ts x := by assumption)
    (himage : ∀ x, W.image x := by assumption) :
    Good W (publishImage x1 x2 s) := by
  simp (maxDischargeDepth := 30) +contextual only [publishImage, *, good_upd, good_ite, imp_self, implies_true,
      and_self, publishWeft_good, publishWarp_good, clearProv_good, clearWarpPlane_good, restoreRecords_good,
      publishDigests_good, setRegN_good, ldDone_good]

end Sys2Proof.Machine
end

