-- ==== Sys2Proof/Laws/GoodWarp.lean ====
section
/-! SUPPORT. The operations of Machine/Warp.lean keep the queue, the fuses and the canonical form of every store. -/

namespace Sys2Proof.Machine

variable {W : Watch} {s : State}

@[simp] theorem descInvalid_good {x1} {x2} (h : Good W s) :
    Good W (descInvalid s x1 x2) := by
  simp (maxDischargeDepth := 30) +contextual only [descInvalid, *, warpFault_good]

@[simp] theorem stepIssued_good {o} {x1} {x2} (h : Good W o.st) :
    Good W (stepIssued o x1 x2) := by
  unfold stepIssued
  (repeat' split) <;> simp (maxDischargeDepth := 30) +contextual only [*, warpFault_good, setRegBit_good, later_good]

@[simp] theorem warpBlock_good {x1} {x2} {x3} {z} {x4} (h : Good W z.1) :
    Good W (warpBlock x1 x2 x3 z x4).1 := by
  simp (maxDischargeDepth := 30) +contextual only [warpBlock, *, good_ite, implies_true, and_self, warpFault_good,
      countUp_good, setRegBit_good, clearSlots_good]

@[simp] theorem warpStep_good {x1} {x2} {x3} {x4} (h : Good W s) :
    Good W (warpStep s x1 x2 x3 x4) := by
  simp (maxDischargeDepth := 30) +contextual only [warpStep, *, good_ite, implies_true, and_self, good_foldl_fst,
      descInvalid_good, warpBlock_good, stepIssued_good, blockStep_good, intStep_good]

@[simp] theorem execWarpMxr_good {x1} {x2} {x3} (h : Good W s) :
    nextAll (Good W) (execWarpMxr x1 x2 x3 s) := by
  simp (maxDischargeDepth := 30) +contextual only [execWarpMxr, *, good_ite, implies_true, and_self, onUnit_good,
      warpSlot_good, warpStep_good]

@[simp] theorem execWarpMxc_good {x1} {x2} (h : Good W s) :
    nextAll (Good W) (execWarpMxc x1 x2 s) := by
  simp (maxDischargeDepth := 30) +contextual only [execWarpMxc, *, good_ite, implies_true, and_self, onUnit_good,
      warpSlot_good, later_good]

@[simp] theorem warpFlags_good {x1} {x2} (h : Good W s) :
    Good W (warpFlags s x1 x2) := by
  simp (maxDischargeDepth := 30) +contextual only [warpFlags, *, good_ite, implies_true, and_self, setF_good,
      markFrame_good]

@[simp] theorem vSlot_good {x1} {x2} {x3} {x4} {x5} {k6 : State → WarpSite → VecDesc → State} (h : Good W s)
    (hk : ∀ s y1 y2, Good W s → Good W (k6 s y1 y2)) :
    nextAll (Good W) (vSlot x1 x2 x3 x4 x5 s k6) := by
  simp (maxDischargeDepth := 30) +contextual only [vSlot, *, good_ite, implies_true, and_self, onUnit_good,
      warpSlot_good, descInvalid_good]

@[simp] theorem vMove_good {x1} {x2} {x3} {k4 : State → WarpSite → VecDesc → State} (h : Good W s)
    (hk : ∀ s y1 y2, Good W s → Good W (k4 s y1 y2)) :
    nextAll (Good W) (vMove x1 x2 x3 s k4) := by
  unfold vMove
  (repeat' split) <;> simp (maxDischargeDepth := 30) +contextual only [*, implies_true, vSlot_good]

@[simp] theorem vStore_good {x1} {x2} {x3} {x4} (h : Good W s) :
    Good W (vStore s x1 x2 x3 x4) := by
  simp (maxDischargeDepth := 30) +contextual only [vStore, *, later_good]

@[simp] theorem vElement_good {x1} {x2} {x3} {x4} {x5} (h : Good W s) :
    nextAll (Good W) (vElement x1 x2 x3 x4 x5 s) := by
  simp (maxDischargeDepth := 30) +contextual only [vElement, *, implies_true, vSlot_good, warpFlags_good, vStore_good]

@[simp] theorem execWarpAdd_good {x1} {x2} (h : Good W s) :
    nextAll (Good W) (execWarpAdd x1 x2 s) := by
  simp (maxDischargeDepth := 30) +contextual only [execWarpAdd, *, vElement_good]

@[simp] theorem execWarpMul_good {x1} {x2} (h : Good W s) :
    nextAll (Good W) (execWarpMul x1 x2 s) := by
  simp (maxDischargeDepth := 30) +contextual only [execWarpMul, *, vElement_good]

@[simp] theorem execWarpFma_good {x1} {x2} (h : Good W s) :
    nextAll (Good W) (execWarpFma x1 x2 s) := by
  simp (maxDischargeDepth := 30) +contextual only [execWarpFma, *, vElement_good]

@[simp] theorem execWarpMax_good {x1} {x2} (h : Good W s) :
    nextAll (Good W) (execWarpMax x1 x2 s) := by
  simp (maxDischargeDepth := 30) +contextual only [execWarpMax, *, vElement_good]

@[simp] theorem execWarpMin_good {x1} {x2} (h : Good W s) :
    nextAll (Good W) (execWarpMin x1 x2 s) := by
  simp (maxDischargeDepth := 30) +contextual only [execWarpMin, *, vElement_good]

@[simp] theorem vFunction_good {x1} {x2} {x3} {x4} (h : Good W s) :
    nextAll (Good W) (vFunction x1 x2 x3 x4 s) := by
  simp (maxDischargeDepth := 30) +contextual only [vFunction, *, implies_true, vMove_good, warpFlags_good, vStore_good]

@[simp] theorem execExp2_good {x1} {x2} (h : Good W s) :
    nextAll (Good W) (execExp2 x1 x2 s) := by
  simp (maxDischargeDepth := 30) +contextual only [execExp2, *, vFunction_good]

@[simp] theorem execLog2_good {x1} {x2} (h : Good W s) :
    nextAll (Good W) (execLog2 x1 x2 s) := by
  simp (maxDischargeDepth := 30) +contextual only [execLog2, *, vFunction_good]

@[simp] theorem execRcp_good {x1} {x2} (h : Good W s) :
    nextAll (Good W) (execRcp x1 x2 s) := by
  simp (maxDischargeDepth := 30) +contextual only [execRcp, *, vFunction_good]

@[simp] theorem execRsq_good {x1} {x2} (h : Good W s) :
    nextAll (Good W) (execRsq x1 x2 s) := by
  simp (maxDischargeDepth := 30) +contextual only [execRsq, *, vFunction_good]

@[simp] theorem execRed_good {x1} {x2} (h : Good W s) :
    nextAll (Good W) (execRed x1 x2 s) := by
  simp (maxDischargeDepth := 30) +contextual only [execRed, *, implies_true, vMove_good, warpFlags_good, vStore_good]

@[simp] theorem execPset_good {x1} {x2} {x3} (h : Good W s) :
    nextAll (Good W) (execPset x1 x2 x3 s) := by
  simp (maxDischargeDepth := 30) +contextual only [execPset, *, good_ite, implies_true, and_self, vSlot_good,
      warpFlags_good, later_good]

@[simp] theorem execMovv_good {x1} {x2} (h : Good W s) :
    nextAll (Good W) (execMovv x1 x2 s) := by
  simp (maxDischargeDepth := 30) +contextual only [execMovv, *, implies_true, vMove_good, vStore_good]

@[simp] theorem execBmov_good {x1} {x2} {x3} (h : Good W s) :
    nextAll (Good W) (execBmov x1 x2 x3 s) := by
  simp (maxDischargeDepth := 30) +contextual only [execBmov, *, implies_true, vSlot_good, vStore_good]

@[simp] theorem execCvt_good {x1} {x2} (h : Good W s) :
    nextAll (Good W) (execCvt x1 x2 s) := by
  unfold execCvt
  refine vSlot_good h fun s w d h => ?_
  (try dsimp only)
  (repeat' split) <;> simp (maxDischargeDepth := 30) +contextual only [*, warpFlags_good, vStore_good]

@[simp] theorem setQuantExec_good {x1} {x2} {x3} (h : Good W s) :
    Good W (setQuantExec s x1 x2 x3) := by
  simp (maxDischargeDepth := 30) +contextual only [setQuantExec, *, good_upd, implies_true, implies_true, swf_sset]

@[simp] theorem scaleMisses_good {x1} {x2} (h : Good W s) :
    Good W (scaleMisses s x1 x2) := by
  simp (maxDischargeDepth := 30) +contextual only [scaleMisses, *, good_upd, good_ite, implies_true, and_self,
      swf_sset, warpFault_good, countUp_good]

@[simp] theorem sendBlock_good {x1} {x2} {x3} {x4} {x5} (h : Good W s) :
    Good W (sendBlock s x1 x2 x3 x4 x5) := by
  simp (maxDischargeDepth := 30) +contextual only [sendBlock, *, later_good]

@[simp] theorem quantBegin_good {x1} {x2} {x3} {x4} (h : Good W s) :
    Good W (quantBegin s x1 x2 x3 x4).1 := by
  unfold quantBegin
  (repeat' split) <;> simp (maxDischargeDepth := 30) +contextual only [*, later_good]

@[simp] theorem quantEnd_good {x1} {x2} {x3} {x4} {x5} (h : Good W s) :
    Good W (quantEnd s x1 x2 x3 x4 x5) := by
  simp (maxDischargeDepth := 30) +contextual only [quantEnd, *, implies_true, good_foldl, setQuantExec_good, later_good]

@[simp] theorem quantNonfinite_good {x1} {x2} (h : Good W s) :
    Good W (quantNonfinite s x1 x2) := by
  simp (maxDischargeDepth := 30) +contextual only [quantNonfinite, *, good_ite, implies_true, and_self, warpFlags_good,
      warpFault_good]

@[simp] theorem warpQuant_good {x1} {x2} {x3} {x4} {x5} (h : Good W s) :
    Good W (warpQuant s x1 x2 x3 x4 x5) := by
  simp (maxDischargeDepth := 30) +contextual only [warpQuant, *, good_ite, implies_true, and_self, warpFault_good,
      quantNonfinite_good, countUp_good, vStore_good, quantBegin_good, sendBlock_good, quantEnd_good,
      setQuantExec_good, scaleMisses_good]

@[simp] theorem execQnt_good {x1} {x2} (h : Good W s) :
    nextAll (Good W) (execQnt x1 x2 s) := by
  simp (maxDischargeDepth := 30) +contextual only [execQnt, *, implies_true, vSlot_good, warpQuant_good]

@[simp] theorem execReq_good {x1} {x2} {x3} (h : Good W s) :
    nextAll (Good W) (execReq x1 x2 x3 s) := by
  simp (maxDischargeDepth := 30) +contextual only [execReq, *, good_ite, implies_true, and_self, vSlot_good,
      warpFlags_good, warpQuant_good]

@[simp] theorem xSlot_good {x1} {x2} {x3} {k4 : State → WarpSite → Bool → State} (h : Good W s)
    (hk : ∀ s y1 y2, Good W s → Good W (k4 s y1 y2)) :
    nextAll (Good W) (xSlot x1 x2 x3 s k4) := by
  simp (maxDischargeDepth := 30) +contextual only [xSlot, *, implies_true, onUnit_good, warpSlot_good]

@[simp] theorem execSend_good {x1} {x2} {x3} {x4} (h : Good W s) :
    nextAll (Good W) (execSend x1 x2 x3 x4 s) := by
  simp (maxDischargeDepth := 30) +contextual only [execSend, *, implies_true, xSlot_good, launchBurst_good]

@[simp] theorem execSkpush_good {x1} {x2} {x3} {x4} (h : Good W s) :
    nextAll (Good W) (execSkpush x1 x2 x3 x4 s) := by
  simp (maxDischargeDepth := 30) +contextual only [execSkpush, *, good_ite, implies_true, and_self, xSlot_good,
      sendLater_good]

@[simp] theorem execSkpop_good {x1} {x2} {x3} (h : Good W s) :
    nextAll (Good W) (execSkpop x1 x2 x3 s) := by
  simp (maxDischargeDepth := 30) +contextual only [execSkpop, *, good_ite, implies_true, and_self, xSlot_good,
      skeinPop_good, later_good]

@[simp] theorem execSksend_good {x1} {x2} {x3} (h : Good W s) :
    nextAll (Good W) (execSksend x1 x2 x3 s) := by
  simp (maxDischargeDepth := 30) +contextual only [execSksend, *, implies_true, xSlot_good, skeinPop_good, launchBurst_good]

@[simp] theorem execHtk_good {x1} {x2} {x3} {x4} {x5} {x6} (h : Good W s) :
    nextAll (Good W) (execHtk x1 x2 x3 x4 x5 x6 s) := by
  simp (maxDischargeDepth := 30) +contextual only [execHtk, *, good_ite, implies_true, and_self, onUnit_good,
      warpSlot_good, warpFault_good, setTokens_good]

@[simp] theorem execMark_good {x1} {x2} (h : Good W s) :
    nextAll (Good W) (execMark x1 x2 s) := by
  simp (maxDischargeDepth := 30) +contextual only [execMark, *, good_upd, good_ite, implies_true, and_self, swf_sset,
      onUnit_good, warpSlot_good]

@[simp] theorem execSco_good {x1} {x2} {x3} {x4} {x5} {x6} (h : Good W s) :
    nextAll (Good W) (execSco x1 x2 x3 x4 x5 x6 s) := by
  simp (maxDischargeDepth := 30) +contextual only [execSco, *, good_ite, implies_true, and_self, good_foldl,
      onUnit_good, warpSlot_good, later_good]

@[simp] theorem forwardBurst_good {x1} {x2} (h : Good W s) :
    Good W (forwardBurst s x1 x2) := by
  simp (maxDischargeDepth := 30) +contextual only [forwardBurst, *, good_ite, implies_true, and_self, good_foldl,
      raise_good, dropped_good, followEntry_good]

@[simp] theorem execWarpFlitArrival_good {x1} {x2} (h : Good W s) :
    nextAll (Good W) (execWarpFlitArrival x1 x2 s) := by
  unfold execWarpFlitArrival
  refine onUnit_good h fun s h => ?_
  (try dsimp only)
  (repeat' split) <;> simp (maxDischargeDepth := 30) +contextual only [*, good_upd, implies_true, countUpF_good,
      raise_good, forwardBurst_good]

@[simp] theorem execBurstArrival_good {x1} {x2} (h : Good W s) (hts : ∀ x, W.ts x := by assumption) :
    nextAll (Good W) (execBurstArrival x1 x2 s) := by
  unfold execBurstArrival
  refine onUnit_good h fun s h => ?_
  dsimp only
  (repeat' split) <;> simp (maxDischargeDepth := 30) +contextual only [*, good_upd, imp_self, implies_true, steer_good]

@[simp] theorem execTokenExpired_good {x1} {x2} {x3} (h : Good W s) (hts : ∀ x, W.ts x := by assumption) :
    nextAll (Good W) (execTokenExpired x1 x2 x3 s) := by
  unfold execTokenExpired
  refine onUnit_good h fun s h => ?_
  (repeat' split) <;> simp (maxDischargeDepth := 30) +contextual only [*, expireToken_good]

@[simp] theorem execFaultRingRelease_good {x1} {x2} (h : Good W s) :
    nextAll (Good W) (execFaultRingRelease x1 x2 s) := by
  simp (maxDischargeDepth := 30) +contextual only [execFaultRingRelease, *, good_upd, implies_true, onUnit_good,
      onBlock_good]

@[simp] theorem execWtSlackClr_good {x1} (h : Good W s) :
    nextAll (Good W) (execWtSlackClr x1 s) := by
  simp (maxDischargeDepth := 30) +contextual only [execWtSlackClr, *, good_ite, implies_true, and_self, onUnit_good,
      onBlock_good, clearSlack_good]

end Sys2Proof.Machine
end

