-- ==== Sys2Proof/Laws/GoodImageCheck.lean ====
section
/-! SUPPORT. The operations of Machine/ImageCheck.lean keep the queue, the fuses and the canonical form of every store. -/

namespace Sys2Proof.Machine

variable {W : Watch} {s : State}

@[simp] theorem scratch_good {x1} (h : Good W s) (hts : ∀ x, W.ts x := by assumption)
    (himage : ∀ x, W.image x := by assumption) (hpick : ∀ x, W.pick x := by assumption) :
    Good W (scratch x1 s) := by
  simp (maxDischargeDepth := 30) +contextual only [scratch, *, good_upd, imp_self, implies_true, restoreRecords_good,
      writeImage_good]

end Sys2Proof.Machine
end

