-- ==== Sys2Proof/Laws/GoodLoadCore.lean ====
section
/-! SUPPORT. The operations of Machine/LoadCore.lean keep the queue, the fuses and the canonical form of every store. -/

namespace Sys2Proof.Machine

variable {W : Watch} {s : State}

@[simp] theorem withLd_good {x1} (h : Good W s) :
    Good W (withLd s x1) := by
  simp (maxDischargeDepth := 30) +contextual only [withLd, *, good_upd, implies_true]

@[simp] theorem setLoadJob_good {x1} (h : Good W s) :
    Good W (setLoadJob s x1) := by
  simp (maxDischargeDepth := 30) +contextual only [setLoadJob, *, withLd_good, setRegBit_good]

@[simp] theorem loadFails_good {x1} (h : Good W s) :
    Good W (loadFails s x1) := by
  simp (maxDischargeDepth := 30) +contextual only [loadFails, *, raise_good, setF_good, setRegN_good]

@[simp] theorem readLines_good {x1} {x2} {x3} (h : Good W s) (hmem : ∀ x, W.mem x := by assumption) :
    Good W (readLines s x1 x2 x3).1 := by
  simp (maxDischargeDepth := 30) +contextual only [readLines, *, implies_true, good_foldl_fst, readLine_good]

@[simp] theorem readSource_good {x1} {x2} {x3} {x4} (h : Good W s) (hmem : ∀ x, W.mem x := by assumption) :
    Good W (readSource s x1 x2 x3 x4).1 := by
  unfold readSource
  (repeat' split) <;> simp (maxDischargeDepth := 30) +contextual only [*, implies_true, readLines_good]

@[simp] theorem loadFirst_good {x1} {x2} {x3} {x4} {x5} (h : Good W s) (hmem : ∀ x, W.mem x := by assumption)
    (himage : ∀ x, W.image x := by assumption) :
    Good W (loadFirst s x1 x2 x3 x4 x5).1 := by
  unfold loadFirst
  dsimp only
  (repeat' split) <;> simp (maxDischargeDepth := 30) +contextual only [*, good_upd, imp_self, implies_true,
      loadFails_good, readSource_good, setLoadJob_good, setRegBit_good]

@[simp] theorem loadLost_good {x1} (h : Good W s) (himage : ∀ x, W.image x := by assumption) :
    Good W (loadLost s x1) := by
  simp (maxDischargeDepth := 30) +contextual only [loadLost, *, good_upd, imp_self, implies_true, loadFails_good,
      setLoadJob_good]

@[simp] theorem writeUpTo_good {x1} {x2} (h : Good W s) (hts : ∀ x, W.ts x := by assumption)
    (hpick : ∀ x, W.pick x := by assumption) :
    Good W (writeUpTo x1 x2 s) := by
  simp (maxDischargeDepth := 30) +contextual only [writeUpTo, *, implies_true, good_foldl, writeSect_good]

@[simp] theorem loadSecond_good {x1} {x2} (h : Good W s) (hmem : ∀ x, W.mem x := by assumption)
    (hts : ∀ x, W.ts x := by assumption) (himage : ∀ x, W.image x := by assumption)
    (hpick : ∀ x, W.pick x := by assumption) :
    Good W (loadSecond s x1 x2).1 := by
  unfold loadSecond
  dsimp only
  (repeat' split) <;> simp (maxDischargeDepth := 30) +contextual only [*, good_upd, imp_self, implies_true,
      readSource_good, loadLost_good, writeUpTo_good, writeImage_good, publishImage_good, setLoadJob_good]

end Sys2Proof.Machine
end

