-- ==== Sys2Proof/Laws/GoodPeerLink.lean ====
section
/-! SUPPORT. The operations of Machine/PeerLink.lean keep the queue, the fuses and the canonical form of every store. -/

namespace Sys2Proof.Machine

variable {W : Watch} {s : State}

@[simp] theorem showOutst_good {x1} (h : Good W s) :
    Good W (showOutst s x1) := by
  simp (maxDischargeDepth := 30) +contextual only [showOutst, *, setF_good]

@[simp] theorem portDiscard_good {x1} (h : Good W s) :
    Good W (portDiscard s x1) := by
  simp (maxDischargeDepth := 30) +contextual only [portDiscard, *, good_upd, implies_true, good_foldl, setPort_good,
      setF_good, setReg_good, eyeLost_good, unitDone_good]

@[simp] theorem portDown_good {x1} {x2} (h : Good W s) :
    Good W (portDown s x1 x2) := by
  simp (maxDischargeDepth := 30) +contextual only [portDown, *, portDiscard_good, setPortState_good, raise_good]

@[simp] theorem execPortTrain_good {x1} {x2} (h : Good W s) :
    nextAll (Good W) (execPortTrain x1 x2 s) := by
  simp (maxDischargeDepth := 30) +contextual only [execPortTrain, *, good_ite, implies_true, and_self, onUnit_good,
      onBlock_good, setPortState_good, setReg_good]

@[simp] theorem execPortOff_good {x1} {x2} (h : Good W s) :
    nextAll (Good W) (execPortOff x1 x2 s) := by
  simp (maxDischargeDepth := 30) +contextual only [execPortOff, *, good_ite, implies_true, and_self, onUnit_good,
      onBlock_good, portDiscard_good, setPortState_good, setRegBit_good]

@[simp] theorem execPortUp_good {x1} {x2} {x3} (h : Good W s) :
    nextAll (Good W) (execPortUp x1 x2 x3 s) := by
  unfold execPortUp
  refine onUnit_good h fun s h => ?_
  (try dsimp only)
  (repeat' split) <;> simp (maxDischargeDepth := 30) +contextual only [*, setPort_good, setPortState_good, setRegN_good]

@[simp] theorem execPortTrainFail_good {x1} (h : Good W s) :
    nextAll (Good W) (execPortTrainFail x1 s) := by
  simp (maxDischargeDepth := 30) +contextual only [execPortTrainFail, *, good_ite, implies_true, and_self, onUnit_good,
      portDown_good]

@[simp] theorem execPortRetrain_good {x1} (h : Good W s) :
    nextAll (Good W) (execPortRetrain x1 s) := by
  simp (maxDischargeDepth := 30) +contextual only [execPortRetrain, *, good_ite, implies_true, and_self, onUnit_good,
      setPortState_good]

@[simp] theorem execPortDown_good {x1} (h : Good W s) :
    nextAll (Good W) (execPortDown x1 s) := by
  simp (maxDischargeDepth := 30) +contextual only [execPortDown, *, good_ite, implies_true, and_self, onUnit_good,
      portDown_good]

@[simp] theorem sendSlot_good {x1} {x2} (h : Good W s) :
    Good W (sendSlot s x1 x2) := by
  simp (maxDischargeDepth := 30) +contextual only [sendSlot, *, setPort_good]

@[simp] theorem sendReplay_good {x1} {x2} (h : Good W s) :
    Good W (sendReplay s x1 x2) := by
  simp (maxDischargeDepth := 30) +contextual only [sendReplay, *, sendSlot_good, setPort_good]

@[simp] theorem sendData_good {x1} {x2} {x3} (h : Good W s) :
    Good W (sendData s x1 x2 x3) := by
  simp (maxDischargeDepth := 30) +contextual only [sendData, *, showOutst_good, sendSlot_good, setPort_good]

@[simp] theorem execPortSlotTransmit_good {x1} {x2} (h : Good W s) :
    nextAll (Good W) (execPortSlotTransmit x1 x2 s) := by
  unfold execPortSlotTransmit
  refine onUnit_good h fun s h => ?_
  dsimp only
  (repeat' split) <;> simp (maxDischargeDepth := 30) +contextual only [*, sendSlot_good, sendReplay_good, sendData_good]

@[simp] theorem startReplay_good {x1} {x2} (h : Good W s) :
    Good W (startReplay s x1 x2) := by
  simp (maxDischargeDepth := 30) +contextual only [startReplay, *, good_ite, implies_true, and_self, portDown_good,
      countUp_good, setPort_good]

@[simp] theorem takeAck_good {x1} {x2} (h : Good W s) :
    Good W (takeAck s x1 x2) := by
  simp (maxDischargeDepth := 30) +contextual only [takeAck, *, good_ite, implies_true, and_self, showOutst_good,
      setPort_good]

@[simp] theorem takeNak_good {x1} {x2} (h : Good W s) :
    Good W (takeNak s x1 x2) := by
  unfold takeNak
  dsimp only
  (repeat' split) <;> simp (maxDischargeDepth := 30) +contextual only [*, startReplay_good]

@[simp] theorem takeFreed_good {x1} {x2} (h : Good W s) :
    Good W (takeFreed s x1 x2) := by
  simp (maxDischargeDepth := 30) +contextual only [takeFreed, *, good_ite, implies_true, and_self, portDown_good,
      setPort_good]

@[simp] theorem execReplayTimeout_good {x1} (h : Good W s) :
    nextAll (Good W) (execReplayTimeout x1 s) := by
  simp (maxDischargeDepth := 30) +contextual only [execReplayTimeout, *, good_ite, implies_true, and_self, onUnit_good,
      startReplay_good]

@[simp] theorem freeBuffer_good {x1} {x2} (h : Good W s) :
    Good W (freeBuffer s x1 x2) := by
  simp (maxDischargeDepth := 30) +contextual only [freeBuffer, *, setPort_good]

@[simp] theorem takeBody_good {x1} {x2} {x3} {x4} {x5} (h : Good W s) :
    Good W (takeBody s x1 x2 x3 x4 x5) := by
  simp (maxDischargeDepth := 30) +contextual only [takeBody, *, good_ite, implies_true, and_self, raise_good,
      freeBuffer_good, setPort_good]

@[simp] theorem rejectBolt_good {x1} (h : Good W s) :
    Good W (rejectBolt s x1) := by
  simp (maxDischargeDepth := 30) +contextual only [rejectBolt, *, good_ite, implies_true, and_self, countUp_good,
      raise_good, setPort_good]

@[simp] theorem takeData_good {x1} {x2} {x3} {x4} {x5} {x6} (h : Good W s) :
    Good W (takeData s x1 x2 x3 x4 x5 x6) := by
  simp (maxDischargeDepth := 30) +contextual only [takeData, *, good_ite, implies_true, and_self, takeBody_good,
      setPort_good, rejectBolt_good]

@[simp] theorem goodBolt_good {x1} {x2} {x3} (h : Good W s) :
    Good W (goodBolt s x1 x2 x3) := by
  simp (maxDischargeDepth := 30) +contextual only [goodBolt, *, good_ite, implies_true, and_self, takeAck_good,
      takeFreed_good, takeNak_good, takeData_good]

@[simp] theorem noteHeader_good {x1} {x2} {x3} (h : Good W s) :
    Good W (noteHeader s x1 x2 x3) := by
  simp (maxDischargeDepth := 30) +contextual only [noteHeader, *, good_ite, implies_true, and_self, setPort_good,
      setRegBit_good]

@[simp] theorem trainBolt_good {x1} {x2} {x3} (h : Good W s) :
    Good W (trainBolt s x1 x2 x3) := by
  unfold trainBolt
  extract_lets x named y t1
  have g1 : Good W t1 := by simp (maxDischargeDepth := 30) +contextual only [t1, *, setPort_good]
  clear_value t1
  (repeat' split) <;> simp (maxDischargeDepth := 30) +contextual only [*, portDown_good]

@[simp] theorem execPeerBolt_good {x1} {x2} {x3} {x4} (h : Good W s) :
    nextAll (Good W) (execPeerBolt x1 x2 x3 x4 s) := by
  unfold execPeerBolt
  refine onUnit_good h fun s h => ?_
  (try dsimp only)
  (repeat' split) <;> simp (maxDischargeDepth := 30) +contextual only [*, setPort_good, noteHeader_good,
      trainBolt_good, portDown_good, goodBolt_good, rejectBolt_good]

theorem nextMsg_good {p v ty} (h : Good W s) : ∀ r, nextMsg s p v ty = some r → Good W r.2 := by
  intro r hr
  unfold nextMsg at hr
  dsimp only at hr
  split at hr
  · split at hr
    · cases hr
      dsimp only
      split <;> simp [*]
    · cases hr
  · cases hr

end Sys2Proof.Machine
end

