-- ==== Sys2Proof/Laws/GoodReset.lean ====
section
/-! SUPPORT. The operations of Machine/Reset.lean keep the queue, the fuses and the canonical form of every store. -/

namespace Sys2Proof.Machine

variable {W : Watch} {s : State}

@[simp] theorem keepRegs_good {x1} (h : Good W s) (h2 : Good W s2) :
    Good W (keepRegs x1 s s2) := by
  simp (maxDischargeDepth := 30) +contextual only [keepRegs, *, implies_true, good_foldl, setReg_good]

@[simp] theorem fuseRegs_good (h : Good W s) :
    Good W (fuseRegs s) := by
  simp (maxDischargeDepth := 30) +contextual only [fuseRegs, *, implies_true, good_foldl, setF_good, setRegN_good]

@[simp] theorem blankState_good (h : Good W s) (hmem : ∀ x, W.mem x := by assumption)
    (hts : ∀ x, W.ts x := by assumption) (himage : ∀ x, W.image x := by assumption)
    (hsreg : ∀ x, W.sreg x := by assumption) (hpreg : ∀ x, W.preg x := by assumption)
    (hvreg : ∀ x, W.vreg x := by assumption) (hxa : ∀ x, W.xa x := by assumption)
    (hpick : ∀ x, W.pick x := by assumption) : Good W (blankState s) := by
  unfold blankState
  apply good_upd h <;> simp +contextual [*]

@[simp] theorem coldReset_good {x1} (h : Good W s) (hmem : ∀ x, W.mem x := by assumption)
    (hts : ∀ x, W.ts x := by assumption) (himage : ∀ x, W.image x := by assumption)
    (hsreg : ∀ x, W.sreg x := by assumption) (hpreg : ∀ x, W.preg x := by assumption)
    (hvreg : ∀ x, W.vreg x := by assumption) (hxa : ∀ x, W.xa x := by assumption)
    (hpick : ∀ x, W.pick x := by assumption) :
    Good W (coldReset x1 s) := by
  simp (maxDischargeDepth := 30) +contextual only [coldReset, *, good_upd, imp_self, implies_true, blankState_good,
      keepRegs_good, fuseRegs_good]

@[simp] theorem warmReset_good (h : Good W s) (hmem : ∀ x, W.mem x := by assumption)
    (hts : ∀ x, W.ts x := by assumption) (himage : ∀ x, W.image x := by assumption)
    (hsreg : ∀ x, W.sreg x := by assumption) (hpreg : ∀ x, W.preg x := by assumption)
    (hvreg : ∀ x, W.vreg x := by assumption) (hxa : ∀ x, W.xa x := by assumption)
    (hpick : ∀ x, W.pick x := by assumption) : Good W (warmReset s) := by
  have hb := fuseRegs_good (blankState_good h)
  unfold warmReset
  dsimp only
  generalize fuseRegs (blankState s) = b at hb ⊢
  refine keepRegs_good h ?_
  have h4 : W.canon → wfBb s.bb := fun k => (h.2.1 k).2.2.2.1
  apply good_upd hb <;>
    try first | exact id | exact fun _ k => k | (intros; solve_by_elim)
  · intro k _; split
    · rfl
    · exact (h4 k).1
  · intro k _; split
    · rfl
    · exact (h4 k).2.1
  · intro k _; split <;> rfl
  · intro k _; split <;> rfl
  · intro k _; split
    · rfl
    · exact (h4 k).2.2.2.2

@[simp] theorem aonReset_good (h : Good W s) (hmem : ∀ x, W.mem x := by assumption)
    (hts : ∀ x, W.ts x := by assumption) (himage : ∀ x, W.image x := by assumption)
    (hsreg : ∀ x, W.sreg x := by assumption) (hpreg : ∀ x, W.preg x := by assumption)
    (hvreg : ∀ x, W.vreg x := by assumption) (hxa : ∀ x, W.xa x := by assumption)
    (hpick : ∀ x, W.pick x := by assumption) :
    Good W (aonReset s) := by
  simp (maxDischargeDepth := 30) +contextual only [aonReset, *, good_upd, imp_self, implies_true, coldReset_good]

@[simp] theorem execPowerUp_good (h : Good W s) (hmem : ∀ x, W.mem x := by assumption)
    (hts : ∀ x, W.ts x := by assumption) (himage : ∀ x, W.image x := by assumption)
    (hsreg : ∀ x, W.sreg x := by assumption) (hpreg : ∀ x, W.preg x := by assumption)
    (hvreg : ∀ x, W.vreg x := by assumption) (hxa : ∀ x, W.xa x := by assumption)
    (hpick : ∀ x, W.pick x := by assumption) :
    nextAll (Good W) (execPowerUp s) := by
  simp (maxDischargeDepth := 30) +contextual only [execPowerUp, *, good_upd, good_ite, imp_self, implies_true,
      and_self, nextAll_next, aonReset_good]

@[simp] theorem execSysRstNAssert_good {x1} (h : Good W s) (hmem : ∀ x, W.mem x := by assumption)
    (hts : ∀ x, W.ts x := by assumption) (himage : ∀ x, W.image x := by assumption)
    (hsreg : ∀ x, W.sreg x := by assumption) (hpreg : ∀ x, W.preg x := by assumption)
    (hvreg : ∀ x, W.vreg x := by assumption) (hxa : ∀ x, W.xa x := by assumption)
    (hpick : ∀ x, W.pick x := by assumption) :
    nextAll (Good W) (execSysRstNAssert x1 s) := by
  simp (maxDischargeDepth := 30) +contextual only [execSysRstNAssert, *, good_upd, good_ite, imp_self, implies_true,
      and_self, nextAll_next, coldReset_good]

@[simp] theorem execRailUndervoltage_good {x1} (h : Good W s) (hmem : ∀ x, W.mem x := by assumption)
    (hts : ∀ x, W.ts x := by assumption) (himage : ∀ x, W.image x := by assumption)
    (hsreg : ∀ x, W.sreg x := by assumption) (hpreg : ∀ x, W.preg x := by assumption)
    (hvreg : ∀ x, W.vreg x := by assumption) (hxa : ∀ x, W.xa x := by assumption)
    (hpick : ∀ x, W.pick x := by assumption) :
    nextAll (Good W) (execRailUndervoltage x1 s) := by
  simp (maxDischargeDepth := 30) +contextual only [execRailUndervoltage, *, good_upd, good_ite, imp_self, implies_true,
      and_self, nextAll_next, coldReset_good]

@[simp] theorem execAonUndervoltage_good (h : Good W s) (hmem : ∀ x, W.mem x := by assumption)
    (hts : ∀ x, W.ts x := by assumption) (himage : ∀ x, W.image x := by assumption)
    (hsreg : ∀ x, W.sreg x := by assumption) (hpreg : ∀ x, W.preg x := by assumption)
    (hvreg : ∀ x, W.vreg x := by assumption) (hxa : ∀ x, W.xa x := by assumption)
    (hpick : ∀ x, W.pick x := by assumption) :
    nextAll (Good W) (execAonUndervoltage s) := by
  simp (maxDischargeDepth := 30) +contextual only [execAonUndervoltage, *, good_ite, implies_true, and_self,
      nextAll_next, aonReset_good]

@[simp] theorem execPowerLoss_good (h : Good W s) (hmem : ∀ x, W.mem x := by assumption)
    (hts : ∀ x, W.ts x := by assumption) (himage : ∀ x, W.image x := by assumption)
    (hsreg : ∀ x, W.sreg x := by assumption) (hpreg : ∀ x, W.preg x := by assumption)
    (hvreg : ∀ x, W.vreg x := by assumption) (hxa : ∀ x, W.xa x := by assumption)
    (hpick : ∀ x, W.pick x := by assumption) :
    nextAll (Good W) (execPowerLoss s) := by
  simp (maxDischargeDepth := 30) +contextual only [execPowerLoss, *, good_upd, imp_self, implies_true, nextAll_next,
      aonReset_good]

end Sys2Proof.Machine
end

