-- ==== Sys2Proof/Laws/GoodBoot.lean ====
section
/-! SUPPORT. The operations of Machine/Boot.lean keep the queue, the fuses and the canonical form of every store. -/

namespace Sys2Proof.Machine

variable {W : Watch} {s : State}

@[simp] theorem withRec_good {x1} (h : Good W s) :
    Good W (withRec s x1) := by
  simp (maxDischargeDepth := 30) +contextual only [withRec, *, implies_true, withKp_good]

@[simp] theorem noteInfo_good (h : Good W s) :
    Good W (noteInfo s) := by
  simp (maxDischargeDepth := 30) +contextual only [noteInfo, *, setRegN_good]

@[simp] theorem setBootState_good {x1} (h : Good W s) :
    Good W (setBootState s x1) := by
  simp (maxDischargeDepth := 30) +contextual only [setBootState, *, setF_good]

@[simp] theorem putStep_good {x1} {x2} (h : Good W s) :
    Good W (putStep s x1 x2) := by
  simp (maxDischargeDepth := 30) +contextual only [putStep, *, setReg64_good, withRec_good]

@[simp] theorem endStep_good {x1} {x2} {x3} {x4} {x5} (h : Good W s) :
    Good W (endStep s x1 x2 x3 x4 x5) := by
  simp (maxDischargeDepth := 30) +contextual only [endStep, *, putStep_good]

@[simp] theorem passStep_good {x1} {x2} (h : Good W s) :
    Good W (passStep s x1 x2) := by
  simp (maxDischargeDepth := 30) +contextual only [passStep, *, endStep_good]

@[simp] theorem haltStep_good {x1} {x2} {x3} (h : Good W s) :
    Good W (haltStep s x1 x2 x3) := by
  simp (maxDischargeDepth := 30) +contextual only [haltStep, *, setBootState_good, withRec_good, endStep_good]

@[simp] theorem release_good {x1} (h : Good W s) :
    Good W (release s x1) := by
  simp (maxDischargeDepth := 30) +contextual only [release, *, implies_true, good_foldl, setRegBit_good]

@[simp] theorem bootS0_good {x1} {x2} (h : Good W s) :
    Good W (bootS0 x1 x2 s) := by
  simp (maxDischargeDepth := 30) +contextual only [bootS0, *, good_ite, implies_true, and_self, noteInfo_good,
      withRec_good, haltStep_good, raise_good, passStep_good, setBootState_good]

@[simp] theorem fwFails_good {x1} (h : Good W s) :
    Good W (fwFails s x1) := by
  simp (maxDischargeDepth := 30) +contextual only [fwFails, *, good_ite, implies_true, and_self, raise_good]

@[simp] theorem withFlash_good {x1} (h : Good W s) (hflash : ∀ x, W.flash x := by assumption) :
    Good W (withFlash s x1) := by
  simp (maxDischargeDepth := 30) +contextual only [withFlash, *, imp_self, implies_true, withKp_good]

@[simp] theorem markBad_good {x1} (h : Good W s) (hflash : ∀ x, W.flash x := by assumption) :
    Good W (markBad s x1) := by
  simp (maxDischargeDepth := 30) +contextual only [markBad, *, good_ite, implies_true, and_self, withFlash_good]

@[simp] theorem startFirmware_good {x1} (h : Good W s) :
    Good W (startFirmware s x1) := by
  simp (maxDischargeDepth := 30) +contextual only [startFirmware, *, implies_true, withKp_good, noteInfo_good, withRec_good]

@[simp] theorem trySlots_good {ks} (h : Good W s)
    (hflash : ∀ x, W.flash x := by assumption) : Good W (trySlots ks s).1 := by
  induction ks generalizing s with
  | nil => exact h
  | cons k ks ih =>
    unfold trySlots
    split
    · exact startFirmware_good h
    · exact ih (markBad_good (fwFails_good h))

@[simp] theorem bootS1_good {x1} {x2} (h : Good W s) (hflash : ∀ x, W.flash x := by assumption) :
    Good W (bootS1 x1 x2 s) := by
  unfold bootS1
  dsimp only
  (repeat' split) <;> simp (maxDischargeDepth := 30) +contextual only [*, implies_true, markBad_good, trySlots_good,
      haltStep_good, endStep_good, raise_good]

@[simp] theorem bootS2_good {x1} {x2} (h : Good W s) :
    Good W (bootS2 x1 x2 s) := by
  simp (maxDischargeDepth := 30) +contextual only [bootS2, *, good_ite, implies_true, and_self, haltStep_good,
      passStep_good]

@[simp] theorem degrade_good (h : Good W s) :
    Good W (degrade s) := by
  simp (maxDischargeDepth := 30) +contextual only [degrade, *, withRec_good]

@[simp] theorem bootS3_good {x1} {x2} (h : Good W s) :
    Good W (bootS3 x1 x2 s) := by
  simp (maxDischargeDepth := 30) +contextual only [bootS3, *, good_ite, implies_true, and_self, good_foldl, raise_good,
      withRec_good, degrade_good, endStep_good, release_good, setRegBit_good]

@[simp] theorem bootS4_good {x1} {x2} (h : Good W s) (hflash : ∀ x, W.flash x := by assumption) :
    Good W (bootS4 x1 x2 s) := by
  simp (maxDischargeDepth := 30) +contextual only [bootS4, *, good_ite, implies_true, and_self, setRegBit_good,
      endStep_good, passStep_good, writeRecord_good, release_good]

@[simp] theorem putChan_good {x1} {x2} (h : Good W s) :
    Good W (putChan s x1 x2) := by
  simp (maxDischargeDepth := 30) +contextual only [putChan, *, good_upd, implies_true, setF_good, setRegBit_good,
      implies_true, swf_sset]

@[simp] theorem sizeMemory_good (h : Good W s) :
    Good W (sizeMemory s) := by
  simp (maxDischargeDepth := 30) +contextual only [sizeMemory, *, good_upd, implies_true, setReg64_good]

@[simp] theorem infoValid_good (h : Good W s) :
    Good W (infoValid s) := by
  simp (maxDischargeDepth := 30) +contextual only [infoValid, *, msix_good, setRegBit_good]

@[simp] theorem chanCauses_good {x1} (h : Good W s) :
    Good W (chanCauses s x1) := by
  simp (maxDischargeDepth := 30) +contextual only [chanCauses, *, good_ite, implies_true, and_self, good_foldl, raise_good]

@[simp] theorem trainAll_good {x1} {x2} (h : Good W s) (hflash : ∀ x, W.flash x := by assumption) :
    Good W (trainAll x1 x2 s) := by
  simp (maxDischargeDepth := 30) +contextual only [trainAll, *, good_upd, imp_self, implies_true, good_foldl,
      withFlash_good, withRec_good, putChan_good, chanCauses_good, endStep_good, setRegBit_good]

@[simp] theorem bootS5_good {x1} {x2} (h : Good W s) (hflash : ∀ x, W.flash x := by assumption) :
    Good W (bootS5 x1 x2 s) := by
  simp (maxDischargeDepth := 30) +contextual only [bootS5, *, good_ite, implies_true, and_self, good_foldl,
      putChan_good, trainAll_good, release_good, infoValid_good, sizeMemory_good]

@[simp] theorem memoryReady_good (h : Good W s) :
    Good W (memoryReady s) := by
  simp (maxDischargeDepth := 30) +contextual only [memoryReady, *, good_ite, implies_true, and_self, setRegBit_good,
      setReg64_good, msix_good, setRegN_good]

@[simp] theorem bootS6_good {x1} (h : Good W s) :
    Good W (bootS6 x1 s) := by
  simp (maxDischargeDepth := 30) +contextual only [bootS6, *, good_ite, implies_true, and_self, passStep_good,
      memoryReady_good, withKp_good]

@[simp] theorem bootS7_good {x1} {x2} (h : Good W s) :
    Good W (bootS7 x1 x2 s) := by
  simp (maxDischargeDepth := 30) +contextual only [bootS7, *, good_upd, implies_true, withRec_good, endStep_good,
      release_good]

@[simp] theorem bootS8_good {x1} {x2} (h : Good W s) :
    Good W (bootS8 x1 x2 s) := by
  simp (maxDischargeDepth := 30) +contextual only [bootS8, *, implies_true, good_foldl, setPortState_good,
      setRegBit_good, portDown_good, withRec_good, endStep_good, release_good]

@[simp] theorem skipS9_good {x1} {x2} {x3} (h : Good W s) :
    Good W (skipS9 s x1 x2 x3) := by
  simp (maxDischargeDepth := 30) +contextual only [skipS9, *, good_ite, implies_true, and_self, raise_good, putStep_good]

@[simp] theorem bootS9_good {x1} {x2} (h : Good W s) :
    Good W (bootS9 x1 x2 s) := by
  simp (maxDischargeDepth := 30) +contextual only [bootS9, *, good_ite, implies_true, and_self, good_foldl,
      skipS9_good, setReg_good, setRegN_good, passStep_good]

@[simp] theorem bootS10_good {e l} (h : Good W s) : Good W (bootS10 e l s) := by
  unfold bootS10
  extract_lets bad s1 s2 s3 o
  have g1 : Good W s1 := good_foldl h fun s i h => by simp [h]
  clear_value s1
  have g2 : Good W s2 := by simp only [s2, good_ite, degrade_good, g1, implies_true, and_self]
  clear_value s2
  have g3 : Good W s3 := good_foldl g2 fun s i h => by split <;> simp [h]
  clear_value s3
  simp [g3]

@[simp] theorem applyOwner_good {x1} (h : Good W s) :
    Good W (applyOwner s x1) := by
  unfold applyOwner
  split <;> simp (maxDischargeDepth := 30) +contextual only [*, implies_true, withKp_good]

@[simp] theorem bootS11_good {x1} {x2} (h : Good W s) :
    Good W (bootS11 x1 x2 s) := by
  simp (maxDischargeDepth := 30) +contextual only [bootS11, *, good_ite, implies_true, and_self, raise_good,
      endStep_good, applyOwner_good, passStep_good]

@[simp] theorem bootS12_good {x1} {x2} (h : Good W s) (hmem : ∀ x, W.mem x := by assumption)
    (hts : ∀ x, W.ts x := by assumption) (himage : ∀ x, W.image x := by assumption)
    (hpick : ∀ x, W.pick x := by assumption) :
    Good W (bootS12 x1 x2 s) := by
  unfold bootS12
  dsimp only
  (repeat' split) <;> simp (maxDischargeDepth := 30) +contextual only [*, implies_true, endStep_good, raise_good,
      loadFirst_good, loadSecond_good, passStep_good]

@[simp] theorem bootS13_good {x1} {x2} (h : Good W s) :
    Good W (bootS13 x1 x2 s) := by
  simp (maxDischargeDepth := 30) +contextual only [bootS13, *, good_ite, implies_true, and_self, haltStep_good,
      passStep_good]

@[simp] theorem bootS14_good {x1} {x2} (h : Good W s) :
    Good W (bootS14 x1 x2 s) := by
  simp (maxDischargeDepth := 30) +contextual only [bootS14, *, endStep_good, release_good]

@[simp] theorem finishBoot_good {x1} (h : Good W s) (hflash : ∀ x, W.flash x := by assumption) :
    Good W (finishBoot x1 s) := by
  simp (maxDischargeDepth := 30) +contextual only [finishBoot, *, good_ite, imp_self, implies_true, and_self,
      withRec_good, putStep_good, setF_good, setBootState_good, kpEvent_good, writeRecord_good, withKp_good]

@[simp] theorem bootS15_good {x1} (h : Good W s) (hflash : ∀ x, W.flash x := by assumption) :
    Good W (bootS15 x1 s) := by
  simp (maxDischargeDepth := 30) +contextual only [bootS15, *, good_ite, imp_self, implies_true, and_self, withKp_good,
      finishBoot_good]

@[simp] theorem bootStep_good {x1} {x2} {x3} (h : Good W s) (hmem : ∀ x, W.mem x := by assumption)
    (hts : ∀ x, W.ts x := by assumption) (hflash : ∀ x, W.flash x := by assumption)
    (himage : ∀ x, W.image x := by assumption) (hpick : ∀ x, W.pick x := by assumption) :
    Good W (bootStep x1 x2 x3 s) := by
  unfold bootStep
  split <;> simp (maxDischargeDepth := 30) +contextual only [*, implies_true, bootS0_good, bootS1_good, bootS2_good,
      bootS3_good, bootS4_good, bootS5_good, bootS6_good, bootS7_good, bootS8_good, bootS9_good, bootS10_good,
      bootS11_good, bootS12_good, bootS13_good, bootS14_good, bootS15_good]

@[simp] theorem runStep_good {x1} {x2} (h : Good W s) (hmem : ∀ x, W.mem x := by assumption)
    (hts : ∀ x, W.ts x := by assumption) (hflash : ∀ x, W.flash x := by assumption)
    (himage : ∀ x, W.image x := by assumption) (hpick : ∀ x, W.pick x := by assumption) :
    Good W (runStep x1 s x2) := by
  simp (maxDischargeDepth := 30) +contextual only [runStep, *, good_ite, imp_self, implies_true, and_self, setF_good,
      withKp_good, bootStep_good]

@[simp] theorem bootFrom_good {x1} {x2} (h : Good W s) (hmem : ∀ x, W.mem x := by assumption)
    (hts : ∀ x, W.ts x := by assumption) (hflash : ∀ x, W.flash x := by assumption)
    (himage : ∀ x, W.image x := by assumption) (hpick : ∀ x, W.pick x := by assumption) :
    Good W (bootFrom x1 x2 s) := by
  simp (maxDischargeDepth := 30) +contextual only [bootFrom, *, implies_true, good_foldl, runStep_good]

@[simp] theorem bootStart_good {x1} {x2} (h : Good W s) (hmem : ∀ x, W.mem x := by assumption)
    (hts : ∀ x, W.ts x := by assumption) (hflash : ∀ x, W.flash x := by assumption)
    (himage : ∀ x, W.image x := by assumption) (hpick : ∀ x, W.pick x := by assumption) :
    Good W (bootStart x1 x2 s) := by
  simp (maxDischargeDepth := 30) +contextual only [bootStart, *, imp_self, implies_true, withKp_good, bootFrom_good,
      noteInfo_good]

@[simp] theorem warmStart_good {x1} {x2} (h : Good W s) (hmem : ∀ x, W.mem x := by assumption)
    (hts : ∀ x, W.ts x := by assumption) (hflash : ∀ x, W.flash x := by assumption)
    (himage : ∀ x, W.image x := by assumption) (hsreg : ∀ x, W.sreg x := by assumption)
    (hpreg : ∀ x, W.preg x := by assumption) (hvreg : ∀ x, W.vreg x := by assumption)
    (hxa : ∀ x, W.xa x := by assumption) (hpick : ∀ x, W.pick x := by assumption) :
    Good W (warmStart x1 x2 s) := by
  simp (maxDischargeDepth := 30) +contextual only [warmStart, *, implies_true, bootStart_good, warmReset_good]

@[simp] theorem execSysRstNRelease_good {x1} (h : Good W s) (hmem : ∀ x, W.mem x := by assumption)
    (hts : ∀ x, W.ts x := by assumption) (hflash : ∀ x, W.flash x := by assumption)
    (himage : ∀ x, W.image x := by assumption) (hpick : ∀ x, W.pick x := by assumption) :
    nextAll (Good W) (execSysRstNRelease x1 s) := by
  simp (maxDischargeDepth := 30) +contextual only [execSysRstNRelease, *, good_upd, good_ite, imp_self, implies_true,
      and_self, nextAll_next, bootStart_good]

@[simp] theorem execRailBackInDcBand_good {x1} (h : Good W s) (hmem : ∀ x, W.mem x := by assumption)
    (hts : ∀ x, W.ts x := by assumption) (hflash : ∀ x, W.flash x := by assumption)
    (himage : ∀ x, W.image x := by assumption) (hpick : ∀ x, W.pick x := by assumption) :
    nextAll (Good W) (execRailBackInDcBand x1 s) := by
  simp (maxDischargeDepth := 30) +contextual only [execRailBackInDcBand, *, good_upd, good_ite, imp_self, implies_true,
      and_self, nextAll_next, bootStart_good]

@[simp] theorem dropChans_good {x1} (h : Good W s) :
    Good W (dropChans s x1) := by
  simp (maxDischargeDepth := 30) +contextual only [dropChans, *, good_ite, implies_true, and_self, good_foldl,
      raise_good, putChan_good, withRec_good, sizeMemory_good]

@[simp] theorem zeroingEnds_good {f l e} (h : Good W s) (hmem : ∀ x, W.mem x := by assumption)
    (hflash : ∀ x, W.flash x := by assumption) : Good W (zeroingEnds f l e s) := by
  unfold zeroingEnds
  extract_lets all bad b s1 s2 s3
  have h1 : Good W s1 := by
    refine dropChans_good ?_
    apply good_upd h <;> simp +contextual [b, *]
  clear_value s1
  have h2 : Good W s2 := endStep_good h1
  clear_value s2
  have h3 : Good W s3 := withKp_good (memoryReady_good h2) fun _ k => k
  clear_value s3
  split
  · exact finishBoot_good h3
  · exact h3

@[simp] theorem execMemoryActive_good {x1} {x2} (h : Good W s) (hmem : ∀ x, W.mem x := by assumption)
    (hflash : ∀ x, W.flash x := by assumption) :
    nextAll (Good W) (execMemoryActive x1 x2 s) := by
  simp (maxDischargeDepth := 30) +contextual only [execMemoryActive, *, good_ite, implies_true, and_self, nextAll_next,
      zeroingEnds_good]

@[simp] theorem execStepTimeout_good {x1} (h : Good W s) (hmem : ∀ x, W.mem x := by assumption)
    (hts : ∀ x, W.ts x := by assumption) (hflash : ∀ x, W.flash x := by assumption)
    (himage : ∀ x, W.image x := by assumption) (hpick : ∀ x, W.pick x := by assumption) :
    nextAll (Good W) (execStepTimeout x1 s) := by
  unfold execStepTimeout
  split <;> simp (maxDischargeDepth := 30) +contextual only [*, good_ite, imp_self, implies_true, and_self,
      nextAll_next, zeroingEnds_good, raise_good, withKp_good, bootFrom_good, bootStep_good]

@[simp] theorem execWatchdog_good {x1} (h : Good W s) (hmem : ∀ x, W.mem x := by assumption)
    (hts : ∀ x, W.ts x := by assumption) (hflash : ∀ x, W.flash x := by assumption)
    (himage : ∀ x, W.image x := by assumption) (hsreg : ∀ x, W.sreg x := by assumption)
    (hpreg : ∀ x, W.preg x := by assumption) (hvreg : ∀ x, W.vreg x := by assumption)
    (hxa : ∀ x, W.xa x := by assumption) (hpick : ∀ x, W.pick x := by assumption) :
    nextAll (Good W) (execWatchdog x1 s) := by
  simp (maxDischargeDepth := 30) +contextual only [execWatchdog, *, good_ite, implies_true, and_self, nextAll_next,
      warmStart_good, ledgerEvent_good, raise_good]

end Sys2Proof.Machine
end

