-- ==== Sys2Proof/Laws/GoodPmc.lean ====
section
/-! SUPPORT. The operations of Machine/Pmc.lean keep the queue, the fuses and the canonical form of every store. -/

namespace Sys2Proof.Machine

variable {W : Watch} {s : State}

@[simp] theorem setPackageCap_good {x1} {x2} (h : Good W s) :
    Good W (setPackageCap s x1 x2).1 := by
  unfold setPackageCap
  split <;> simp (maxDischargeDepth := 30) +contextual only [*, raise_good, updateCapEff_good, setF_good]

@[simp] theorem powerAlert_good {x1} (h : Good W s) :
    Good W (powerAlert s x1) := by
  simp (maxDischargeDepth := 30) +contextual only [powerAlert, *, good_upd, good_ite, implies_true, and_self,
      setRegBit_good, raise_good]

@[simp] theorem publishBudget_good {x1} {x2} {x3} (h : Good W s) :
    Good W (publishBudget s x1 x2 x3) := by
  simp (maxDischargeDepth := 30) +contextual only [publishBudget, *, setRegBit_good, setF_good]

@[simp] theorem countEnergy_good {x1} (h : Good W s) :
    Good W (countEnergy s x1) := by
  simp (maxDischargeDepth := 30) +contextual only [countEnergy, *, good_upd, implies_true, setReg64_good]

@[simp] theorem clearActs_good (h : Good W s) :
    Good W (clearActs s) := by
  simp (maxDischargeDepth := 30) +contextual only [clearActs, *, good_upd, implies_true]

@[simp] theorem noteEstimate_good {x1} {x2} (h : Good W s) :
    Good W (noteEstimate s x1 x2) := by
  simp (maxDischargeDepth := 30) +contextual only [noteEstimate, *, good_upd, implies_true]

@[simp] theorem showControl_good {x1} {x2} {x3} {x4} {x5} {x6} (h : Good W s) :
    Good W (showControl s x1 x2 x3 x4 x5 x6) := by
  simp (maxDischargeDepth := 30) +contextual only [showControl, *, good_upd, implies_true, setRegN_good, setF_good,
      countEnergy_good, publishBudget_good, powerAlert_good]

@[simp] theorem execPmcControlUpdate_good {x1} (h : Good W s) :
    nextAll (Good W) (execPmcControlUpdate x1 s) := by
  unfold execPmcControlUpdate
  rw [nextAll_next]
  extract_lets x s1 raw p s2 n eff hr allow g d4 dp d3 d2 rest r4 rp r3 r2 b3 p1 coreOf core on m s3
  have g3 : Good W s3 := showControl_good (noteEstimate_good (clearActs_good h))
  clear_value s3
  simp only [good_ite, g3, raiseOnce_good, countUp_good, implies_true, and_self]

@[simp] theorem execPmcMeasurement_good {x1} (h : Good W s) :
    nextAll (Good W) (execPmcMeasurement x1 s) := by
  simp (maxDischargeDepth := 30) +contextual only [execPmcMeasurement, *, good_upd, good_ite, implies_true, and_self,
      nextAll_next, setF_good, raise_good, setRegBit_good, setRegN_good]

@[simp] theorem pollRail_good {x1} {x2} (h : Good W s) :
    Good W (pollRail s x1 x2) := by
  unfold pollRail
  split <;> simp (maxDischargeDepth := 30) +contextual only [*, good_upd, good_ite, implies_true, and_self, raise_good]

@[simp] theorem execPmbusPoll_good {v} (h : Good W s) : nextAll (Good W) (execPmbusPoll v s) := by
  refine good_foldl h fun s r h => ?_
  split <;> simp [*]

@[simp] theorem requestOp_good {x1} (h : Good W s) :
    Good W (requestOp s x1) := by
  simp (maxDischargeDepth := 30) +contextual only [requestOp, *, setRegBit_good, setF_good]

@[simp] theorem execPmcOpStep_good {x1} (h : Good W s) :
    nextAll (Good W) (execPmcOpStep x1 s) := by
  simp (maxDischargeDepth := 30) +contextual only [execPmcOpStep, *, good_upd, good_ite, implies_true, and_self,
      nextAll_next, requestOp_good, applyOpStep_good]

@[simp] theorem readSensor_good {x1} {x2} (h : Good W s) :
    Good W (readSensor s x1 x2) := by
  simp (maxDischargeDepth := 30) +contextual only [readSensor, *, good_upd, good_ite, implies_true, and_self,
      setRegBit_good, setF_good, raise_good]

@[simp] theorem level_good {x1} {x2} {x3} {x4} {x5} (h : Good W s) :
    Good W (level s x1 x2 x3 x4 x5) := by
  simp (maxDischargeDepth := 30) +contextual only [level, *, good_ite, implies_true, and_self, setRegBit_good, raise_good]

@[simp] theorem thermLevels_good (h : Good W s) :
    Good W (thermLevels s) := by
  unfold thermLevels
  split <;> simp (maxDischargeDepth := 30) +contextual only [*, setF_good, level_good]

@[simp] theorem execTempSample_good {v} (h : Good W s) : nextAll (Good W) (execTempSample v s) := by
  refine thermLevels_good (good_foldl h fun s r h => ?_)
  (repeat' split) <;> simp [*]

@[simp] theorem execVrHot_good (h : Good W s) :
    nextAll (Good W) (execVrHot s) := by
  simp (maxDischargeDepth := 30) +contextual only [execVrHot, *, good_upd, good_ite, implies_true, and_self,
      nextAll_next, setRegBit_good, raise_good]

@[simp] theorem execVrHotNHigh_good (h : Good W s) :
    nextAll (Good W) (execVrHotNHigh s) := by
  simp (maxDischargeDepth := 30) +contextual only [execVrHotNHigh, *, good_upd, implies_true, nextAll_next, setRegBit_good]

@[simp] theorem execThermalTrip_good {x1} (h : Good W s) (hflash : ∀ x, W.flash x := by assumption) :
    nextAll (Good W) (execThermalTrip x1 s) := by
  simp (maxDischargeDepth := 30) +contextual only [execThermalTrip, *, good_upd, good_ite, imp_self, implies_true,
      and_self, onUnit_good, ledgerEvent_good, raise_good, abortRun_good, provRunEnd_good, lockEnds_good,
      setRegBit_good]

end Sys2Proof.Machine
end

