-- ==== Sys2Proof/Laws/GoodKwengo.lean ====
section
/-! SUPPORT. The operations of Machine/Kwengo.lean keep the queue, the fuses and the canonical form of every store. -/

namespace Sys2Proof.Machine

variable {W : Watch} {s : State}

@[simp] theorem sendTimeCheck_good {x1} (h : Good W s) :
    Good W (sendTimeCheck s x1) := by
  simp (maxDischargeDepth := 30) +contextual only [sendTimeCheck, *, good_ite, implies_true, and_self, setPort_good]

@[simp] theorem execTimeCheckSend_good (h : Good W s) :
    nextAll (Good W) (execTimeCheckSend s) := by
  simp (maxDischargeDepth := 30) +contextual only [execTimeCheckSend, *, good_ite, implies_true, and_self, good_foldl,
      nextAll_next, sendTimeCheck_good]

@[simp] theorem timeMeasured_good {x1} {x2} {x3} {x4} {x5} (h : Good W s) :
    Good W (timeMeasured s x1 x2 x3 x4 x5) := by
  simp (maxDischargeDepth := 30) +contextual only [timeMeasured, *, good_ite, implies_true, and_self, setRegN_good,
      setRegBit_good, raise_good]

@[simp] theorem takeTimeCheck_good {x1} {x2} (h : Good W s) :
    Good W (takeTimeCheck s x1 x2) := by
  simp (maxDischargeDepth := 30) +contextual only [takeTimeCheck, *, good_ite, implies_true, and_self, setPort_good,
      raiseOnce_good, timeMeasured_good]

@[simp] theorem execTimeCheck_good {p} (h : Good W s) : nextAll (Good W) (execTimeCheck p s) := by
  refine onUnit_good h fun s h => ?_
  split
  all_goals first
    | exact h
    | (have hr := (nextMsg_good h) _ (by assumption)
       dsimp only at hr ⊢
       (repeat' split) <;> simp [*])

@[simp] theorem takeGrant_good {x1} (h : Good W s) :
    Good W (takeGrant s x1) := by
  simp (maxDischargeDepth := 30) +contextual only [takeGrant, *, good_ite, implies_true, and_self, raise_good,
      setPackageCap_good, setRegN_good]

@[simp] theorem keepGrant_good {x1} (h : Good W s) :
    Good W (keepGrant s x1) := by
  simp (maxDischargeDepth := 30) +contextual only [keepGrant, *, good_ite, implies_true, and_self, keepLater_good,
      takeGrant_good]

@[simp] theorem routeGrant_good {x1} (h : Good W s) :
    Good W (routeGrant s x1) := by
  simp (maxDischargeDepth := 30) +contextual only [routeGrant, *, good_ite, implies_true, and_self, keepGrant_good,
      raise_good, portSend_good]

@[simp] theorem sendGrant_good {x1} {x2} (h : Good W s) :
    Good W (sendGrant s x1 x2) := by
  simp (maxDischargeDepth := 30) +contextual only [sendGrant, *, good_upd, implies_true, routeGrant_good]

@[simp] theorem noteScore_good {x1} {x2} (h : Good W s) :
    Good W (noteScore s x1 x2) := by
  unfold noteScore
  dsimp only
  (repeat' split) <;> simp (maxDischargeDepth := 30) +contextual only [*, good_upd, implies_true, sendGrant_good]

@[simp] theorem execScoreSend_good (h : Good W s) :
    nextAll (Good W) (execScoreSend s) := by
  unfold execScoreSend
  (repeat' split) <;> simp (maxDischargeDepth := 30) +contextual only [*, nextAll_next, freeBytes_good, portSend_good,
      noteScore_good]

@[simp] theorem execScore_good {p} (h : Good W s) : nextAll (Good W) (execScore p s) := by
  refine onUnit_good h fun s h => ?_
  split
  all_goals first
    | exact h
    | (have hr := (nextMsg_good h) _ (by assumption)
       dsimp only at hr ⊢
       (repeat' split) <;> simp [*])

@[simp] theorem execGrant_good {p} (h : Good W s) : nextAll (Good W) (execGrant p s) := by
  refine onUnit_good h fun s h => ?_
  split
  all_goals first
    | exact h
    | (have hr := (nextMsg_good h) _ (by assumption)
       dsimp only at hr ⊢
       (repeat' split) <;> simp [*])

@[simp] theorem execCoordinator_good (h : Good W s) :
    nextAll (Good W) (execCoordinator s) := by
  simp (maxDischargeDepth := 30) +contextual only [execCoordinator, *, good_upd, good_ite, implies_true, and_self,
      good_foldl, nextAll_next, sendGrant_good]

@[simp] theorem execEvent_good {p} (h : Good W s)
    (hmem : ∀ x, W.mem x := by assumption) : nextAll (Good W) (execEvent p s) := by
  refine onUnit_good h fun s h => ?_
  split
  all_goals first
    | exact h
    | (have hr := (nextMsg_good h) _ (by assumption)
       dsimp only at hr ⊢
       (repeat' split) <;> simp [*])

@[simp] theorem answerPeer_good {x1} {x2} {x3} {x4} {x5} {x6} (h : Good W s) :
    Good W (answerPeer s x1 x2 x3 x4 x5 x6) := by
  simp (maxDischargeDepth := 30) +contextual only [answerPeer, *, portSend_good]

theorem nextReq_good {p ty} (h : Good W s) : ∀ r, nextReq s p ty = some r → Good W r.2 := by
  unfold nextReq
  split
  · exact nextMsg_good h
  · simp

@[simp] theorem execMemWr_good {p} (h : Good W s) (hmem : ∀ x, W.mem x := by assumption) :
    nextAll (Good W) (execMemWr p s) := by
  refine onUnit_good h fun s h => ?_
  split
  · exact h
  · have hr := (nextReq_good h) _ (by assumption)
    dsimp only at hr ⊢
    split
    · exact answerPeer_good (memWrite_good hr)
    · exact answerPeer_good (memWrite_good hr)
    · exact answerPeer_good (raise_good (refuseAccess_good hr))

@[simp] theorem execMemRd_good {p e} (h : Good W s) (hmem : ∀ x, W.mem x := by assumption) :
    nextAll (Good W) (execMemRd p e s) := by
  refine onUnit_good h fun s h => ?_
  split
  · exact h
  · have hr := (nextReq_good h) _ (by assumption)
    dsimp only at hr ⊢
    split
    case h_5 => exact answerPeer_good (raise_good (refuseAccess_good hr))
    all_goals
      split <;> exact answerPeer_good (readLine_good hr)

theorem waitFor_good {p r b} (h : Good W s) : ∀ x, waitFor s p r b = some x → Good W x.2 := by
  intro x hx
  unfold waitFor at hx
  split at hx
  · cases hx
    apply good_upd h <;>
    first | exact id | exact fun _ k => k
  · cases hx

@[simp] theorem execWrAck_good {p} (h : Good W s) : nextAll (Good W) (execWrAck p s) := by
  refine onUnit_good h fun s h => ?_
  split
  · exact h
  · have hr := (nextMsg_good h) _ (by assumption)
    dsimp only at hr ⊢
    split
    · have hw := (waitFor_good hr) _ (by assumption)
      exact unitDone_good hw
    · exact hr

@[simp] theorem execRdData_good {p x} (h : Good W s) (hmem : ∀ x, W.mem x := by assumption)
    (hts : ∀ x, W.ts x := by assumption) : nextAll (Good W) (execRdData p x s) := by
  refine onUnit_good h fun s h => ?_
  split
  · exact h
  · have hr := (nextMsg_good h) _ (by assumption)
    dsimp only at hr ⊢
    split
    · have hw := (waitFor_good hr) _ (by assumption)
      dsimp only at hw ⊢
      split
      · exact writeUnit_good hw
      · exact unitDone_good hw
    · exact hr

end Sys2Proof.Machine
end

