-- ==== Sys2Proof/Laws/GoodKeepOps.lean ====
section
/-! SUPPORT. The operations of Machine/KeepOps.lean keep the queue, the fuses and the canonical form of every store. -/

namespace Sys2Proof.Machine

variable {W : Watch} {s : State}

@[simp] theorem keepOn_good {n} (h : Good W s) : Good W (keepOn n s) := by
  induction n generalizing s with
  | zero => exact h
  | succ n ih =>
    have hw : ∀ l, Good W (withKp s (fun k => { k with waiting := l })) := fun l => withKp_good h fun _ k => k
    unfold keepOn
    split
    · split
      · exact h
      · exact ih (armNow_good (hw _))
    · split
      · exact h
      · exact ih (takeGrant_good (hw _))
    · exact h

@[simp] theorem keepNext_good (h : Good W s) :
    Good W (keepNext s) := by
  simp (maxDischargeDepth := 30) +contextual only [keepNext, *, keepOn_good]

@[simp] theorem respond_good {x y z} (h : Good W s) : Good W (respond s x y z) := by
  unfold respond
  split
  · exact withKp_good h fun _ k => k
  · extract_lets m st t1 t2 t3
    have ht : Good W t3 := by
      apply good_upd h <;>
    first | exact id | exact fun _ k => k
    clear_value t3
    split
    · exact msix_good ht
    · exact ht

@[simp] theorem failCmd_good {x1} {x2} (h : Good W s) :
    Good W (failCmd s x1 x2) := by
  simp (maxDischargeDepth := 30) +contextual only [failCmd, *, respond_good, raise_good]

@[simp] theorem respondTagged_good {x1} {x2} {x3} {x4} {x5} (h : Good W s) :
    Good W (respondTagged s x1 x2 x3 x4 x5) := by
  simp (maxDischargeDepth := 30) +contextual only [respondTagged, *, respond_good]

@[simp] theorem failTagged_good {x1} {x2} {x3} {x4} (h : Good W s) :
    Good W (failTagged s x1 x2 x3 x4) := by
  simp (maxDischargeDepth := 30) +contextual only [failTagged, *, respondTagged_good, raise_good]

theorem takeCmd_good {x y} (h : Good W s) : ∀ r, takeCmd x y s = some r → Good W r.2 := by
  intro r hr
  unfold takeCmd at hr
  (repeat' split at hr) <;> cases hr
  · exact withKp_good h fun _ k => k
  · exact h

@[simp] theorem heldCmd_good {x1} {x2} (h : Good W s) :
    Good W (heldCmd x1 x2 s) := by
  unfold heldCmd
  split <;> simp (maxDischargeDepth := 30) +contextual only [*, good_ite, implies_true, and_self, withKp_good]

@[simp] theorem onCommand_good {x y} {k : KpCmd → State → State} (h : Good W s)
    (hk : ∀ z s, Good W s → Good W (k z s)) : Good W (onCommand x y s k) := by
  unfold onCommand
  split
  · exact heldCmd_good h
  · have := (takeCmd_good h) _ (by assumption)
    split
    · exact failCmd_good this
    · exact keepNext_good (hk _ _ this)

@[simp] theorem failAuth_good {x1} {x2} {x3} (h : Good W s) :
    Good W (failAuth s x1 x2 x3) := by
  simp (maxDischargeDepth := 30) +contextual only [failAuth, *, good_ite, implies_true, and_self, withKp_good,
      countUp_good, kpEvent_good, failCmd_good]

@[simp] theorem critical_good {x1} {k2 : List Sys2Proof.Byte → Nat → List Sys2Proof.Byte → State → State}
    (h : Good W s) (hk : ∀ y0 y1 y2 s, Good W s → Good W (k2 y0 y1 y2 s)) :
    Good W (critical x1 s k2) := by
  unfold critical
  split <;> simp (maxDischargeDepth := 30) +contextual only [*, good_ite, implies_true, and_self, failAuth_good,
      withKp_good, setReg64_good]

@[simp] theorem onCritical_good {x1} {x2} {k3 : KpCmd → List Sys2Proof.Byte → Nat → List Sys2Proof.Byte → State → State} (h : Good W s) (hk : ∀ y0 y1 y2 y3 s, Good W s → Good W (k3 y0 y1 y2 y3 s)) :
    Good W (onCritical x1 x2 s k3) := by
  simp (maxDischargeDepth := 30) +contextual only [onCritical, *, implies_true, onCommand_good, critical_good]

@[simp] theorem useNonce_good {x1} {x2} (h : Good W s) :
    Good W (useNonce s x1 x2).1 := by
  unfold useNonce
  split <;> simp (maxDischargeDepth := 30) +contextual only [*, implies_true, withKp_good]

@[simp] theorem execMailboxGo_good (h : Good W s) :
    nextAll (Good W) (execMailboxGo s) := by
  simp (maxDischargeDepth := 30) +contextual only [execMailboxGo, *, good_upd, good_ite, implies_true, and_self,
      nextAll_next, onBlock_good, raise_good, failCmd_good, withKp_good]

@[simp] theorem execMctpControlMessage_good {x1} (h : Good W s) :
    nextAll (Good W) (execMctpControlMessage x1 s) := by
  simp (maxDischargeDepth := 30) +contextual only [execMctpControlMessage, *, good_ite, implies_true, and_self,
      nextAll_next, withKp_good]

end Sys2Proof.Machine
end

