-- ==== Sys2Proof/Laws/GoodKeep.lean ====
section
/-! SUPPORT. The operations of Machine/Keep.lean keep the queue, the fuses and the canonical form of every store. -/

namespace Sys2Proof.Machine

variable {W : Watch} {s : State}

@[simp] theorem execGetInfo_good {x1} (h : Good W s) :
    nextAll (Good W) (execGetInfo x1 s) := by
  simp (maxDischargeDepth := 30) +contextual only [execGetInfo, *, implies_true, nextAll_next, onCommand_good,
      freeBytes_good, respond_good]

@[simp] theorem execGetLedger_good {x1} (h : Good W s) :
    nextAll (Good W) (execGetLedger x1 s) := by
  simp (maxDischargeDepth := 30) +contextual only [execGetLedger, *, good_ite, implies_true, and_self, nextAll_next,
      onCommand_good, failCmd_good, respond_good]

@[simp] theorem execGetCert_good {x1} (h : Good W s) :
    nextAll (Good W) (execGetCert x1 s) := by
  simp (maxDischargeDepth := 30) +contextual only [execGetCert, *, implies_true, nextAll_next, onCommand_good, respond_good]

@[simp] theorem execGetKemKey_good {x1} (h : Good W s) :
    nextAll (Good W) (execGetKemKey x1 s) := by
  simp (maxDischargeDepth := 30) +contextual only [execGetKemKey, *, implies_true, nextAll_next, onCommand_good,
      respond_good]

@[simp] theorem execGetChallenge_good {x1} (h : Good W s) :
    nextAll (Good W) (execGetChallenge x1 s) := by
  simp (maxDischargeDepth := 30) +contextual only [execGetChallenge, *, implies_true, nextAll_next, onCommand_good,
      freeBytes_good, respond_good, withKp_good]

@[simp] theorem execAttest_good {x1} (h : Good W s) :
    nextAll (Good W) (execAttest x1 s) := by
  simp (maxDischargeDepth := 30) +contextual only [execAttest, *, good_ite, implies_true, and_self, nextAll_next,
      onCommand_good, failCmd_good, respond_good]

@[simp] theorem execWarmReset_good {x1} {x2} (h : Good W s) (hmem : ∀ x, W.mem x := by assumption)
    (hts : ∀ x, W.ts x := by assumption) (hflash : ∀ x, W.flash x := by assumption)
    (himage : ∀ x, W.image x := by assumption) (hsreg : ∀ x, W.sreg x := by assumption)
    (hpreg : ∀ x, W.preg x := by assumption) (hvreg : ∀ x, W.vreg x := by assumption)
    (hxa : ∀ x, W.xa x := by assumption) (hpick : ∀ x, W.pick x := by assumption) :
    nextAll (Good W) (execWarmReset x1 x2 s) := by
  simp (maxDischargeDepth := 30) +contextual only [execWarmReset, *, implies_true, nextAll_next, onCommand_good,
      warmStart_good, respond_good]

@[simp] theorem recoveryBoot_good {x1} (h : Good W s) (hmem : ∀ x, W.mem x := by assumption)
    (hts : ∀ x, W.ts x := by assumption) (hflash : ∀ x, W.flash x := by assumption)
    (himage : ∀ x, W.image x := by assumption) (hpick : ∀ x, W.pick x := by assumption) :
    Good W (recoveryBoot x1 s) := by
  simp (maxDischargeDepth := 30) +contextual only [recoveryBoot, *, good_ite, implies_true, and_self,
      startFirmware_good, setBootState_good, withRec_good, passStep_good, endStep_good, raise_good, bootFrom_good]

@[simp] theorem execRecoveryWrite_good {x1} {x2} (h : Good W s) (hmem : ∀ x, W.mem x := by assumption)
    (hts : ∀ x, W.ts x := by assumption) (hflash : ∀ x, W.flash x := by assumption)
    (himage : ∀ x, W.image x := by assumption) (hpick : ∀ x, W.pick x := by assumption) :
    nextAll (Good W) (execRecoveryWrite x1 x2 s) := by
  simp (maxDischargeDepth := 30) +contextual only [execRecoveryWrite, *, good_ite, imp_self, implies_true, and_self,
      nextAll_next, onCommand_good, failCmd_good, withKp_good, withFlash_good, respond_good, recoveryBoot_good,
      markBad_good, fwFails_good]

@[simp] theorem execKeyEstablish_good {x1} {x2} (h : Good W s) :
    nextAll (Good W) (execKeyEstablish x1 x2 s) := by
  simp (maxDischargeDepth := 30) +contextual only [execKeyEstablish, *, good_ite, implies_true, and_self, nextAll_next,
      onCommand_good, failCmd_good, useNonce_good, respond_good, withKp_good, setReg64_good]

end Sys2Proof.Machine
end

