-- ==== Sys2Proof/Laws/GoodKeepCritical.lean ====
section
/-! SUPPORT. The operations of Machine/KeepCritical.lean keep the queue, the fuses and the canonical form of every store. -/

namespace Sys2Proof.Machine

variable {W : Watch} {s : State}

@[simp] theorem dropRecords_good (h : Good W s) :
    Good W (dropRecords s) := by
  simp (maxDischargeDepth := 30) +contextual only [dropRecords, *, good_upd, implies_true, swf_smap, dropC1_good]

@[simp] theorem stopJobs_good (h : Good W s) : Good W (stopJobs s) := by
  refine good_foldl ?_ fun s m h => noteQueue_good h
  apply good_upd h <;> simp +contextual only [implies_true, swf_nil]

@[simp] theorem clearTiles_good (h : Good W s) (hts : ∀ x, W.ts x := by assumption)
    (hxa : ∀ x, W.xa x := by assumption) (hpick : ∀ x, W.pick x := by assumption) : Good W (clearTiles s) := by
  unfold clearTiles
  apply good_upd h <;> simp +contextual [*]

@[simp] theorem clearLoader_good (h : Good W s) (himage : ∀ x, W.image x := by assumption) :
    Good W (clearLoader s) := by
  simp (maxDischargeDepth := 30) +contextual only [clearLoader, *, good_upd, imp_self, implies_true, withLd_good,
      resetRegs_good]

@[simp] theorem eraseKeys_good (h : Good W s) :
    Good W (eraseKeys s) := by
  simp (maxDischargeDepth := 30) +contextual only [eraseKeys, *, good_upd, implies_true, withKp_good, setReg64_good,
      setF_good]

@[simp] theorem zeroize_good (h : Good W s) (hts : ∀ x, W.ts x := by assumption)
    (hflash : ∀ x, W.flash x := by assumption) (himage : ∀ x, W.image x := by assumption)
    (hxa : ∀ x, W.xa x := by assumption) (hpick : ∀ x, W.pick x := by assumption) :
    Good W (zeroize s) := by
  simp (maxDischargeDepth := 30) +contextual only [zeroize, *, good_ite, implies_true, and_self, abortRun_good,
      provRunEnd_good, eraseKeys_good, clearLoader_good, clearTiles_good, stopJobs_good, dropRecords_good,
      kpEvent_good, ledgerEvent_good]

@[simp] theorem memoryInactive_good (h : Good W s) :
    Good W (memoryInactive s) := by
  simp (maxDischargeDepth := 30) +contextual only [memoryInactive, *, setRegBit_good]

@[simp] theorem memoryZero_good (h : Good W s) (hmem : ∀ x, W.mem x := by assumption) : Good W (memoryZero s) := by
  unfold memoryZero
  apply good_upd h <;> simp +contextual [*]

@[simp] theorem memoryRewritten_good (h : Good W s) (hmem : ∀ x, W.mem x := by assumption) :
    Good W (memoryRewritten s) := by
  simp (maxDischargeDepth := 30) +contextual only [memoryRewritten, *, implies_true, msix_good, setRegBit_good,
      memoryZero_good]

@[simp] theorem execSetCap_good {x1} (h : Good W s) :
    nextAll (Good W) (execSetCap x1 s) := by
  simp (maxDischargeDepth := 30) +contextual only [execSetCap, *, good_ite, implies_true, and_self, nextAll_next,
      onCritical_good, failTagged_good, setPackageCap_good, respondTagged_good]

@[simp] theorem execFarmPower_good {x1} (h : Good W s) :
    nextAll (Good W) (execFarmPower x1 s) := by
  simp (maxDischargeDepth := 30) +contextual only [execFarmPower, *, good_upd, good_ite, implies_true, and_self,
      nextAll_next, onCritical_good, failTagged_good, setRegBit_good, respondTagged_good]

theorem readUpdate_good {a n e} (h : Good W s)
    (hmem : ∀ x, W.mem x := by assumption) : ∀ r, readUpdate s a n e = some r → Good W r.1 := by
  intro r hr
  unfold readUpdate at hr
  split at hr <;> cases hr <;> exact readLines_good h

@[simp] theorem writeSlot_good {x1} {x2} (h : Good W s) (hflash : ∀ x, W.flash x := by assumption) :
    Good W (writeSlot s x1 x2) := by
  simp (maxDischargeDepth := 30) +contextual only [writeSlot, *, implies_true, withFlash_good]

@[simp] theorem spoilSlot_good {x1} {x2} (h : Good W s) (hflash : ∀ x, W.flash x := by assumption) :
    Good W (spoilSlot s x1 x2) := by
  simp (maxDischargeDepth := 30) +contextual only [spoilSlot, *, implies_true, freeBytes_good, withFlash_good]

@[simp] theorem execFwUpdate_good {x y z v w} (h : Good W s) (hmem : ∀ x, W.mem x := by assumption)
    (hts : ∀ x, W.ts x := by assumption) (hflash : ∀ x, W.flash x := by assumption)
    (himage : ∀ x, W.image x := by assumption) (hsreg : ∀ x, W.sreg x := by assumption)
    (hpreg : ∀ x, W.preg x := by assumption) (hvreg : ∀ x, W.vreg x := by assumption)
    (hxa : ∀ x, W.xa x := by assumption)
    (hpick : ∀ x, W.pick x := by assumption) : nextAll (Good W) (execFwUpdate x y z v w s) := by
  refine onCritical_good h fun cm key n b s h => ?_
  dsimp only
  refine good_ite.2 ⟨fun _ => failTagged_good h, fun _ => good_ite.2 ⟨fun _ => failTagged_good h, fun _ => ?_⟩⟩
  split
  · exact failTagged_good h
  · have hr := (readUpdate_good h) _ (by assumption)
    dsimp only at hr
    refine good_ite.2 ⟨fun _ => respondTagged_good hr,
        fun _ => good_ite.2 ⟨fun _ => respondTagged_good (fwFails_good hr), fun _ =>
      good_ite.2 ⟨fun _ => failTagged_good (spoilSlot_good hr), fun _ => ?_⟩⟩⟩
    refine good_ite.2 ⟨fun _ => warmStart_good ?_, fun _ => ?_⟩ <;> exact respondTagged_good (writeSlot_good hr)

@[simp] theorem execFuseAdvance_good {x y} (h : Good W s) (hfuse : ∀ x, W.fuse x := by assumption) :
    nextAll (Good W) (execFuseAdvance x y s) := by
  refine onCritical_good h fun cm key n b s h => ?_
  dsimp only
  split
  · exact failTagged_good h
  · exact respondTagged_good ⟨h.1, h.2.1, hfuse _, h.2.2.2⟩

@[simp] theorem setDebug_good {x1} (h : Good W s) (hflash : ∀ x, W.flash x := by assumption) :
    Good W (setDebug s x1) := by
  simp (maxDischargeDepth := 30) +contextual only [setDebug, *, good_ite, implies_true, and_self, withRec_good,
      setF_good, kpEvent_good, ledgerEvent_good]

@[simp] theorem execDebugUnlock_good {x1} {x2} (h : Good W s) (hts : ∀ x, W.ts x := by assumption)
    (hflash : ∀ x, W.flash x := by assumption) (himage : ∀ x, W.image x := by assumption)
    (hxa : ∀ x, W.xa x := by assumption) (hpick : ∀ x, W.pick x := by assumption) :
    nextAll (Good W) (execDebugUnlock x1 x2 s) := by
  simp (maxDischargeDepth := 30) +contextual only [execDebugUnlock, *, good_ite, implies_true, and_self, nextAll_next,
      onCritical_good, failTagged_good, respondTagged_good, setDebug_good, useNonce_good, zeroize_good]

@[simp] theorem execZeroize_good {x1} (h : Good W s) (hts : ∀ x, W.ts x := by assumption)
    (hflash : ∀ x, W.flash x := by assumption) (himage : ∀ x, W.image x := by assumption)
    (hxa : ∀ x, W.xa x := by assumption) (hpick : ∀ x, W.pick x := by assumption) :
    nextAll (Good W) (execZeroize x1 s) := by
  simp (maxDischargeDepth := 30) +contextual only [execZeroize, *, good_ite, imp_self, implies_true, and_self,
      nextAll_next, onCritical_good, failTagged_good, zeroize_good, withKp_good, memoryInactive_good,
      respondTagged_good]

@[simp] theorem execZeroizeDdr4Done_good {x1} (h : Good W s) (hmem : ∀ x, W.mem x := by assumption)
    (hts : ∀ x, W.ts x := by assumption) (hflash : ∀ x, W.flash x := by assumption)
    (himage : ∀ x, W.image x := by assumption) (hsreg : ∀ x, W.sreg x := by assumption)
    (hpreg : ∀ x, W.preg x := by assumption) (hvreg : ∀ x, W.vreg x := by assumption)
    (hxa : ∀ x, W.xa x := by assumption) (hpick : ∀ x, W.pick x := by assumption) :
    nextAll (Good W) (execZeroizeDdr4Done x1 s) := by
  simp (maxDischargeDepth := 30) +contextual only [execZeroizeDdr4Done, *, good_ite, implies_true, and_self,
      nextAll_next, warmStart_good, memoryRewritten_good]

@[simp] theorem writeOwner_good {x1} {x2} (h : Good W s) (hflash : ∀ x, W.flash x := by assumption) :
    Good W (writeOwner s x1 x2) := by
  simp (maxDischargeDepth := 30) +contextual only [writeOwner, *, implies_true, withFlash_good]

@[simp] theorem transferOwner_good {x1} {x2} {k3 : State → State} (hk : ∀ s, Good W s → Good W (k3 s)) (h : Good W s)
    (hmem : ∀ x, W.mem x := by assumption) (hts : ∀ x, W.ts x := by assumption)
    (hflash : ∀ x, W.flash x := by assumption) (himage : ∀ x, W.image x := by assumption)
    (hsreg : ∀ x, W.sreg x := by assumption) (hpreg : ∀ x, W.preg x := by assumption)
    (hvreg : ∀ x, W.vreg x := by assumption) (hxa : ∀ x, W.xa x := by assumption)
    (hpick : ∀ x, W.pick x := by assumption) :
    Good W (transferOwner x1 x2 k3 s) := by
  simp (maxDischargeDepth := 30) +contextual only [transferOwner, *, implies_true, warmStart_good, writeOwner_good,
      memoryRewritten_good, memoryInactive_good, zeroize_good]

@[simp] theorem transferOk_good {x1} {x2} {x3} (h : Good W s) :
    Good W (transferOk s x1 x2 x3).1 := by
  simp (maxDischargeDepth := 30) +contextual only [transferOk, *, useNonce_good]

@[simp] theorem execOwnerTransfer_good {x1} {x2} {x3} (h : Good W s) (hmem : ∀ x, W.mem x := by assumption)
    (hts : ∀ x, W.ts x := by assumption) (hflash : ∀ x, W.flash x := by assumption)
    (himage : ∀ x, W.image x := by assumption) (hsreg : ∀ x, W.sreg x := by assumption)
    (hpreg : ∀ x, W.preg x := by assumption) (hvreg : ∀ x, W.vreg x := by assumption)
    (hxa : ∀ x, W.xa x := by assumption) (hpick : ∀ x, W.pick x := by assumption) :
    nextAll (Good W) (execOwnerTransfer x1 x2 x3 s) := by
  simp (maxDischargeDepth := 30) +contextual only [execOwnerTransfer, *, good_ite, implies_true, and_self,
      nextAll_next, onCritical_good, failTagged_good, transferOk_good, transferOwner_good, respondTagged_good,
      onCommand_good, failCmd_good, respond_good]

@[simp] theorem execSetPolicy_good {x1} {x2} (h : Good W s) (hflash : ∀ x, W.flash x := by assumption) :
    nextAll (Good W) (execSetPolicy x1 x2 s) := by
  simp (maxDischargeDepth := 30) +contextual only [execSetPolicy, *, good_ite, imp_self, implies_true, and_self,
      nextAll_next, onCritical_good, failTagged_good, withFlash_good, respondTagged_good, withKp_good, writeOwner_good]

@[simp] theorem execLedgerClear_good {x1} (h : Good W s) (hflash : ∀ x, W.flash x := by assumption) :
    nextAll (Good W) (execLedgerClear x1 s) := by
  simp (maxDischargeDepth := 30) +contextual only [execLedgerClear, *, good_ite, implies_true, and_self, good_foldl,
      nextAll_next, onCritical_good, failTagged_good, withRec_good, setReg64_good, respondTagged_good, writeRecord_good]

end Sys2Proof.Machine
end

