-- ==== Sys2Proof/Laws/GoodObs.lean ====
section
/-! SUPPORT. The operations of Machine/Obs.lean keep the queue, the fuses and the canonical form of every store. -/

namespace Sys2Proof.Machine

variable {W : Watch} {s : State}

@[simp] theorem execSnapInEdge_good {x1} (h : Good W s) :
    nextAll (Good W) (execSnapInEdge x1 s) := by
  simp (maxDischargeDepth := 30) +contextual only [execSnapInEdge, *, good_ite, implies_true, and_self, nextAll_next,
      prerunEvent_good, snapRequest_good]

@[simp] theorem execAtGo_good (h : Good W s) :
    nextAll (Good W) (execAtGo s) := by
  simp (maxDischargeDepth := 30) +contextual only [execAtGo, *, good_ite, implies_true, and_self, nextAll_next,
      onBlock_good, raise_good, snapRequest_good]

@[simp] theorem execSnapshotNow_good (h : Good W s) :
    nextAll (Good W) (execSnapshotNow s) := by
  simp (maxDischargeDepth := 30) +contextual only [execSnapshotNow, *, good_upd, good_ite, implies_true, and_self,
      nextAll_next, onBlock_good, snapMissed_good, latchBanks_good, setF_good]

@[simp] theorem execSnapshotLatch_good (h : Good W s) :
    nextAll (Good W) (execSnapshotLatch s) := by
  simp (maxDischargeDepth := 30) +contextual only [execSnapshotLatch, *, nextAll_next, snapLatch_good]

@[simp] theorem execSnapOutEnd_good (h : Good W s) :
    nextAll (Good W) (execSnapOutEnd s) := by
  simp (maxDischargeDepth := 30) +contextual only [execSnapOutEnd, *, good_upd, implies_true, nextAll_next]

@[simp] theorem execSnapshotRelease_good (h : Good W s) :
    nextAll (Good W) (execSnapshotRelease s) := by
  simp (maxDischargeDepth := 30) +contextual only [execSnapshotRelease, *, implies_true, nextAll_next, onBlock_good,
      setRegBit_good]

@[simp] theorem execSnDataRead_good (h : Good W s) :
    nextAll (Good W) (execSnDataRead s) := by
  simp (maxDischargeDepth := 30) +contextual only [execSnDataRead, *, good_upd, good_ite, implies_true, and_self,
      nextAll_next, setRegBit_good]

@[simp] theorem onEye_good {x1} {k2 : State → State} (h : Good W s) (hk : ∀ s, Good W s → Good W (k2 s)) :
    nextAll (Good W) (onEye x1 s k2) := by
  simp (maxDischargeDepth := 30) +contextual only [onEye, *, good_ite, implies_true, and_self, onUnit_good]

@[simp] theorem setEye_good {x1} {x2} {x3} {x4} {x5} (h : Good W s) :
    Good W (setEye s x1 x2 x3 x4 x5) := by
  simp (maxDischargeDepth := 30) +contextual only [setEye, *, setRegN_good, setRegBit_good]

@[simp] theorem execEyeScanGo_good {x1} {x2} (h : Good W s) :
    nextAll (Good W) (execEyeScanGo x1 x2 s) := by
  simp (maxDischargeDepth := 30) +contextual only [execEyeScanGo, *, good_ite, implies_true, and_self, onEye_good,
      setReg_good, setEye_good]

@[simp] theorem execEyeScanAbort_good {x1} {x2} (h : Good W s) :
    nextAll (Good W) (execEyeScanAbort x1 x2 s) := by
  simp (maxDischargeDepth := 30) +contextual only [execEyeScanAbort, *, good_ite, implies_true, and_self, onEye_good,
      setEye_good, setRegN_good, freeBytes_good]

@[simp] theorem execEyeScanDone_good {x1} {x2} (h : Good W s) :
    nextAll (Good W) (execEyeScanDone x1 x2 s) := by
  simp (maxDischargeDepth := 30) +contextual only [execEyeScanDone, *, good_ite, implies_true, and_self, onEye_good,
      setRegN_good, setEye_good]

@[simp] theorem setIr_good {x1} (h : Good W s) :
    Good W (setIr s x1) := by
  simp (maxDischargeDepth := 30) +contextual only [setIr, *, good_upd, implies_true]

@[simp] theorem silence_good (h : Good W s) :
    Good W (silence s) := by
  simp (maxDischargeDepth := 30) +contextual only [silence, *, good_upd, implies_true, dropRecords_good, implies_true,
      swf_smap]

@[simp] theorem enterTestMode_good (h : Good W s) (hflash : ∀ x, W.flash x := by assumption) :
    Good W (enterTestMode s) := by
  simp (maxDischargeDepth := 30) +contextual only [enterTestMode, *, good_upd, good_ite, imp_self, implies_true,
      and_self, ledgerEvent_good, raise_good, abortRun_good, lockEnds_good, silence_good, stopJobs_good, linkLost_good]

@[simp] theorem driven_good {x1} (h : Good W s) (hflash : ∀ x, W.flash x := by assumption) :
    Good W (driven s x1) := by
  simp (maxDischargeDepth := 30) +contextual only [driven, *, good_upd, good_ite, imp_self, implies_true, and_self,
      enterTestMode_good, setIr_good]

@[simp] theorem execTapReset_good (h : Good W s) :
    nextAll (Good W) (execTapReset s) := by
  simp (maxDischargeDepth := 30) +contextual only [execTapReset, *, good_upd, implies_true, nextAll_next, setIr_good]

@[simp] theorem execExtest_good (h : Good W s) (hflash : ∀ x, W.flash x := by assumption) :
    nextAll (Good W) (execExtest s) := by
  simp (maxDischargeDepth := 30) +contextual only [execExtest, *, implies_true, nextAll_next, driven_good]

@[simp] theorem execExtestPulse_good (h : Good W s) (hflash : ∀ x, W.flash x := by assumption) :
    nextAll (Good W) (execExtestPulse s) := by
  simp (maxDischargeDepth := 30) +contextual only [execExtestPulse, *, implies_true, nextAll_next, driven_good]

@[simp] theorem execExtestTrain_good (h : Good W s) (hflash : ∀ x, W.flash x := by assumption) :
    nextAll (Good W) (execExtestTrain s) := by
  simp (maxDischargeDepth := 30) +contextual only [execExtestTrain, *, implies_true, nextAll_next, driven_good]

@[simp] theorem execClamp_good (h : Good W s) (hflash : ∀ x, W.flash x := by assumption) :
    nextAll (Good W) (execClamp s) := by
  simp (maxDischargeDepth := 30) +contextual only [execClamp, *, implies_true, nextAll_next, driven_good]

@[simp] theorem execHighz_good (h : Good W s) (hflash : ∀ x, W.flash x := by assumption) :
    nextAll (Good W) (execHighz s) := by
  simp (maxDischargeDepth := 30) +contextual only [execHighz, *, implies_true, nextAll_next, driven_good]

@[simp] theorem execIdcode_good (h : Good W s) :
    nextAll (Good W) (execIdcode s) := by
  simp (maxDischargeDepth := 30) +contextual only [execIdcode, *, good_upd, implies_true, nextAll_next, setIr_good]

@[simp] theorem execSamplePreload_good (h : Good W s) :
    nextAll (Good W) (execSamplePreload s) := by
  simp (maxDischargeDepth := 30) +contextual only [execSamplePreload, *, good_upd, implies_true, nextAll_next, setIr_good,
      freeBytes_good]

@[simp] theorem execBypass_good (h : Good W s) :
    nextAll (Good W) (execBypass s) := by
  simp (maxDischargeDepth := 30) +contextual only [execBypass, *, nextAll_next, setIr_good]

end Sys2Proof.Machine
end

