-- ==== Sys2Proof/Laws/GoodTilePorts.lean ====
section
/-! SUPPORT. The operations of Machine/TilePorts.lean keep the queue, the fuses and the canonical form of every store. -/

namespace Sys2Proof.Machine

variable {W : Watch} {s : State}

@[simp] theorem onPort_good {x1} {k2 : State → State} (h : Good W s) (hk : ∀ s, Good W s → Good W (k2 s)) :
    nextAll (Good W) (onPort x1 s k2) := by
  simp (maxDischargeDepth := 30) +contextual only [onPort, *, good_ite, implies_true, and_self, onUnit_good]

@[simp] theorem portAdvance_good {x1} (h : Good W s) :
    Good W (portAdvance s x1) := by
  simp (maxDischargeDepth := 30) +contextual only [portAdvance, *, setF_good]

@[simp] theorem portStore_good {x1} {x2} (h : Good W s) (hts : ∀ x, W.ts x := by assumption)
    (hpick : ∀ x, W.pick x := by assumption) :
    Good W (portStore s x1 x2) := by
  simp (maxDischargeDepth := 30) +contextual only [portStore, *, good_upd, good_ite, imp_self, implies_true, and_self,
      swf_sset, tsWrite_good]

@[simp] theorem execTileIaData_good {x1} {x2} (h : Good W s) (hts : ∀ x, W.ts x := by assumption)
    (hpick : ∀ x, W.pick x := by assumption) :
    nextAll (Good W) (execTileIaData x1 x2 s) := by
  unfold execTileIaData
  (repeat' split) <;> simp (maxDischargeDepth := 30) +contextual only [*, good_upd, good_ite, imp_self, implies_true,
      and_self, onPort_good, portAdvance_good, portStore_good, portAccepted_good, portDenied_good]

@[simp] theorem setPageCmd_good {x1} {x2} (h : Good W s) :
    Good W (setPageCmd s x1 x2) := by
  simp (maxDischargeDepth := 30) +contextual only [setPageCmd, *, good_upd, implies_true, setRegBit_good]

@[simp] theorem execIaPageWrite_good {x1} {x2} {x3} {x4} (h : Good W s) :
    nextAll (Good W) (execIaPageWrite x1 x2 x3 x4 s) := by
  simp (maxDischargeDepth := 30) +contextual only [execIaPageWrite, *, good_ite, implies_true, and_self, onPort_good,
      portDenied_good, setPageCmd_good, spoilPage_good, portAccepted_good]

@[simp] theorem execIaPageRead_good {x1} {x2} {x3} (h : Good W s) :
    nextAll (Good W) (execIaPageRead x1 x2 x3 s) := by
  simp (maxDischargeDepth := 30) +contextual only [execIaPageRead, *, good_ite, implies_true, and_self, onPort_good,
      portDenied_good, setPageCmd_good, setRegBit_good]

@[simp] theorem execIaPageDone_good {x1} (h : Good W s) :
    nextAll (Good W) (execIaPageDone x1 s) := by
  unfold execIaPageDone
  refine onUnit_good h fun s h => ?_
  dsimp only
  (repeat' split) <;> simp (maxDischargeDepth := 30) +contextual only [*, good_upd, implies_true, setPageCmd_good,
      writePage_good]

end Sys2Proof.Machine
end

