-- ==== Sys2Proof/Laws/GoodHostAccess.lean ====
section
/-! SUPPORT. The operations of Machine/HostAccess.lean keep the queue, the fuses and the canonical form of every store. -/

namespace Sys2Proof.Machine

variable {W : Watch} {s : State}

theorem leaves_good {o} (ho : nextAll (Good W) o) (h : Good W s) : Good W (leaves o s) := by
  cases o
  · exact ho
  · exact h
  · exact h

@[simp] theorem tbCtrlWrite_good {x1} (h : Good W s) :
    Good W (tbCtrlWrite x1 s) := by
  simp (maxDischargeDepth := 30) +contextual only [tbCtrlWrite, *, good_ite, implies_true, and_self, leaves_good,
      execLockEnSet_good, execLockEnClear_good, execArm_good, execStop_good]

@[simp] theorem qCtrlWrite_good {x1} {x2} (h : Good W s) (hmem : ∀ x, W.mem x := by assumption) :
    Good W (qCtrlWrite x1 x2 s) := by
  simp (maxDischargeDepth := 30) +contextual only [qCtrlWrite, *, good_ite, implies_true, and_self, leaves_good,
      execResume_good, execAbort_good]

@[simp] theorem snCtrlWrite_good {x1} (h : Good W s) :
    Good W (snCtrlWrite x1 s) := by
  simp (maxDischargeDepth := 30) +contextual only [snCtrlWrite, *, good_ite, implies_true, and_self, leaves_good,
      execSnapshotRelease_good, execAtGo_good, execSnapshotNow_good]

@[simp] theorem eyCtrlWrite_good {x1} {x2} {x3} (h : Good W s) :
    Good W (eyCtrlWrite x1 x2 x3 s) := by
  unfold eyCtrlWrite
  split <;> simp (maxDischargeDepth := 30) +contextual only [*, good_ite, implies_true, and_self, leaves_good,
      execEyeScanAbort_good, execEyeScanGo_good, bar0Write_good]

@[simp] theorem iaCmdWrite_good {x1} {x2} (h : Good W s) :
    Good W (iaCmdWrite x1 x2 s) := by
  unfold iaCmdWrite
  split <;> simp (maxDischargeDepth := 30) +contextual only [*, leaves_good, execIaPageWrite_good, execIaPageRead_good]

theorem tileAction_good {t o v} (h : Good W s) (hts : ∀ x, W.ts x := by assumption)
    (hpick : ∀ x, W.pick x := by assumption) : ∀ r, tileAction s t o v = some r → Good W r := by
  intro r hr
  unfold tileAction at hr
  (repeat' split at hr) <;> cases hr
  all_goals first
    | exact h
    | exact leaves_good (execFaultRingRelease_good h) h
    | exact leaves_good (execWtSlackClr_good h) h
    | exact leaves_good (execTileIaData_good h) h
    | exact iaCmdWrite_good h

theorem unitAction_good {a v} (h : Good W s) (hmem : ∀ x, W.mem x := by assumption) :
    ∀ r, unitAction s a v = some r → Good W r := by
  intro r hr
  unfold unitAction at hr
  dsimp only at hr
  (repeat' split at hr) <;> cases hr
  all_goals first
    | exact h
    | exact qCtrlWrite_good h
    | exact eyCtrlWrite_good h
    | (refine leaves_good ?_ h
       first
       | exact execWfSqProd_good h
       | exact execWfCqCons_good h
       | exact execWfPos_good h
       | exact execForce_good h
       | exact execRearm_good h
       | exact execRegionValidWrite_good h
       | exact execPortTrain_good h
       | exact execPortOff_good h)

@[simp] theorem regWrite_good {a v} (h : Good W s) (hmem : ∀ x, W.mem x := by assumption)
    (hts : ∀ x, W.ts x := by assumption) (hpick : ∀ x, W.pick x := by assumption) : Good W (regWrite s a v) := by
  unfold regWrite
  split
  · exact h
  split
  · exact tbCtrlWrite_good h
  split
  · exact snCtrlWrite_good h
  split
  · exact leaves_good (execBiasFlip_good h) h
  split
  · rename_i hq
    split at hq
    · exact (tileAction_good h) _ hq
    · exact (unitAction_good h) _ hq
  · exact bar0Write_good h

@[simp] theorem regRead_good {x1} (h : Good W s) (hts : ∀ x, W.ts x := by assumption)
    (hpick : ∀ x, W.pick x := by assumption) :
    Good W (regRead s x1).1 := by
  unfold regRead
  (repeat' split) <;> simp (maxDischargeDepth := 30) +contextual only [*, good_upd, imp_self, implies_true,
      leaves_good, execTileIaData_good, execSnDataRead_good, bar0Read_good]

@[simp] theorem mboxWrite_good {x1} {x2} (h : Good W s) :
    Good W (mboxWrite s x1 x2) := by
  unfold mboxWrite
  split <;> simp (maxDischargeDepth := 30) +contextual only [*, good_ite, implies_true, and_self, leaves_good,
      execWfSqProd_good, execWfCqCons_good, bar2Write_good, execMailboxGo_good]

theorem answered_good {r : State × Word} (h : Good W r.1) : Good W (answered r) := by
  unfold answered
  apply good_upd h <;>
    first | exact id | exact fun _ k => k

@[simp] theorem execRegisterWrite_good {x1} {x2} (h : Good W s) (hmem : ∀ x, W.mem x := by assumption)
    (hts : ∀ x, W.ts x := by assumption) (hpick : ∀ x, W.pick x := by assumption) :
    nextAll (Good W) (execRegisterWrite x1 x2 s) := by
  unfold execRegisterWrite
  (repeat' split) <;> simp (maxDischargeDepth := 30) +contextual only [*, implies_true, nextAll_next, regWrite_good,
      mboxWrite_good, cfgWrite_good, hdmWrite_good]

@[simp] theorem execRcRead_good {x1} (h : Good W s) (hts : ∀ x, W.ts x := by assumption)
    (hpick : ∀ x, W.pick x := by assumption) :
    nextAll (Good W) (execRcRead x1 s) := by
  unfold execRcRead
  split <;> simp (maxDischargeDepth := 30) +contextual only [*, good_ite, implies_true, and_self, nextAll_next,
      answered_good, regRead_good]

@[simp] theorem execReg64LowRead_good {x1} (h : Good W s) :
    nextAll (Good W) (execReg64LowRead x1 s) := by
  unfold execReg64LowRead
  split <;> simp (maxDischargeDepth := 30) +contextual only [*, nextAll_next, answered_good, bar0Read_good]

@[simp] theorem execReg64HighRead_good {x1} (h : Good W s) :
    nextAll (Good W) (execReg64HighRead x1 s) := by
  unfold execReg64HighRead
  split <;> simp (maxDischargeDepth := 30) +contextual only [*, nextAll_next, answered_good, bar0Read_good]

@[simp] theorem execReg64LowWrite_good {x1} {x2} (h : Good W s) :
    nextAll (Good W) (execReg64LowWrite x1 x2 s) := by
  unfold execReg64LowWrite
  split <;> simp (maxDischargeDepth := 30) +contextual only [*, good_ite, implies_true, and_self, nextAll_next,
      bar0Write_good]

@[simp] theorem execReg64HighWrite_good {x1} {x2} (h : Good W s) :
    nextAll (Good W) (execReg64HighWrite x1 x2 s) := by
  unfold execReg64HighWrite
  split <;> simp (maxDischargeDepth := 30) +contextual only [*, good_ite, implies_true, and_self, nextAll_next,
      bar0Write_good]

end Sys2Proof.Machine
end

