-- ==== Sys2Proof/Laws/GoodLoader.lean ====
section
/-! SUPPORT. The operations of Machine/Loader.lean keep the queue, the fuses and the canonical form of every store. -/

namespace Sys2Proof.Machine

variable {W : Watch} {s : State}

@[simp] theorem execLoad_good {x1} {x2} (h : Good W s) (hmem : ∀ x, W.mem x := by assumption)
    (himage : ∀ x, W.image x := by assumption) :
    nextAll (Good W) (execLoad x1 x2 s) := by
  unfold execLoad
  refine onCritical_good h fun c k n p s h => ?_
  dsimp only
  (repeat' split) <;> simp (maxDischargeDepth := 30) +contextual only [*, implies_true, failTagged_good,
      loadFirst_good, respondTagged_good]

@[simp] theorem execLoadComplete_good {x1} (h : Good W s) (hmem : ∀ x, W.mem x := by assumption)
    (hts : ∀ x, W.ts x := by assumption) (himage : ∀ x, W.image x := by assumption)
    (hpick : ∀ x, W.pick x := by assumption) :
    nextAll (Good W) (execLoadComplete x1 s) := by
  unfold execLoadComplete
  (repeat' split) <;> simp (maxDischargeDepth := 30) +contextual only [*, implies_true, nextAll_next, loadSecond_good,
      keepNext_good, respondTagged_good]

end Sys2Proof.Machine
end

