-- ==== Sys2Proof/Laws/GoodNetCycle.lean ====
section
/-! SUPPORT. The operations of Machine/NetCycle.lean keep the queue, the fuses and the canonical form of every store. -/

namespace Sys2Proof.Machine

variable {W : Watch} {s : State}

@[simp] theorem landCredit_good {x1} (h : Good W s) :
    Good W (landCredit s x1) := by
  simp (maxDischargeDepth := 30) +contextual only [landCredit, *, good_upd, good_ite, implies_true, and_self, raise_good]

@[simp] theorem landCredits_good (h : Good W s) :
    Good W (landCredits s) := by
  simp (maxDischargeDepth := 30) +contextual only [landCredits, *, good_upd, implies_true, good_foldl, landCredit_good]

@[simp] theorem countOpps_good {x1} (h : Good W s) :
    Good W (countOpps s x1) := by
  simp (maxDischargeDepth := 30) +contextual only [countOpps, *, good_upd, implies_true, good_foldl]

@[simp] theorem c1Crossing_good {x1} {x2} (h : Good W s) :
    Good W (c1Crossing s x1 x2) := by
  simp (maxDischargeDepth := 30) +contextual only [c1Crossing, *, good_ite, implies_true, and_self, raise_good, setF_good]

@[simp] theorem moveFlit_good {x1} (h : Good W s) :
    Good W (moveFlit s x1) := by
  unfold moveFlit
  (repeat' split) <;> simp (maxDischargeDepth := 30) +contextual only [*, good_upd, implies_true, c1Crossing_good]

@[simp] theorem countStalls_good {x1} (h : Good W s) :
    Good W (countStalls s x1) := by
  simp (maxDischargeDepth := 30) +contextual only [countStalls, *, good_upd, implies_true, good_foldl]

@[simp] theorem networkCycle_good (h : Good W s) :
    Good W (networkCycle s) := by
  simp (maxDischargeDepth := 30) +contextual only [networkCycle, *, good_upd, implies_true, good_foldl,
      landCredits_good, moveFlit_good, countStalls_good, countOpps_good]

end Sys2Proof.Machine
end

