-- ==== Sys2Proof/Laws/GoodPackets.lean ====
section
/-! SUPPORT. The operations of Machine/Packets.lean keep the queue, the fuses and the canonical form of every store. -/

namespace Sys2Proof.Machine

variable {W : Watch} {s : State}

@[simp] theorem setRead_good {x1} {x2} {x3} (h : Good W s) :
    Good W (setRead s x1 x2 x3) := by
  simp (maxDischargeDepth := 30) +contextual only [setRead, *, good_upd, implies_true]

@[simp] theorem errorCompletion_good {x1} (h : Good W s) :
    Good W (errorCompletion s x1) := by
  simp (maxDischargeDepth := 30) +contextual only [errorCompletion, *, good_ite, implies_true, and_self,
      mapTicket_good, setRead_good]

@[simp] theorem execPacketInjection_good {x1} {x2} {x3} {x4} {x5} {x6} {x7} {x8} (h : Good W s) :
    nextAll (Good W) (execPacketInjection x1 x2 x3 x4 x5 x6 x7 x8 s) := by
  unfold execPacketInjection
  split <;> simp (maxDischargeDepth := 30) +contextual only [*, good_ite, implies_true, and_self, nextAll_next,
      inject_good, flitsMeet_good, setRead_good, errorCompletion_good]

@[simp] theorem execCreditReturn_good {x1} {x2} (h : Good W s) :
    nextAll (Good W) (execCreditReturn x1 x2 s) := by
  simp (maxDischargeDepth := 30) +contextual only [execCreditReturn, *, good_upd, good_ite, implies_true, and_self,
      nextAll_next, landCredit_good]

@[simp] theorem absorbWrite_good {x1} (h : Good W s) (hts : ∀ x, W.ts x := by assumption) :
    Good W (absorbWrite s x1) := by
  unfold absorbWrite
  split <;> simp (maxDischargeDepth := 30) +contextual only [*, implies_true, received_good, tsWrite_good, setSide_good]

@[simp] theorem execWrite_good {x1} {x2} (h : Good W s) (hts : ∀ x, W.ts x := by assumption) :
    nextAll (Good W) (execWrite x1 x2 s) := by
  unfold execWrite
  refine onUnit_good h fun s h => ?_
  (try dsimp only)
  (repeat' split) <;> simp (maxDischargeDepth := 30) +contextual only [*, implies_true, takePacket_good, absorbWrite_good]

@[simp] theorem execToken_good {x1} {x2} (h : Good W s) :
    nextAll (Good W) (execToken x1 x2 s) := by
  unfold execToken
  refine onUnit_good h fun s h => ?_
  (try dsimp only)
  (repeat' split) <;> simp (maxDischargeDepth := 30) +contextual only [*, takePacket_good, setChanSt_good]

@[simp] theorem execCredit_good {x1} {x2} (h : Good W s) :
    nextAll (Good W) (execCredit x1 x2 s) := by
  unfold execCredit
  refine onUnit_good h fun s h => ?_
  (try dsimp only)
  (repeat' split) <;> simp (maxDischargeDepth := 30) +contextual only [*, takePacket_good, setChanSt_good]

@[simp] theorem execRegWr_good {x1} {x2} (h : Good W s) (hmem : ∀ x, W.mem x := by assumption)
    (hts : ∀ x, W.ts x := by assumption) (hpick : ∀ x, W.pick x := by assumption) :
    nextAll (Good W) (execRegWr x1 x2 s) := by
  unfold execRegWr
  split <;> simp (maxDischargeDepth := 30) +contextual only [*, implies_true, nextAll_next, takePacket_good,
      received_good, regWrite_good]

@[simp] theorem execRegRd_good {x1} {x2} (h : Good W s) (hts : ∀ x, W.ts x := by assumption)
    (hpick : ∀ x, W.pick x := by assumption) :
    nextAll (Good W) (execRegRd x1 x2 s) := by
  unfold execRegRd
  split <;> simp (maxDischargeDepth := 30) +contextual only [*, good_ite, implies_true, and_self, nextAll_next,
      regRead_good, takePacket_good, inject_good]

@[simp] theorem execRegResp_good {x1} {x2} (h : Good W s) :
    nextAll (Good W) (execRegResp x1 x2 s) := by
  unfold execRegResp
  split <;> simp (maxDischargeDepth := 30) +contextual only [*, good_upd, implies_true, nextAll_next, takePacket_good,
      received_good, setRead_good]

@[simp] theorem execTelemetry_good {x1} {x2} (h : Good W s) :
    nextAll (Good W) (execTelemetry x1 x2 s) := by
  unfold execTelemetry
  split <;> simp (maxDischargeDepth := 30) +contextual only [*, nextAll_next, takePacket_good]

end Sys2Proof.Machine
end

