-- ==== Sys2Proof/Laws/GoodWeftExact.lean ====
section
/-! SUPPORT. The operations of Machine/WeftExact.lean keep the queue, the fuses and the canonical form of every store. -/

namespace Sys2Proof.Machine

variable {W : Watch} {s : State}

@[simp] theorem execXclr_good {x1} {x2} {x3} (h : Good W s) (hxa : ∀ x, W.xa x := by assumption) :
    nextAll (Good W) (execXclr x1 x2 x3 s) := by
  simp (maxDischargeDepth := 30) +contextual only [execXclr, *, implies_true, weftSimple_good, setX_good]

@[simp] theorem execXadd_good {x1} {x2} {x3} (h : Good W s) (hxa : ∀ x, W.xa x := by assumption) :
    nextAll (Good W) (execXadd x1 x2 x3 s) := by
  simp (maxDischargeDepth := 30) +contextual only [execXadd, *, implies_true, weftInstr_good, flagged_good, setX_good]

@[simp] theorem execXrd_good {x1} {x2} {x3} (h : Good W s) (hvreg : ∀ x, W.vreg x := by assumption) :
    nextAll (Good W) (execXrd x1 x2 x3 s) := by
  simp (maxDischargeDepth := 30) +contextual only [execXrd, *, implies_true, weftInstr_good, flagged_good, setV_good]

@[simp] theorem execXsum_good {x1} {x2} {x3} (h : Good W s) (hsreg : ∀ x, W.sreg x := by assumption) :
    nextAll (Good W) (execXsum x1 x2 x3 s) := by
  simp (maxDischargeDepth := 30) +contextual only [execXsum, *, implies_true, weftInstr_good, flagged_good, setS_good]

@[simp] theorem execXst_good {t f e} (h : Good W s)
    (hts : ∀ x, W.ts x := by assumption) : nextAll (Good W) (execXst t f e s) := by
  unfold execXst
  refine weftInstr_good h ?_
  intro s n h
  dsimp only
  generalize effAddr s t f.rb f = a
  generalize hk : (fun (_ : Unit) => WRes.done _ _) = k
  have hk : ∀ y, resAll (Good W) (k y) := by
    intro y
    rw [← hk, resAll_done]
    refine tsWrite_good ?_
    split
    · exact h
    · exact freeBytes_good h
  have := @withAccess_good W s 4 a 3072 64 [] k h hk
  exact this

@[simp] theorem withImage_good {x1} {x2} {x3} {k4 : List XLane → WRes} (h : Good W s) (hk : ∀ y0, resAll (Good W) (k4 y0)) :
    resAll (Good W) (withImage s x1 x2 x3 k4) := by
  simp (maxDischargeDepth := 30) +contextual only [withImage, *, implies_true, and_self, resAll_trap, resAll_ite,
      withAccess_good]

@[simp] theorem execXld_good {t f e} (h : Good W s)
    (hxa : ∀ x, W.xa x := by assumption) : nextAll (Good W) (execXld t f e s) := by
  unfold execXld
  refine weftInstr_good h ?_
  intro s n h
  have := @withImage_good W s t f e.bad (fun ls => .done (setX s t f.rd ls) none) h fun _ => by simp [*]
  exact this

@[simp] theorem execXacc_good {t f e} (h : Good W s) (hxa : ∀ x, W.xa x := by assumption) :
    nextAll (Good W) (execXacc t f e s) := by
  unfold execXacc
  refine weftInstr_good h fun s g h => withImage_good h fun ls => ?_
  dsimp only
  refine flagged_good h fun u hu => ?_
  exact setX_good hu

end Sys2Proof.Machine
end

