-- ==== Sys2Proof/Laws/GoodWeftMacro.lean ====
section
/-! SUPPORT. The operations of Machine/WeftMacro.lean keep the queue, the fuses and the canonical form of every store. -/

namespace Sys2Proof.Machine

variable {W : Watch} {s : State}

@[simp] theorem execMxw_good {x1} {x2} {x3} (h : Good W s) :
    nextAll (Good W) (execMxw x1 x2 x3 s) := by
  simp (maxDischargeDepth := 30) +contextual only [execMxw, *, implies_true, and_self, resAll_done, resAll_ite,
      weftInstr_good, withAccess_good, spoilPage_good, writePage_good]

@[simp] theorem execMxwf8_good {x1} {x2} {x3} (h : Good W s) :
    nextAll (Good W) (execMxwf8 x1 x2 x3 s) := by
  simp (maxDischargeDepth := 30) +contextual only [execMxwf8, *, implies_true, and_self, good_foldl, resAll_done,
      resAll_ite, good_ite, setRegBit_good, weftInstr_good, withAccess_good, spoilPage_good, writeF8Set_good,
      countUp_good]

@[simp] theorem execMxs_good {x1} {x2} {x3} (h : Good W s) :
    nextAll (Good W) (execMxs x1 x2 x3 s) := by
  unfold execMxs
  refine weftInstr_good h fun s g h => ?_
  dsimp only
  split
  · simp only [resAll_trap, setRegBit_good, h]
  · rw [resAll_done]
    apply good_upd h <;> try first | exact id | exact fun _ k => k
    intro k hs
    have hl : ∀ (ms : List Nat) (v : Option (Nat × Nat)) (l : Sparse (Option (Nat × Nat))), swf dSel l = true →
        swf dSel (ms.foldl (fun l m => sset dSel (16 * x1 + m) v l) l) = true := by
      intro ms v
      induction ms with
      | nil => exact fun l h => h
      | cons m ms ih => exact fun l h => ih _ (swf_sset h)
    exact hl _ _ _ hs

@[simp] theorem weftBlock_good {x1} {x2} {x3} {x4} {b} {x5} (h : Good W b.st) :
    Good W (weftBlock x1 x2 x3 x4 b x5).st := by
  simp (maxDischargeDepth := 30) +contextual only [weftBlock, *, countUp_good, clearSlots_good, setChanSt_good,
      returnCredit_good, seqAdvance_good]

@[simp] theorem jobSat_good {x1} {x2} (h : Good W s) :
    Good W (jobSat s x1 x2) := by
  simp (maxDischargeDepth := 30) +contextual only [jobSat, *, good_ite, implies_true, and_self, raise_good, setCore_good]

@[simp] theorem stepDone_good {x1} {x2} {o} {x3} (h : Good W o.st) :
    resAll (Good W) (stepDone x1 x2 o x3) := by
  unfold stepDone
  (repeat' split) <;> simp (maxDischargeDepth := 30) +contextual only [*, resAll_done, resAll_trap, applyStep_good,
      jobSat_good, setRegBit_good]

theorem weftBlocks_good {x1 x2 x3 x4 l} {b : BlocksIn} (h : Good W b.st) :
    Good W (List.foldl (weftBlock x1 x2 x3 x4) b l).st := by
  induction l generalizing b with
  | nil => exact h
  | cons i l ih => exact ih (weftBlock_good h)

@[simp] theorem stepTrapFlag_good {x1} {x2} (h : Good W s) : Good W (stepTrapFlag s x1 x2) := by
  simp (maxDischargeDepth := 30) +contextual only [stepTrapFlag, *, good_ite, implies_true, and_self, setRegBit_good]

@[simp] theorem pairWait_good {x1} {x2} {x3} (h : Good W s) :
    resAll (Good W) (pairWait s x1 x2 x3) := by
  simp (maxDischargeDepth := 30) +contextual only [pairWait, *, implies_true, and_self, resAll_trap, resAll_wait,
      resAll_ite]

@[simp] theorem execMxr_good {t f e} (h : Good W s) : nextAll (Good W) (execMxr t f e s) := by
  unfold execMxr
  refine weftInstr_good h fun s n h => ?_
  dsimp only
  refine withAccess_good h fun _ => ?_
  split
  · simp [h]
  · generalize hl : (List.map _ _ : List (Nat × Nat × Nat)) = sets
    split
    · exact pairWait_good h
    split
    · simp [h]
    · split
      · exact stepDone_good (intStep_good h)
      · split
        · simp [h]
        · exact stepDone_good (blockStep_good (weftBlocks_good h))

@[simp] theorem execMxc_good {x1} {x2} {x3} (h : Good W s) :
    nextAll (Good W) (execMxc x1 x2 x3 s) := by
  simp (maxDischargeDepth := 30) +contextual only [execMxc, *, implies_true, weftSimple_good, clearBank_good]

@[simp] theorem execAccrd_good {x1} {x2} {x3} (h : Good W s) (hvreg : ∀ x, W.vreg x := by assumption) :
    nextAll (Good W) (execAccrd x1 x2 x3 s) := by
  simp (maxDischargeDepth := 30) +contextual only [execAccrd, *, implies_true, weftSimple_good, setV_good]

@[simp] theorem execAccsat_good {x1} {x2} {x3} (h : Good W s) (hpreg : ∀ x, W.preg x := by assumption) :
    nextAll (Good W) (execAccsat x1 x2 x3 s) := by
  simp (maxDischargeDepth := 30) +contextual only [execAccsat, *, implies_true, weftSimple_good, setPLanes_good]

@[simp] theorem execAccwr_good {x1} {x2} {x3} (h : Good W s) :
    nextAll (Good W) (execAccwr x1 x2 x3 s) := by
  simp (maxDischargeDepth := 30) +contextual only [execAccwr, *, good_ite, implies_true, and_self, good_foldl,
      weftSimple_good, setLaneSat_good]

@[simp] theorem sendSlots_good {x1} {x2} {x3} {x4} {x5} {x6} (h : Good W s) :
    Good W (sendSlots s x1 x2 x3 x4 x5 x6) := by
  unfold sendSlots
  split <;> simp (maxDischargeDepth := 30) +contextual only [*, injectWrites_good, sendToken_good, takeCredit_good,
      setChanSt_good]

@[simp] theorem vqBegin_good {x1} {x2} {x3} (h : Good W s) (hts : ∀ x, W.ts x := by assumption) :
    Good W (vqBegin s x1 x2 x3).1 := by
  unfold vqBegin
  split <;> simp (maxDischargeDepth := 30) +contextual only [*, implies_true, tsWrite_good]

/-- `P` holds of the state that a pass over blocks leaves. -/
def vqAll (P : State → Prop) : VqRes → Prop
  | .sent s _ => P s
  | .stopped s _ _ => P s

theorem vqBlock_good {t a d f z ys p} (h : Good W s) (hts : ∀ x, W.ts x := by assumption) :
    vqAll (Good W) (vqBlock t a d f z ys s p) := by
  unfold vqBlock
  dsimp only
  (repeat' split) <;>
    simp (maxDischargeDepth := 30) only [vqAll, *, implies_true, sendSlots_good, seqAdvance_good, countUp_good,
        tsWrite_good,
      setCore_good]

theorem vqRun_good {t a d f z ys n p} (h : Good W s) (hts : ∀ x, W.ts x := by assumption) :
    vqAll (Good W) (vqRun t a d f z ys n s p) := by
  induction n generalizing s p with
  | zero => exact h
  | succ n ih =>
    unfold vqRun
    have hb := vqBlock_good (t := t) (a := a) (d := d) (f := f) (z := z) (ys := ys) (p := p) h
    revert hb
    split
    · rename_i e
      rw [e]
      exact fun hb => ih hb
    · exact id

@[simp] theorem vqBlocks_good {t a d r z ys} (h : Good W s) (hts : ∀ x, W.ts x := by assumption) :
    resAll (Good W) (vqBlocks s t a d r z ys) := by
  unfold vqBlocks
  extract_lets b
  have hb : Good W b.1 := vqBegin_good h
  have hr := vqRun_good (t := t) (a := a) (d := d) (f := r.fmt) (z := z) (ys := ys) (n := d.count / 32 - b.2.next)
    (p := b.2) hb
  revert hr
  split <;> rename_i e <;> rw [e] <;> intro hr
  · rw [resAll_done]
    exact setCore_good (tsWrite_good (good_foldl hr fun s b h => tsWrite_good h))
  · rw [resAll_wait]
    exact setCore_good hr
  · rw [resAll_trap]
    exact tsWrite_good hr

@[simp] theorem vqPasses_good {x1} {x2} {x3} {x4} {x5} {x6} (h : Good W s) (hts : ∀ x, W.ts x := by assumption) :
    resAll (Good W) (vqPasses s x1 x2 x3 x4 x5 x6) := by
  unfold vqPasses
  (repeat' split) <;> simp (maxDischargeDepth := 30) +contextual only [*, implies_true, and_self, resAll_done,
      resAll_trap, resAll_ite, vqBlocks_good, tsWrite_good, countUp_good]

@[simp] theorem execVqnt_good {x1} {x2} {x3} (h : Good W s) (hts : ∀ x, W.ts x := by assumption) :
    nextAll (Good W) (execVqnt x1 x2 x3 s) := by
  unfold execVqnt
  refine weftInstr_good h fun s g h => ?_
  refine withAccess_good h fun _ => ?_
  (try dsimp only)
  (repeat' split) <;> simp (maxDischargeDepth := 30) +contextual only [*, implies_true, resAll_trap, vqPasses_good]

end Sys2Proof.Machine
end

