-- ==== Sys2Proof/Laws/GoodWeftVector.lean ====
section
/-! SUPPORT. The operations of Machine/WeftVector.lean keep the queue, the fuses and the canonical form of every store. -/

namespace Sys2Proof.Machine

variable {W : Watch} {s : State}

@[simp] theorem laneOp_good {x1} {x2} {x3} {x4} {x5} (h : Good W s) (hvreg : ∀ x, W.vreg x := by assumption) :
    nextAll (Good W) (laneOp x1 x2 x3 x4 s x5) := by
  simp (maxDischargeDepth := 30) +contextual only [laneOp, *, implies_true, weftSimple_good, setV_good]

@[simp] theorem execVadd_good {x1} {x2} {x3} (h : Good W s) (hvreg : ∀ x, W.vreg x := by assumption) :
    nextAll (Good W) (execVadd x1 x2 x3 s) := by
  simp (maxDischargeDepth := 30) +contextual only [execVadd, *, implies_true, laneOp_good]

@[simp] theorem execVsub_good {x1} {x2} {x3} (h : Good W s) (hvreg : ∀ x, W.vreg x := by assumption) :
    nextAll (Good W) (execVsub x1 x2 x3 s) := by
  simp (maxDischargeDepth := 30) +contextual only [execVsub, *, implies_true, laneOp_good]

@[simp] theorem execVadds_good {x1} {x2} {x3} (h : Good W s) (hvreg : ∀ x, W.vreg x := by assumption) :
    nextAll (Good W) (execVadds x1 x2 x3 s) := by
  simp (maxDischargeDepth := 30) +contextual only [execVadds, *, implies_true, laneOp_good]

@[simp] theorem execVsubs_good {x1} {x2} {x3} (h : Good W s) (hvreg : ∀ x, W.vreg x := by assumption) :
    nextAll (Good W) (execVsubs x1 x2 x3 s) := by
  simp (maxDischargeDepth := 30) +contextual only [execVsubs, *, implies_true, laneOp_good]

@[simp] theorem execVmul_good {x1} {x2} {x3} (h : Good W s) (hvreg : ∀ x, W.vreg x := by assumption) :
    nextAll (Good W) (execVmul x1 x2 x3 s) := by
  simp (maxDischargeDepth := 30) +contextual only [execVmul, *, implies_true, laneOp_good]

@[simp] theorem execVmuls_good {x1} {x2} {x3} (h : Good W s) (hvreg : ∀ x, W.vreg x := by assumption) :
    nextAll (Good W) (execVmuls x1 x2 x3 s) := by
  simp (maxDischargeDepth := 30) +contextual only [execVmuls, *, implies_true, laneOp_good]

@[simp] theorem execVand_good {x1} {x2} {x3} (h : Good W s) (hvreg : ∀ x, W.vreg x := by assumption) :
    nextAll (Good W) (execVand x1 x2 x3 s) := by
  simp (maxDischargeDepth := 30) +contextual only [execVand, *, implies_true, laneOp_good]

@[simp] theorem execVor_good {x1} {x2} {x3} (h : Good W s) (hvreg : ∀ x, W.vreg x := by assumption) :
    nextAll (Good W) (execVor x1 x2 x3 s) := by
  simp (maxDischargeDepth := 30) +contextual only [execVor, *, implies_true, laneOp_good]

@[simp] theorem execVxor_good {x1} {x2} {x3} (h : Good W s) (hvreg : ∀ x, W.vreg x := by assumption) :
    nextAll (Good W) (execVxor x1 x2 x3 s) := by
  simp (maxDischargeDepth := 30) +contextual only [execVxor, *, implies_true, laneOp_good]

@[simp] theorem execVshl_good {x1} {x2} {x3} (h : Good W s) (hvreg : ∀ x, W.vreg x := by assumption) :
    nextAll (Good W) (execVshl x1 x2 x3 s) := by
  simp (maxDischargeDepth := 30) +contextual only [execVshl, *, implies_true, laneOp_good]

@[simp] theorem execVshr_good {x1} {x2} {x3} (h : Good W s) (hvreg : ∀ x, W.vreg x := by assumption) :
    nextAll (Good W) (execVshr x1 x2 x3 s) := by
  simp (maxDischargeDepth := 30) +contextual only [execVshr, *, implies_true, laneOp_good]

@[simp] theorem execVsra_good {x1} {x2} {x3} (h : Good W s) (hvreg : ∀ x, W.vreg x := by assumption) :
    nextAll (Good W) (execVsra x1 x2 x3 s) := by
  simp (maxDischargeDepth := 30) +contextual only [execVsra, *, implies_true, laneOp_good]

@[simp] theorem execVmin_good {x1} {x2} {x3} (h : Good W s) (hvreg : ∀ x, W.vreg x := by assumption) :
    nextAll (Good W) (execVmin x1 x2 x3 s) := by
  simp (maxDischargeDepth := 30) +contextual only [execVmin, *, implies_true, laneOp_good]

@[simp] theorem execVmax_good {x1} {x2} {x3} (h : Good W s) (hvreg : ∀ x, W.vreg x := by assumption) :
    nextAll (Good W) (execVmax x1 x2 x3 s) := by
  simp (maxDischargeDepth := 30) +contextual only [execVmax, *, implies_true, laneOp_good]

@[simp] theorem execVcmp_good {x1} {x2} {x3} (h : Good W s) (hpreg : ∀ x, W.preg x := by assumption) :
    nextAll (Good W) (execVcmp x1 x2 x3 s) := by
  simp (maxDischargeDepth := 30) +contextual only [execVcmp, *, implies_true, weftSimple_good, setPLanes_good]

@[simp] theorem execVsel_good {x1} {x2} {x3} (h : Good W s) (hvreg : ∀ x, W.vreg x := by assumption) :
    nextAll (Good W) (execVsel x1 x2 x3 s) := by
  simp (maxDischargeDepth := 30) +contextual only [execVsel, *, implies_true, weftSimple_good, setV_good]

@[simp] theorem fpLanes_good {x1} {x2} {x3} {x4} (h : Good W s) (hvreg : ∀ x, W.vreg x := by assumption) :
    resAll (Good W) (fpLanes s x1 x2 x3 x4) := by
  simp (maxDischargeDepth := 30) +contextual only [fpLanes, *, implies_true, flagged_good, setV_good]

@[simp] theorem fpBinary_good {x1} {x2} {x3} {x4} {x5} (h : Good W s) (hvreg : ∀ x, W.vreg x := by assumption) :
    nextAll (Good W) (fpBinary x1 x2 x3 x4 s x5) := by
  simp (maxDischargeDepth := 30) +contextual only [fpBinary, *, implies_true, weftInstr_good, fpLanes_good]

@[simp] theorem execVfadd_good {x1} {x2} {x3} (h : Good W s) (hvreg : ∀ x, W.vreg x := by assumption) :
    nextAll (Good W) (execVfadd x1 x2 x3 s) := by
  simp (maxDischargeDepth := 30) +contextual only [execVfadd, *, implies_true, fpBinary_good]

@[simp] theorem execVfsub_good {x1} {x2} {x3} (h : Good W s) (hvreg : ∀ x, W.vreg x := by assumption) :
    nextAll (Good W) (execVfsub x1 x2 x3 s) := by
  simp (maxDischargeDepth := 30) +contextual only [execVfsub, *, implies_true, fpBinary_good]

@[simp] theorem execVfmul_good {x1} {x2} {x3} (h : Good W s) (hvreg : ∀ x, W.vreg x := by assumption) :
    nextAll (Good W) (execVfmul x1 x2 x3 s) := by
  simp (maxDischargeDepth := 30) +contextual only [execVfmul, *, implies_true, fpBinary_good]

@[simp] theorem execVfmax_good {x1} {x2} {x3} (h : Good W s) (hvreg : ∀ x, W.vreg x := by assumption) :
    nextAll (Good W) (execVfmax x1 x2 x3 s) := by
  simp (maxDischargeDepth := 30) +contextual only [execVfmax, *, implies_true, fpBinary_good]

@[simp] theorem execVfmin_good {x1} {x2} {x3} (h : Good W s) (hvreg : ∀ x, W.vreg x := by assumption) :
    nextAll (Good W) (execVfmin x1 x2 x3 s) := by
  simp (maxDischargeDepth := 30) +contextual only [execVfmin, *, implies_true, fpBinary_good]

@[simp] theorem execVfma_good {x1} {x2} {x3} (h : Good W s) (hvreg : ∀ x, W.vreg x := by assumption) :
    nextAll (Good W) (execVfma x1 x2 x3 s) := by
  simp (maxDischargeDepth := 30) +contextual only [execVfma, *, implies_true, weftInstr_good, fpLanes_good]

@[simp] theorem execVfcmp_good {x1} {x2} {x3} (h : Good W s) (hpreg : ∀ x, W.preg x := by assumption) :
    nextAll (Good W) (execVfcmp x1 x2 x3 s) := by
  simp (maxDischargeDepth := 30) +contextual only [execVfcmp, *, implies_true, weftInstr_good, flagged_good, setPLanes_good]

@[simp] theorem execVfabs_good {x1} {x2} {x3} (h : Good W s) (hvreg : ∀ x, W.vreg x := by assumption) :
    nextAll (Good W) (execVfabs x1 x2 x3 s) := by
  simp (maxDischargeDepth := 30) +contextual only [execVfabs, *, implies_true, resAll_done, weftInstr_good, setV_good]

@[simp] theorem fpUnary_good {x1} {x2} {x3} {x4} {x5} (h : Good W s) (hvreg : ∀ x, W.vreg x := by assumption) :
    nextAll (Good W) (fpUnary x1 x2 x3 x4 s x5) := by
  simp (maxDischargeDepth := 30) +contextual only [fpUnary, *, implies_true, weftInstr_good, fpLanes_good]

@[simp] theorem execVexp2_good {x1} {x2} {x3} (h : Good W s) (hvreg : ∀ x, W.vreg x := by assumption) :
    nextAll (Good W) (execVexp2 x1 x2 x3 s) := by
  simp (maxDischargeDepth := 30) +contextual only [execVexp2, *, implies_true, fpUnary_good]

@[simp] theorem execVlog2_good {x1} {x2} {x3} (h : Good W s) (hvreg : ∀ x, W.vreg x := by assumption) :
    nextAll (Good W) (execVlog2 x1 x2 x3 s) := by
  simp (maxDischargeDepth := 30) +contextual only [execVlog2, *, implies_true, fpUnary_good]

@[simp] theorem execVrcp_good {x1} {x2} {x3} (h : Good W s) (hvreg : ∀ x, W.vreg x := by assumption) :
    nextAll (Good W) (execVrcp x1 x2 x3 s) := by
  simp (maxDischargeDepth := 30) +contextual only [execVrcp, *, implies_true, fpUnary_good]

@[simp] theorem execVrsq_good {x1} {x2} {x3} (h : Good W s) (hvreg : ∀ x, W.vreg x := by assumption) :
    nextAll (Good W) (execVrsq x1 x2 x3 s) := by
  simp (maxDischargeDepth := 30) +contextual only [execVrsq, *, implies_true, fpUnary_good]

@[simp] theorem execVfred_good {x1} {x2} {x3} (h : Good W s) (hsreg : ∀ x, W.sreg x := by assumption) :
    nextAll (Good W) (execVfred x1 x2 x3 s) := by
  simp (maxDischargeDepth := 30) +contextual only [execVfred, *, implies_true, weftInstr_good, flagged_good, setS_good]

@[simp] theorem execVbcst_good {x1} {x2} {x3} (h : Good W s) (hvreg : ∀ x, W.vreg x := by assumption) :
    nextAll (Good W) (execVbcst x1 x2 x3 s) := by
  simp (maxDischargeDepth := 30) +contextual only [execVbcst, *, implies_true, weftSimple_good, setV_good]

@[simp] theorem execVext_good {x1} {x2} {x3} (h : Good W s) (hsreg : ∀ x, W.sreg x := by assumption) :
    nextAll (Good W) (execVext x1 x2 x3 s) := by
  simp (maxDischargeDepth := 30) +contextual only [execVext, *, implies_true, weftSimple_good, setS_good]

@[simp] theorem execVins_good {x1} {x2} {x3} (h : Good W s) (hvreg : ∀ x, W.vreg x := by assumption) :
    nextAll (Good W) (execVins x1 x2 x3 s) := by
  simp (maxDischargeDepth := 30) +contextual only [execVins, *, implies_true, weftSimple_good, setV_good]

@[simp] theorem execVperm_good {x1} {x2} {x3} (h : Good W s) (hvreg : ∀ x, W.vreg x := by assumption) :
    nextAll (Good W) (execVperm x1 x2 x3 s) := by
  simp (maxDischargeDepth := 30) +contextual only [execVperm, *, implies_true, weftSimple_good, setV_good]

@[simp] theorem execViota_good {x1} {x2} {x3} (h : Good W s) (hvreg : ∀ x, W.vreg x := by assumption) :
    nextAll (Good W) (execViota x1 x2 x3 s) := by
  simp (maxDischargeDepth := 30) +contextual only [execViota, *, implies_true, weftSimple_good, setV_good]

@[simp] theorem execVired_good {x1} {x2} {x3} (h : Good W s) (hsreg : ∀ x, W.sreg x := by assumption) :
    nextAll (Good W) (execVired x1 x2 x3 s) := by
  simp (maxDischargeDepth := 30) +contextual only [execVired, *, implies_true, weftSimple_good, setS_good]

@[simp] theorem execVcvt_good {x1} {x2} {x3} (h : Good W s) (hvreg : ∀ x, W.vreg x := by assumption) :
    nextAll (Good W) (execVcvt x1 x2 x3 s) := by
  unfold execVcvt
  split <;> simp (maxDischargeDepth := 30) +contextual only [*, implies_true, resAll_done, weftInstr_good, fpLanes_good]

@[simp] theorem execVrng_good {x1} {x2} {x3} (h : Good W s) (hvreg : ∀ x, W.vreg x := by assumption) :
    nextAll (Good W) (execVrng x1 x2 x3 s) := by
  simp (maxDischargeDepth := 30) +contextual only [execVrng, *, implies_true, weftSimple_good, setV_good]

end Sys2Proof.Machine
end

