-- ==== Sys2Proof/Laws/Keccak.lean ====
section
/-! SUPPORT. Little-endian bytes, and the lengths of what Keccak gives. -/

namespace Sys2Proof.Machine

@[simp] theorem leBytes_length (n v : Nat) : (leBytes n v).length = n := by
  induction n generalizing v with
  | zero => rfl
  | succ n ih => simp [leBytes, ih]

/-- The front of a list of bytes reads as it is. -/
theorem slice_front {a b : List Byte} {n : Nat} (h : a.length = n) : slice (a ++ b) 0 n = a := by
  subst h
  simp [slice, padTo]

/-- A number in `n` little-endian bytes reads back modulo 256^n. -/
theorem ofLe_leBytes (n v : Nat) : ofLe (leBytes n v) = v % 256 ^ n := by
  induction n generalizing v with
  | zero => simp [leBytes, ofLe, Nat.mod_one]
  | succ n ih =>
    have h : (BitVec.ofNat 8 v).toNat = v % 256 := by simp
    rw [leBytes, ofLe, ih, h, Nat.pow_succ, Nat.mul_comm (256 ^ n), Nat.mod_mul]

theorem squeeze_length (r n a : Nat) : (squeeze r n a).length = n * r := by
  induction n generalizing a with
  | zero => simp [squeeze]
  | succ n ih => simp [squeeze, ih, Nat.succ_mul, Nat.add_comm]

/-- A sponge gives as many bytes as are asked of it. -/
theorem sponge_length {r x n : Nat} {msg : List Byte} (h0 : 0 < r) : (sponge r x n msg).length = n := by
  have := Nat.lt_mul_div_succ n h0
  rw [Nat.mul_comm] at this
  simp only [sponge, List.length_take, squeeze_length]
  omega

@[simp] theorem kmac256_length {key msg cust : List Byte} {n : Nat} : (kmac256 key msg n cust).length = n :=
  sponge_length (by decide)

@[simp] theorem shake256_length {msg : List Byte} {n : Nat} : (shake256 n msg).length = n :=
  sponge_length (by decide)

@[simp] theorem sha3_256_length {msg : List Byte} : (sha3_256 msg).length = 32 := sponge_length (by decide)

end Sys2Proof.Machine
end

