-- ==== Sys2Proof/Laws/State.lean ====
section
/-! SUPPORT. What each named update of the state leaves alone: every field but its own. The lemmas are true by unfolding
one definition and carry @[simp], so that no later proof unfolds a record update. -/

namespace Sys2Proof.Machine

variable {s : State}

@[simp] theorem setReg_rest {a v} :
    (setReg s a v).pending = s.pending ∧ (setReg s a v).freeCtr = s.freeCtr ∧ (setReg s a v).readData = s.readData ∧
    (setReg s a v).fuse = s.fuse ∧ (setReg s a v).pins = s.pins ∧ (setReg s a v).latch = s.latch ∧
    (setReg s a v).staging = s.staging ∧ (setReg s a v).rwlLock = s.rwlLock ∧ (setReg s a v).tb = s.tb ∧
    (setReg s a v).bm = s.bm ∧ (setReg s a v).tr = s.tr ∧ (setReg s a v).bb = s.bb ∧ (setReg s a v).ob = s.ob ∧
    (setReg s a v).cx = s.cx ∧ (setReg s a v).image = s.image ∧ (setReg s a v).jobs = s.jobs ∧
    (setReg s a v).marks = s.marks ∧ (setReg s a v).dmap = s.dmap ∧ (setReg s a v).ts = s.ts ∧
    (setReg s a v).tile = s.tile ∧ (setReg s a v).warp = s.warp ∧ (setReg s a v).weft = s.weft ∧
    (setReg s a v).sched = s.sched ∧ (setReg s a v).rd = s.rd ∧ (setReg s a v).kw = s.kw ∧ (setReg s a v).pm = s.pm ∧
    (setReg s a v).snap = s.snap ∧ (setReg s a v).kp = s.kp := 
  ⟨rfl, rfl, rfl, rfl, rfl, rfl, rfl, rfl, rfl, rfl, rfl, rfl, rfl, rfl, rfl, rfl, rfl, rfl, rfl, rfl, rfl, rfl, rfl, rfl, rfl, rfl, rfl, rfl⟩

@[simp] theorem setF_rest {a hi lo v} :
    (setF s a hi lo v).pending = s.pending ∧ (setF s a hi lo v).freeCtr = s.freeCtr ∧
    (setF s a hi lo v).readData = s.readData ∧ (setF s a hi lo v).fuse = s.fuse ∧ (setF s a hi lo v).pins = s.pins ∧
    (setF s a hi lo v).latch = s.latch ∧ (setF s a hi lo v).staging = s.staging ∧
    (setF s a hi lo v).rwlLock = s.rwlLock ∧ (setF s a hi lo v).tb = s.tb ∧ (setF s a hi lo v).bm = s.bm ∧
    (setF s a hi lo v).tr = s.tr ∧ (setF s a hi lo v).bb = s.bb ∧ (setF s a hi lo v).ob = s.ob ∧
    (setF s a hi lo v).cx = s.cx ∧ (setF s a hi lo v).image = s.image ∧ (setF s a hi lo v).jobs = s.jobs ∧
    (setF s a hi lo v).marks = s.marks ∧ (setF s a hi lo v).dmap = s.dmap ∧ (setF s a hi lo v).ts = s.ts ∧
    (setF s a hi lo v).tile = s.tile ∧ (setF s a hi lo v).warp = s.warp ∧ (setF s a hi lo v).weft = s.weft ∧
    (setF s a hi lo v).sched = s.sched ∧ (setF s a hi lo v).rd = s.rd ∧ (setF s a hi lo v).kw = s.kw ∧
    (setF s a hi lo v).pm = s.pm ∧ (setF s a hi lo v).snap = s.snap ∧ (setF s a hi lo v).kp = s.kp := 
  ⟨rfl, rfl, rfl, rfl, rfl, rfl, rfl, rfl, rfl, rfl, rfl, rfl, rfl, rfl, rfl, rfl, rfl, rfl, rfl, rfl, rfl, rfl, rfl, rfl, rfl, rfl, rfl, rfl⟩

@[simp] theorem setRegBit_rest {a n b} :
    (setRegBit s a n b).pending = s.pending ∧ (setRegBit s a n b).freeCtr = s.freeCtr ∧
    (setRegBit s a n b).readData = s.readData ∧ (setRegBit s a n b).fuse = s.fuse ∧
    (setRegBit s a n b).pins = s.pins ∧ (setRegBit s a n b).latch = s.latch ∧
    (setRegBit s a n b).staging = s.staging ∧ (setRegBit s a n b).rwlLock = s.rwlLock ∧
    (setRegBit s a n b).tb = s.tb ∧ (setRegBit s a n b).bm = s.bm ∧ (setRegBit s a n b).tr = s.tr ∧
    (setRegBit s a n b).bb = s.bb ∧ (setRegBit s a n b).ob = s.ob ∧ (setRegBit s a n b).cx = s.cx ∧
    (setRegBit s a n b).image = s.image ∧ (setRegBit s a n b).jobs = s.jobs ∧ (setRegBit s a n b).marks = s.marks ∧
    (setRegBit s a n b).dmap = s.dmap ∧ (setRegBit s a n b).ts = s.ts ∧ (setRegBit s a n b).tile = s.tile ∧
    (setRegBit s a n b).warp = s.warp ∧ (setRegBit s a n b).weft = s.weft ∧ (setRegBit s a n b).sched = s.sched ∧
    (setRegBit s a n b).rd = s.rd ∧ (setRegBit s a n b).kw = s.kw ∧ (setRegBit s a n b).pm = s.pm ∧
    (setRegBit s a n b).snap = s.snap ∧ (setRegBit s a n b).kp = s.kp := 
  ⟨rfl, rfl, rfl, rfl, rfl, rfl, rfl, rfl, rfl, rfl, rfl, rfl, rfl, rfl, rfl, rfl, rfl, rfl, rfl, rfl, rfl, rfl, rfl, rfl, rfl, rfl, rfl, rfl⟩

@[simp] theorem setReg64_rest {a v} :
    (setReg64 s a v).pending = s.pending ∧ (setReg64 s a v).freeCtr = s.freeCtr ∧
    (setReg64 s a v).readData = s.readData ∧ (setReg64 s a v).fuse = s.fuse ∧ (setReg64 s a v).pins = s.pins ∧
    (setReg64 s a v).latch = s.latch ∧ (setReg64 s a v).staging = s.staging ∧ (setReg64 s a v).rwlLock = s.rwlLock ∧
    (setReg64 s a v).tb = s.tb ∧ (setReg64 s a v).bm = s.bm ∧ (setReg64 s a v).tr = s.tr ∧
    (setReg64 s a v).bb = s.bb ∧ (setReg64 s a v).ob = s.ob ∧ (setReg64 s a v).cx = s.cx ∧
    (setReg64 s a v).image = s.image ∧ (setReg64 s a v).jobs = s.jobs ∧ (setReg64 s a v).marks = s.marks ∧
    (setReg64 s a v).dmap = s.dmap ∧ (setReg64 s a v).ts = s.ts ∧ (setReg64 s a v).tile = s.tile ∧
    (setReg64 s a v).warp = s.warp ∧ (setReg64 s a v).weft = s.weft ∧ (setReg64 s a v).sched = s.sched ∧
    (setReg64 s a v).rd = s.rd ∧ (setReg64 s a v).kw = s.kw ∧ (setReg64 s a v).pm = s.pm ∧
    (setReg64 s a v).snap = s.snap ∧ (setReg64 s a v).kp = s.kp := 
  ⟨rfl, rfl, rfl, rfl, rfl, rfl, rfl, rfl, rfl, rfl, rfl, rfl, rfl, rfl, rfl, rfl, rfl, rfl, rfl, rfl, rfl, rfl, rfl, rfl, rfl, rfl, rfl, rfl⟩

@[simp] theorem setRegN_rest {a v} :
    (setRegN s a v).pending = s.pending ∧ (setRegN s a v).freeCtr = s.freeCtr ∧
    (setRegN s a v).readData = s.readData ∧ (setRegN s a v).fuse = s.fuse ∧ (setRegN s a v).pins = s.pins ∧
    (setRegN s a v).latch = s.latch ∧ (setRegN s a v).staging = s.staging ∧ (setRegN s a v).rwlLock = s.rwlLock ∧
    (setRegN s a v).tb = s.tb ∧ (setRegN s a v).bm = s.bm ∧ (setRegN s a v).tr = s.tr ∧ (setRegN s a v).bb = s.bb ∧
    (setRegN s a v).ob = s.ob ∧ (setRegN s a v).cx = s.cx ∧ (setRegN s a v).image = s.image ∧
    (setRegN s a v).jobs = s.jobs ∧ (setRegN s a v).marks = s.marks ∧ (setRegN s a v).dmap = s.dmap ∧
    (setRegN s a v).ts = s.ts ∧ (setRegN s a v).tile = s.tile ∧ (setRegN s a v).warp = s.warp ∧
    (setRegN s a v).weft = s.weft ∧ (setRegN s a v).sched = s.sched ∧ (setRegN s a v).rd = s.rd ∧
    (setRegN s a v).kw = s.kw ∧ (setRegN s a v).pm = s.pm ∧ (setRegN s a v).snap = s.snap ∧ (setRegN s a v).kp = s.kp := 
  ⟨rfl, rfl, rfl, rfl, rfl, rfl, rfl, rfl, rfl, rfl, rfl, rfl, rfl, rfl, rfl, rfl, rfl, rfl, rfl, rfl, rfl, rfl, rfl, rfl, rfl, rfl, rfl, rfl⟩

@[simp] theorem countUp_rest {a n} :
    (countUp s a n).pending = s.pending ∧ (countUp s a n).freeCtr = s.freeCtr ∧
    (countUp s a n).readData = s.readData ∧ (countUp s a n).fuse = s.fuse ∧ (countUp s a n).pins = s.pins ∧
    (countUp s a n).latch = s.latch ∧ (countUp s a n).staging = s.staging ∧ (countUp s a n).rwlLock = s.rwlLock ∧
    (countUp s a n).tb = s.tb ∧ (countUp s a n).bm = s.bm ∧ (countUp s a n).tr = s.tr ∧ (countUp s a n).bb = s.bb ∧
    (countUp s a n).ob = s.ob ∧ (countUp s a n).cx = s.cx ∧ (countUp s a n).image = s.image ∧
    (countUp s a n).jobs = s.jobs ∧ (countUp s a n).marks = s.marks ∧ (countUp s a n).dmap = s.dmap ∧
    (countUp s a n).ts = s.ts ∧ (countUp s a n).tile = s.tile ∧ (countUp s a n).warp = s.warp ∧
    (countUp s a n).weft = s.weft ∧ (countUp s a n).sched = s.sched ∧ (countUp s a n).rd = s.rd ∧
    (countUp s a n).kw = s.kw ∧ (countUp s a n).pm = s.pm ∧ (countUp s a n).snap = s.snap ∧ (countUp s a n).kp = s.kp := 
  ⟨rfl, rfl, rfl, rfl, rfl, rfl, rfl, rfl, rfl, rfl, rfl, rfl, rfl, rfl, rfl, rfl, rfl, rfl, rfl, rfl, rfl, rfl, rfl, rfl, rfl, rfl, rfl, rfl⟩

@[simp] theorem countUpF_rest {a hi lo n} :
    (countUpF s a hi lo n).pending = s.pending ∧ (countUpF s a hi lo n).freeCtr = s.freeCtr ∧
    (countUpF s a hi lo n).readData = s.readData ∧ (countUpF s a hi lo n).fuse = s.fuse ∧
    (countUpF s a hi lo n).pins = s.pins ∧ (countUpF s a hi lo n).latch = s.latch ∧
    (countUpF s a hi lo n).staging = s.staging ∧ (countUpF s a hi lo n).rwlLock = s.rwlLock ∧
    (countUpF s a hi lo n).tb = s.tb ∧ (countUpF s a hi lo n).bm = s.bm ∧ (countUpF s a hi lo n).tr = s.tr ∧
    (countUpF s a hi lo n).bb = s.bb ∧ (countUpF s a hi lo n).ob = s.ob ∧ (countUpF s a hi lo n).cx = s.cx ∧
    (countUpF s a hi lo n).image = s.image ∧ (countUpF s a hi lo n).jobs = s.jobs ∧
    (countUpF s a hi lo n).marks = s.marks ∧ (countUpF s a hi lo n).dmap = s.dmap ∧
    (countUpF s a hi lo n).ts = s.ts ∧ (countUpF s a hi lo n).tile = s.tile ∧ (countUpF s a hi lo n).warp = s.warp ∧
    (countUpF s a hi lo n).weft = s.weft ∧ (countUpF s a hi lo n).sched = s.sched ∧
    (countUpF s a hi lo n).rd = s.rd ∧ (countUpF s a hi lo n).kw = s.kw ∧ (countUpF s a hi lo n).pm = s.pm ∧
    (countUpF s a hi lo n).snap = s.snap ∧ (countUpF s a hi lo n).kp = s.kp := 
  ⟨rfl, rfl, rfl, rfl, rfl, rfl, rfl, rfl, rfl, rfl, rfl, rfl, rfl, rfl, rfl, rfl, rfl, rfl, rfl, rfl, rfl, rfl, rfl, rfl, rfl, rfl, rfl, rfl⟩

@[simp] theorem resetRegs_rest {lo n} :
    (resetRegs s lo n).pending = s.pending ∧ (resetRegs s lo n).freeCtr = s.freeCtr ∧
    (resetRegs s lo n).readData = s.readData ∧ (resetRegs s lo n).fuse = s.fuse ∧ (resetRegs s lo n).pins = s.pins ∧
    (resetRegs s lo n).latch = s.latch ∧ (resetRegs s lo n).staging = s.staging ∧
    (resetRegs s lo n).rwlLock = s.rwlLock ∧ (resetRegs s lo n).tb = s.tb ∧ (resetRegs s lo n).bm = s.bm ∧
    (resetRegs s lo n).tr = s.tr ∧ (resetRegs s lo n).bb = s.bb ∧ (resetRegs s lo n).ob = s.ob ∧
    (resetRegs s lo n).cx = s.cx ∧ (resetRegs s lo n).image = s.image ∧ (resetRegs s lo n).jobs = s.jobs ∧
    (resetRegs s lo n).marks = s.marks ∧ (resetRegs s lo n).dmap = s.dmap ∧ (resetRegs s lo n).ts = s.ts ∧
    (resetRegs s lo n).tile = s.tile ∧ (resetRegs s lo n).warp = s.warp ∧ (resetRegs s lo n).weft = s.weft ∧
    (resetRegs s lo n).sched = s.sched ∧ (resetRegs s lo n).rd = s.rd ∧ (resetRegs s lo n).kw = s.kw ∧
    (resetRegs s lo n).pm = s.pm ∧ (resetRegs s lo n).snap = s.snap ∧ (resetRegs s lo n).kp = s.kp := 
  ⟨rfl, rfl, rfl, rfl, rfl, rfl, rfl, rfl, rfl, rfl, rfl, rfl, rfl, rfl, rfl, rfl, rfl, rfl, rfl, rfl, rfl, rfl, rfl, rfl, rfl, rfl, rfl, rfl⟩

@[simp] theorem setTbState_rest {v} :
    (setTbState s v).pending = s.pending ∧ (setTbState s v).freeCtr = s.freeCtr ∧
    (setTbState s v).readData = s.readData ∧ (setTbState s v).fuse = s.fuse ∧ (setTbState s v).pins = s.pins ∧
    (setTbState s v).latch = s.latch ∧ (setTbState s v).staging = s.staging ∧ (setTbState s v).rwlLock = s.rwlLock ∧
    (setTbState s v).tb = s.tb ∧ (setTbState s v).bm = s.bm ∧ (setTbState s v).tr = s.tr ∧
    (setTbState s v).bb = s.bb ∧ (setTbState s v).ob = s.ob ∧ (setTbState s v).cx = s.cx ∧
    (setTbState s v).image = s.image ∧ (setTbState s v).jobs = s.jobs ∧ (setTbState s v).marks = s.marks ∧
    (setTbState s v).dmap = s.dmap ∧ (setTbState s v).ts = s.ts ∧ (setTbState s v).tile = s.tile ∧
    (setTbState s v).warp = s.warp ∧ (setTbState s v).weft = s.weft ∧ (setTbState s v).sched = s.sched ∧
    (setTbState s v).rd = s.rd ∧ (setTbState s v).kw = s.kw ∧ (setTbState s v).pm = s.pm ∧
    (setTbState s v).snap = s.snap ∧ (setTbState s v).kp = s.kp := 
  ⟨rfl, rfl, rfl, rfl, rfl, rfl, rfl, rfl, rfl, rfl, rfl, rfl, rfl, rfl, rfl, rfl, rfl, rfl, rfl, rfl, rfl, rfl, rfl, rfl, rfl, rfl, rfl, rfl⟩

@[simp] theorem memPut_rest {a bs} :
    (memPut s a bs).pending = s.pending ∧ (memPut s a bs).freeCtr = s.freeCtr ∧
    (memPut s a bs).readData = s.readData ∧ (memPut s a bs).fuse = s.fuse ∧ (memPut s a bs).pins = s.pins ∧
    (memPut s a bs).regs = s.regs ∧ (memPut s a bs).latch = s.latch ∧ (memPut s a bs).staging = s.staging ∧
    (memPut s a bs).rwlLock = s.rwlLock ∧ (memPut s a bs).tb = s.tb ∧ (memPut s a bs).bm = s.bm ∧
    (memPut s a bs).tr = s.tr ∧ (memPut s a bs).ob = s.ob ∧ (memPut s a bs).cx = s.cx ∧
    (memPut s a bs).image = s.image ∧ (memPut s a bs).jobs = s.jobs ∧ (memPut s a bs).marks = s.marks ∧
    (memPut s a bs).dmap = s.dmap ∧ (memPut s a bs).ts = s.ts ∧ (memPut s a bs).tile = s.tile ∧
    (memPut s a bs).warp = s.warp ∧ (memPut s a bs).weft = s.weft ∧ (memPut s a bs).sched = s.sched ∧
    (memPut s a bs).rd = s.rd ∧ (memPut s a bs).kw = s.kw ∧ (memPut s a bs).pm = s.pm ∧
    (memPut s a bs).snap = s.snap ∧ (memPut s a bs).kp = s.kp := 
  ⟨rfl, rfl, rfl, rfl, rfl, rfl, rfl, rfl, rfl, rfl, rfl, rfl, rfl, rfl, rfl, rfl, rfl, rfl, rfl, rfl, rfl, rfl, rfl, rfl, rfl, rfl, rfl, rfl⟩

@[simp] theorem setBad_rest {l b} :
    (setBad s l b).pending = s.pending ∧ (setBad s l b).freeCtr = s.freeCtr ∧ (setBad s l b).readData = s.readData ∧
    (setBad s l b).fuse = s.fuse ∧ (setBad s l b).pins = s.pins ∧ (setBad s l b).regs = s.regs ∧
    (setBad s l b).latch = s.latch ∧ (setBad s l b).staging = s.staging ∧ (setBad s l b).rwlLock = s.rwlLock ∧
    (setBad s l b).tb = s.tb ∧ (setBad s l b).bm = s.bm ∧ (setBad s l b).tr = s.tr ∧ (setBad s l b).ob = s.ob ∧
    (setBad s l b).cx = s.cx ∧ (setBad s l b).image = s.image ∧ (setBad s l b).jobs = s.jobs ∧
    (setBad s l b).marks = s.marks ∧ (setBad s l b).dmap = s.dmap ∧ (setBad s l b).ts = s.ts ∧
    (setBad s l b).tile = s.tile ∧ (setBad s l b).warp = s.warp ∧ (setBad s l b).weft = s.weft ∧
    (setBad s l b).sched = s.sched ∧ (setBad s l b).rd = s.rd ∧ (setBad s l b).kw = s.kw ∧ (setBad s l b).pm = s.pm ∧
    (setBad s l b).snap = s.snap ∧ (setBad s l b).kp = s.kp := 
  ⟨rfl, rfl, rfl, rfl, rfl, rfl, rfl, rfl, rfl, rfl, rfl, rfl, rfl, rfl, rfl, rfl, rfl, rfl, rfl, rfl, rfl, rfl, rfl, rfl, rfl, rfl, rfl, rfl⟩

@[simp] theorem tsWrite_rest {t a bs} :
    (tsWrite s t a bs).pending = s.pending ∧ (tsWrite s t a bs).freeCtr = s.freeCtr ∧
    (tsWrite s t a bs).readData = s.readData ∧ (tsWrite s t a bs).fuse = s.fuse ∧ (tsWrite s t a bs).pins = s.pins ∧
    (tsWrite s t a bs).regs = s.regs ∧ (tsWrite s t a bs).latch = s.latch ∧ (tsWrite s t a bs).staging = s.staging ∧
    (tsWrite s t a bs).rwlLock = s.rwlLock ∧ (tsWrite s t a bs).tb = s.tb ∧ (tsWrite s t a bs).bm = s.bm ∧
    (tsWrite s t a bs).tr = s.tr ∧ (tsWrite s t a bs).bb = s.bb ∧ (tsWrite s t a bs).ob = s.ob ∧
    (tsWrite s t a bs).cx = s.cx ∧ (tsWrite s t a bs).image = s.image ∧ (tsWrite s t a bs).jobs = s.jobs ∧
    (tsWrite s t a bs).marks = s.marks ∧ (tsWrite s t a bs).dmap = s.dmap ∧ (tsWrite s t a bs).tile = s.tile ∧
    (tsWrite s t a bs).warp = s.warp ∧ (tsWrite s t a bs).weft = s.weft ∧ (tsWrite s t a bs).sched = s.sched ∧
    (tsWrite s t a bs).rd = s.rd ∧ (tsWrite s t a bs).kw = s.kw ∧ (tsWrite s t a bs).pm = s.pm ∧
    (tsWrite s t a bs).snap = s.snap ∧ (tsWrite s t a bs).kp = s.kp := 
  ⟨rfl, rfl, rfl, rfl, rfl, rfl, rfl, rfl, rfl, rfl, rfl, rfl, rfl, rfl, rfl, rfl, rfl, rfl, rfl, rfl, rfl, rfl, rfl, rfl, rfl, rfl, rfl, rfl⟩

@[simp] theorem setCore_rest {t c} :
    (setCore s t c).pending = s.pending ∧ (setCore s t c).freeCtr = s.freeCtr ∧
    (setCore s t c).readData = s.readData ∧ (setCore s t c).fuse = s.fuse ∧ (setCore s t c).pins = s.pins ∧
    (setCore s t c).regs = s.regs ∧ (setCore s t c).latch = s.latch ∧ (setCore s t c).staging = s.staging ∧
    (setCore s t c).rwlLock = s.rwlLock ∧ (setCore s t c).tb = s.tb ∧ (setCore s t c).bm = s.bm ∧
    (setCore s t c).tr = s.tr ∧ (setCore s t c).bb = s.bb ∧ (setCore s t c).ob = s.ob ∧ (setCore s t c).cx = s.cx ∧
    (setCore s t c).image = s.image ∧ (setCore s t c).jobs = s.jobs ∧ (setCore s t c).marks = s.marks ∧
    (setCore s t c).dmap = s.dmap ∧ (setCore s t c).ts = s.ts ∧ (setCore s t c).tile = s.tile ∧
    (setCore s t c).warp = s.warp ∧ (setCore s t c).sched = s.sched ∧ (setCore s t c).rd = s.rd ∧
    (setCore s t c).kw = s.kw ∧ (setCore s t c).pm = s.pm ∧ (setCore s t c).snap = s.snap ∧ (setCore s t c).kp = s.kp := 
  ⟨rfl, rfl, rfl, rfl, rfl, rfl, rfl, rfl, rfl, rfl, rfl, rfl, rfl, rfl, rfl, rfl, rfl, rfl, rfl, rfl, rfl, rfl, rfl, rfl, rfl, rfl, rfl, rfl⟩

@[simp] theorem setS_rest {t r v} :
    (setS s t r v).pending = s.pending ∧ (setS s t r v).freeCtr = s.freeCtr ∧ (setS s t r v).readData = s.readData ∧
    (setS s t r v).fuse = s.fuse ∧ (setS s t r v).pins = s.pins ∧ (setS s t r v).regs = s.regs ∧
    (setS s t r v).latch = s.latch ∧ (setS s t r v).staging = s.staging ∧ (setS s t r v).rwlLock = s.rwlLock ∧
    (setS s t r v).tb = s.tb ∧ (setS s t r v).bm = s.bm ∧ (setS s t r v).tr = s.tr ∧ (setS s t r v).bb = s.bb ∧
    (setS s t r v).ob = s.ob ∧ (setS s t r v).cx = s.cx ∧ (setS s t r v).image = s.image ∧
    (setS s t r v).jobs = s.jobs ∧ (setS s t r v).marks = s.marks ∧ (setS s t r v).dmap = s.dmap ∧
    (setS s t r v).ts = s.ts ∧ (setS s t r v).tile = s.tile ∧ (setS s t r v).warp = s.warp ∧
    (setS s t r v).sched = s.sched ∧ (setS s t r v).rd = s.rd ∧ (setS s t r v).kw = s.kw ∧ (setS s t r v).pm = s.pm ∧
    (setS s t r v).snap = s.snap ∧ (setS s t r v).kp = s.kp := by
  unfold setS
  split <;> exact ⟨rfl, rfl, rfl, rfl, rfl, rfl, rfl, rfl, rfl, rfl, rfl, rfl, rfl, rfl, rfl, rfl, rfl, rfl, rfl, rfl, rfl, rfl, rfl, rfl, rfl, rfl, rfl, rfl⟩

@[simp] theorem setP_rest {t r v} :
    (setP s t r v).pending = s.pending ∧ (setP s t r v).freeCtr = s.freeCtr ∧ (setP s t r v).readData = s.readData ∧
    (setP s t r v).fuse = s.fuse ∧ (setP s t r v).pins = s.pins ∧ (setP s t r v).regs = s.regs ∧
    (setP s t r v).latch = s.latch ∧ (setP s t r v).staging = s.staging ∧ (setP s t r v).rwlLock = s.rwlLock ∧
    (setP s t r v).tb = s.tb ∧ (setP s t r v).bm = s.bm ∧ (setP s t r v).tr = s.tr ∧ (setP s t r v).bb = s.bb ∧
    (setP s t r v).ob = s.ob ∧ (setP s t r v).cx = s.cx ∧ (setP s t r v).image = s.image ∧
    (setP s t r v).jobs = s.jobs ∧ (setP s t r v).marks = s.marks ∧ (setP s t r v).dmap = s.dmap ∧
    (setP s t r v).ts = s.ts ∧ (setP s t r v).tile = s.tile ∧ (setP s t r v).warp = s.warp ∧
    (setP s t r v).sched = s.sched ∧ (setP s t r v).rd = s.rd ∧ (setP s t r v).kw = s.kw ∧ (setP s t r v).pm = s.pm ∧
    (setP s t r v).snap = s.snap ∧ (setP s t r v).kp = s.kp := by
  unfold setP
  split <;> exact ⟨rfl, rfl, rfl, rfl, rfl, rfl, rfl, rfl, rfl, rfl, rfl, rfl, rfl, rfl, rfl, rfl, rfl, rfl, rfl, rfl, rfl, rfl, rfl, rfl, rfl, rfl, rfl, rfl⟩

@[simp] theorem setV_rest {t r g vs} :
    (setV s t r g vs).pending = s.pending ∧ (setV s t r g vs).freeCtr = s.freeCtr ∧
    (setV s t r g vs).readData = s.readData ∧ (setV s t r g vs).fuse = s.fuse ∧ (setV s t r g vs).pins = s.pins ∧
    (setV s t r g vs).regs = s.regs ∧ (setV s t r g vs).latch = s.latch ∧ (setV s t r g vs).staging = s.staging ∧
    (setV s t r g vs).rwlLock = s.rwlLock ∧ (setV s t r g vs).tb = s.tb ∧ (setV s t r g vs).bm = s.bm ∧
    (setV s t r g vs).tr = s.tr ∧ (setV s t r g vs).bb = s.bb ∧ (setV s t r g vs).ob = s.ob ∧
    (setV s t r g vs).cx = s.cx ∧ (setV s t r g vs).image = s.image ∧ (setV s t r g vs).jobs = s.jobs ∧
    (setV s t r g vs).marks = s.marks ∧ (setV s t r g vs).dmap = s.dmap ∧ (setV s t r g vs).ts = s.ts ∧
    (setV s t r g vs).tile = s.tile ∧ (setV s t r g vs).warp = s.warp ∧ (setV s t r g vs).sched = s.sched ∧
    (setV s t r g vs).rd = s.rd ∧ (setV s t r g vs).kw = s.kw ∧ (setV s t r g vs).pm = s.pm ∧
    (setV s t r g vs).snap = s.snap ∧ (setV s t r g vs).kp = s.kp := by
  unfold setV
  generalize List.map _ _ = x
  exact ⟨rfl, rfl, rfl, rfl, rfl, rfl, rfl, rfl, rfl, rfl, rfl, rfl, rfl, rfl, rfl, rfl, rfl, rfl, rfl, rfl, rfl, rfl, rfl, rfl, rfl, rfl, rfl, rfl⟩

@[simp] theorem setPLanes_rest {t r g bs} :
    (setPLanes s t r g bs).pending = s.pending ∧ (setPLanes s t r g bs).freeCtr = s.freeCtr ∧
    (setPLanes s t r g bs).readData = s.readData ∧ (setPLanes s t r g bs).fuse = s.fuse ∧
    (setPLanes s t r g bs).pins = s.pins ∧ (setPLanes s t r g bs).regs = s.regs ∧
    (setPLanes s t r g bs).latch = s.latch ∧ (setPLanes s t r g bs).staging = s.staging ∧
    (setPLanes s t r g bs).rwlLock = s.rwlLock ∧ (setPLanes s t r g bs).tb = s.tb ∧
    (setPLanes s t r g bs).bm = s.bm ∧ (setPLanes s t r g bs).tr = s.tr ∧ (setPLanes s t r g bs).bb = s.bb ∧
    (setPLanes s t r g bs).ob = s.ob ∧ (setPLanes s t r g bs).cx = s.cx ∧ (setPLanes s t r g bs).image = s.image ∧
    (setPLanes s t r g bs).jobs = s.jobs ∧ (setPLanes s t r g bs).marks = s.marks ∧
    (setPLanes s t r g bs).dmap = s.dmap ∧ (setPLanes s t r g bs).ts = s.ts ∧ (setPLanes s t r g bs).tile = s.tile ∧
    (setPLanes s t r g bs).warp = s.warp ∧ (setPLanes s t r g bs).sched = s.sched ∧
    (setPLanes s t r g bs).rd = s.rd ∧ (setPLanes s t r g bs).kw = s.kw ∧ (setPLanes s t r g bs).pm = s.pm ∧
    (setPLanes s t r g bs).snap = s.snap ∧ (setPLanes s t r g bs).kp = s.kp := setP_rest

@[simp] theorem setX_rest {t r ls} :
    (setX s t r ls).pending = s.pending ∧ (setX s t r ls).freeCtr = s.freeCtr ∧
    (setX s t r ls).readData = s.readData ∧ (setX s t r ls).fuse = s.fuse ∧ (setX s t r ls).pins = s.pins ∧
    (setX s t r ls).regs = s.regs ∧ (setX s t r ls).latch = s.latch ∧ (setX s t r ls).staging = s.staging ∧
    (setX s t r ls).rwlLock = s.rwlLock ∧ (setX s t r ls).tb = s.tb ∧ (setX s t r ls).bm = s.bm ∧
    (setX s t r ls).tr = s.tr ∧ (setX s t r ls).bb = s.bb ∧ (setX s t r ls).ob = s.ob ∧ (setX s t r ls).cx = s.cx ∧
    (setX s t r ls).image = s.image ∧ (setX s t r ls).jobs = s.jobs ∧ (setX s t r ls).marks = s.marks ∧
    (setX s t r ls).dmap = s.dmap ∧ (setX s t r ls).ts = s.ts ∧ (setX s t r ls).tile = s.tile ∧
    (setX s t r ls).warp = s.warp ∧ (setX s t r ls).sched = s.sched ∧ (setX s t r ls).rd = s.rd ∧
    (setX s t r ls).kw = s.kw ∧ (setX s t r ls).pm = s.pm ∧ (setX s t r ls).snap = s.snap ∧ (setX s t r ls).kp = s.kp := 
  ⟨rfl, rfl, rfl, rfl, rfl, rfl, rfl, rfl, rfl, rfl, rfl, rfl, rfl, rfl, rfl, rfl, rfl, rfl, rfl, rfl, rfl, rfl, rfl, rfl, rfl, rfl, rfl, rfl⟩

@[simp] theorem countCycles_rest {t k n} :
    (countCycles s t k n).pending = s.pending ∧ (countCycles s t k n).freeCtr = s.freeCtr ∧
    (countCycles s t k n).readData = s.readData ∧ (countCycles s t k n).fuse = s.fuse ∧
    (countCycles s t k n).pins = s.pins ∧ (countCycles s t k n).regs = s.regs ∧
    (countCycles s t k n).latch = s.latch ∧ (countCycles s t k n).staging = s.staging ∧
    (countCycles s t k n).rwlLock = s.rwlLock ∧ (countCycles s t k n).tb = s.tb ∧ (countCycles s t k n).bm = s.bm ∧
    (countCycles s t k n).tr = s.tr ∧ (countCycles s t k n).bb = s.bb ∧ (countCycles s t k n).ob = s.ob ∧
    (countCycles s t k n).cx = s.cx ∧ (countCycles s t k n).image = s.image ∧ (countCycles s t k n).jobs = s.jobs ∧
    (countCycles s t k n).marks = s.marks ∧ (countCycles s t k n).dmap = s.dmap ∧ (countCycles s t k n).ts = s.ts ∧
    (countCycles s t k n).tile = s.tile ∧ (countCycles s t k n).warp = s.warp ∧
    (countCycles s t k n).sched = s.sched ∧ (countCycles s t k n).rd = s.rd ∧ (countCycles s t k n).kw = s.kw ∧
    (countCycles s t k n).pm = s.pm ∧ (countCycles s t k n).snap = s.snap ∧ (countCycles s t k n).kp = s.kp := 
  ⟨rfl, rfl, rfl, rfl, rfl, rfl, rfl, rfl, rfl, rfl, rfl, rfl, rfl, rfl, rfl, rfl, rfl, rfl, rfl, rfl, rfl, rfl, rfl, rfl, rfl, rfl, rfl, rfl⟩

@[simp] theorem mapTicket_rest {t n f} :
    (mapTicket s t n f).pending = s.pending ∧ (mapTicket s t n f).freeCtr = s.freeCtr ∧
    (mapTicket s t n f).readData = s.readData ∧ (mapTicket s t n f).fuse = s.fuse ∧
    (mapTicket s t n f).pins = s.pins ∧ (mapTicket s t n f).regs = s.regs ∧ (mapTicket s t n f).latch = s.latch ∧
    (mapTicket s t n f).staging = s.staging ∧ (mapTicket s t n f).rwlLock = s.rwlLock ∧
    (mapTicket s t n f).tb = s.tb ∧ (mapTicket s t n f).bm = s.bm ∧ (mapTicket s t n f).tr = s.tr ∧
    (mapTicket s t n f).bb = s.bb ∧ (mapTicket s t n f).ob = s.ob ∧ (mapTicket s t n f).cx = s.cx ∧
    (mapTicket s t n f).image = s.image ∧ (mapTicket s t n f).jobs = s.jobs ∧ (mapTicket s t n f).marks = s.marks ∧
    (mapTicket s t n f).dmap = s.dmap ∧ (mapTicket s t n f).ts = s.ts ∧ (mapTicket s t n f).tile = s.tile ∧
    (mapTicket s t n f).warp = s.warp ∧ (mapTicket s t n f).sched = s.sched ∧ (mapTicket s t n f).rd = s.rd ∧
    (mapTicket s t n f).kw = s.kw ∧ (mapTicket s t n f).pm = s.pm ∧ (mapTicket s t n f).snap = s.snap ∧
    (mapTicket s t n f).kp = s.kp := 
  ⟨rfl, rfl, rfl, rfl, rfl, rfl, rfl, rfl, rfl, rfl, rfl, rfl, rfl, rfl, rfl, rfl, rfl, rfl, rfl, rfl, rfl, rfl, rfl, rfl, rfl, rfl, rfl, rfl⟩

@[simp] theorem setChanSt_rest {p c x} :
    (setChanSt s p c x).pending = s.pending ∧ (setChanSt s p c x).freeCtr = s.freeCtr ∧
    (setChanSt s p c x).readData = s.readData ∧ (setChanSt s p c x).fuse = s.fuse ∧
    (setChanSt s p c x).pins = s.pins ∧ (setChanSt s p c x).regs = s.regs ∧ (setChanSt s p c x).latch = s.latch ∧
    (setChanSt s p c x).staging = s.staging ∧ (setChanSt s p c x).rwlLock = s.rwlLock ∧
    (setChanSt s p c x).tb = s.tb ∧ (setChanSt s p c x).bm = s.bm ∧ (setChanSt s p c x).tr = s.tr ∧
    (setChanSt s p c x).bb = s.bb ∧ (setChanSt s p c x).ob = s.ob ∧ (setChanSt s p c x).cx = s.cx ∧
    (setChanSt s p c x).image = s.image ∧ (setChanSt s p c x).jobs = s.jobs ∧ (setChanSt s p c x).marks = s.marks ∧
    (setChanSt s p c x).dmap = s.dmap ∧ (setChanSt s p c x).ts = s.ts ∧ (setChanSt s p c x).tile = s.tile ∧
    (setChanSt s p c x).warp = s.warp ∧ (setChanSt s p c x).sched = s.sched ∧ (setChanSt s p c x).rd = s.rd ∧
    (setChanSt s p c x).kw = s.kw ∧ (setChanSt s p c x).pm = s.pm ∧ (setChanSt s p c x).snap = s.snap ∧
    (setChanSt s p c x).kp = s.kp := 
  ⟨rfl, rfl, rfl, rfl, rfl, rfl, rfl, rfl, rfl, rfl, rfl, rfl, rfl, rfl, rfl, rfl, rfl, rfl, rfl, rfl, rfl, rfl, rfl, rfl, rfl, rfl, rfl, rfl⟩

@[simp] theorem setLane_rest {i l} :
    (setLane s i l).pending = s.pending ∧ (setLane s i l).freeCtr = s.freeCtr ∧
    (setLane s i l).readData = s.readData ∧ (setLane s i l).fuse = s.fuse ∧ (setLane s i l).pins = s.pins ∧
    (setLane s i l).regs = s.regs ∧ (setLane s i l).latch = s.latch ∧ (setLane s i l).staging = s.staging ∧
    (setLane s i l).rwlLock = s.rwlLock ∧ (setLane s i l).tb = s.tb ∧ (setLane s i l).tr = s.tr ∧
    (setLane s i l).bb = s.bb ∧ (setLane s i l).ob = s.ob ∧ (setLane s i l).cx = s.cx ∧
    (setLane s i l).image = s.image ∧ (setLane s i l).jobs = s.jobs ∧ (setLane s i l).marks = s.marks ∧
    (setLane s i l).dmap = s.dmap ∧ (setLane s i l).ts = s.ts ∧ (setLane s i l).tile = s.tile ∧
    (setLane s i l).warp = s.warp ∧ (setLane s i l).weft = s.weft ∧ (setLane s i l).sched = s.sched ∧
    (setLane s i l).rd = s.rd ∧ (setLane s i l).kw = s.kw ∧ (setLane s i l).pm = s.pm ∧
    (setLane s i l).snap = s.snap ∧ (setLane s i l).kp = s.kp := 
  ⟨rfl, rfl, rfl, rfl, rfl, rfl, rfl, rfl, rfl, rfl, rfl, rfl, rfl, rfl, rfl, rfl, rfl, rfl, rfl, rfl, rfl, rfl, rfl, rfl, rfl, rfl, rfl, rfl⟩

@[simp] theorem setBmStream_rest {n x} :
    (setBmStream s n x).pending = s.pending ∧ (setBmStream s n x).freeCtr = s.freeCtr ∧
    (setBmStream s n x).readData = s.readData ∧ (setBmStream s n x).fuse = s.fuse ∧
    (setBmStream s n x).pins = s.pins ∧ (setBmStream s n x).regs = s.regs ∧ (setBmStream s n x).latch = s.latch ∧
    (setBmStream s n x).staging = s.staging ∧ (setBmStream s n x).rwlLock = s.rwlLock ∧
    (setBmStream s n x).tb = s.tb ∧ (setBmStream s n x).tr = s.tr ∧ (setBmStream s n x).bb = s.bb ∧
    (setBmStream s n x).ob = s.ob ∧ (setBmStream s n x).cx = s.cx ∧ (setBmStream s n x).image = s.image ∧
    (setBmStream s n x).jobs = s.jobs ∧ (setBmStream s n x).marks = s.marks ∧ (setBmStream s n x).dmap = s.dmap ∧
    (setBmStream s n x).ts = s.ts ∧ (setBmStream s n x).tile = s.tile ∧ (setBmStream s n x).warp = s.warp ∧
    (setBmStream s n x).weft = s.weft ∧ (setBmStream s n x).sched = s.sched ∧ (setBmStream s n x).rd = s.rd ∧
    (setBmStream s n x).kw = s.kw ∧ (setBmStream s n x).pm = s.pm ∧ (setBmStream s n x).snap = s.snap ∧
    (setBmStream s n x).kp = s.kp := 
  ⟨rfl, rfl, rfl, rfl, rfl, rfl, rfl, rfl, rfl, rfl, rfl, rfl, rfl, rfl, rfl, rfl, rfl, rfl, rfl, rfl, rfl, rfl, rfl, rfl, rfl, rfl, rfl, rfl⟩

@[simp] theorem setCap_rest {n c} :
    (setCap s n c).pending = s.pending ∧ (setCap s n c).freeCtr = s.freeCtr ∧ (setCap s n c).readData = s.readData ∧
    (setCap s n c).fuse = s.fuse ∧ (setCap s n c).pins = s.pins ∧ (setCap s n c).regs = s.regs ∧
    (setCap s n c).latch = s.latch ∧ (setCap s n c).staging = s.staging ∧ (setCap s n c).rwlLock = s.rwlLock ∧
    (setCap s n c).tb = s.tb ∧ (setCap s n c).bm = s.bm ∧ (setCap s n c).tr = s.tr ∧ (setCap s n c).ob = s.ob ∧
    (setCap s n c).cx = s.cx ∧ (setCap s n c).image = s.image ∧ (setCap s n c).jobs = s.jobs ∧
    (setCap s n c).marks = s.marks ∧ (setCap s n c).dmap = s.dmap ∧ (setCap s n c).ts = s.ts ∧
    (setCap s n c).tile = s.tile ∧ (setCap s n c).warp = s.warp ∧ (setCap s n c).weft = s.weft ∧
    (setCap s n c).sched = s.sched ∧ (setCap s n c).rd = s.rd ∧ (setCap s n c).kw = s.kw ∧ (setCap s n c).pm = s.pm ∧
    (setCap s n c).snap = s.snap ∧ (setCap s n c).kp = s.kp := 
  ⟨rfl, rfl, rfl, rfl, rfl, rfl, rfl, rfl, rfl, rfl, rfl, rfl, rfl, rfl, rfl, rfl, rfl, rfl, rfl, rfl, rfl, rfl, rfl, rfl, rfl, rfl, rfl, rfl⟩

@[simp] theorem setTrigIn_rest {i x} :
    (setTrigIn s i x).pending = s.pending ∧ (setTrigIn s i x).freeCtr = s.freeCtr ∧
    (setTrigIn s i x).readData = s.readData ∧ (setTrigIn s i x).fuse = s.fuse ∧ (setTrigIn s i x).pins = s.pins ∧
    (setTrigIn s i x).regs = s.regs ∧ (setTrigIn s i x).latch = s.latch ∧ (setTrigIn s i x).staging = s.staging ∧
    (setTrigIn s i x).rwlLock = s.rwlLock ∧ (setTrigIn s i x).tb = s.tb ∧ (setTrigIn s i x).bm = s.bm ∧
    (setTrigIn s i x).bb = s.bb ∧ (setTrigIn s i x).ob = s.ob ∧ (setTrigIn s i x).cx = s.cx ∧
    (setTrigIn s i x).image = s.image ∧ (setTrigIn s i x).jobs = s.jobs ∧ (setTrigIn s i x).marks = s.marks ∧
    (setTrigIn s i x).dmap = s.dmap ∧ (setTrigIn s i x).ts = s.ts ∧ (setTrigIn s i x).tile = s.tile ∧
    (setTrigIn s i x).warp = s.warp ∧ (setTrigIn s i x).weft = s.weft ∧ (setTrigIn s i x).sched = s.sched ∧
    (setTrigIn s i x).rd = s.rd ∧ (setTrigIn s i x).kw = s.kw ∧ (setTrigIn s i x).pm = s.pm ∧
    (setTrigIn s i x).snap = s.snap ∧ (setTrigIn s i x).kp = s.kp := 
  ⟨rfl, rfl, rfl, rfl, rfl, rfl, rfl, rfl, rfl, rfl, rfl, rfl, rfl, rfl, rfl, rfl, rfl, rfl, rfl, rfl, rfl, rfl, rfl, rfl, rfl, rfl, rfl, rfl⟩

@[simp] theorem setMachine_rest {n m x} :
    (setMachine s n m x).pending = s.pending ∧ (setMachine s n m x).freeCtr = s.freeCtr ∧
    (setMachine s n m x).readData = s.readData ∧ (setMachine s n m x).fuse = s.fuse ∧
    (setMachine s n m x).pins = s.pins ∧ (setMachine s n m x).regs = s.regs ∧ (setMachine s n m x).latch = s.latch ∧
    (setMachine s n m x).staging = s.staging ∧ (setMachine s n m x).rwlLock = s.rwlLock ∧
    (setMachine s n m x).tb = s.tb ∧ (setMachine s n m x).bm = s.bm ∧ (setMachine s n m x).bb = s.bb ∧
    (setMachine s n m x).ob = s.ob ∧ (setMachine s n m x).cx = s.cx ∧ (setMachine s n m x).image = s.image ∧
    (setMachine s n m x).jobs = s.jobs ∧ (setMachine s n m x).marks = s.marks ∧ (setMachine s n m x).dmap = s.dmap ∧
    (setMachine s n m x).ts = s.ts ∧ (setMachine s n m x).tile = s.tile ∧ (setMachine s n m x).warp = s.warp ∧
    (setMachine s n m x).weft = s.weft ∧ (setMachine s n m x).sched = s.sched ∧ (setMachine s n m x).rd = s.rd ∧
    (setMachine s n m x).kw = s.kw ∧ (setMachine s n m x).pm = s.pm ∧ (setMachine s n m x).snap = s.snap ∧
    (setMachine s n m x).kp = s.kp := 
  ⟨rfl, rfl, rfl, rfl, rfl, rfl, rfl, rfl, rfl, rfl, rfl, rfl, rfl, rfl, rfl, rfl, rfl, rfl, rfl, rfl, rfl, rfl, rfl, rfl, rfl, rfl, rfl, rfl⟩

@[simp] theorem setTrigOut_rest {j x} :
    (setTrigOut s j x).pending = s.pending ∧ (setTrigOut s j x).freeCtr = s.freeCtr ∧
    (setTrigOut s j x).readData = s.readData ∧ (setTrigOut s j x).fuse = s.fuse ∧ (setTrigOut s j x).pins = s.pins ∧
    (setTrigOut s j x).regs = s.regs ∧ (setTrigOut s j x).latch = s.latch ∧ (setTrigOut s j x).staging = s.staging ∧
    (setTrigOut s j x).rwlLock = s.rwlLock ∧ (setTrigOut s j x).tb = s.tb ∧ (setTrigOut s j x).bm = s.bm ∧
    (setTrigOut s j x).bb = s.bb ∧ (setTrigOut s j x).ob = s.ob ∧ (setTrigOut s j x).cx = s.cx ∧
    (setTrigOut s j x).image = s.image ∧ (setTrigOut s j x).jobs = s.jobs ∧ (setTrigOut s j x).marks = s.marks ∧
    (setTrigOut s j x).dmap = s.dmap ∧ (setTrigOut s j x).ts = s.ts ∧ (setTrigOut s j x).tile = s.tile ∧
    (setTrigOut s j x).warp = s.warp ∧ (setTrigOut s j x).weft = s.weft ∧ (setTrigOut s j x).sched = s.sched ∧
    (setTrigOut s j x).rd = s.rd ∧ (setTrigOut s j x).kw = s.kw ∧ (setTrigOut s j x).pm = s.pm ∧
    (setTrigOut s j x).snap = s.snap ∧ (setTrigOut s j x).kp = s.kp := 
  ⟨rfl, rfl, rfl, rfl, rfl, rfl, rfl, rfl, rfl, rfl, rfl, rfl, rfl, rfl, rfl, rfl, rfl, rfl, rfl, rfl, rfl, rfl, rfl, rfl, rfl, rfl, rfl, rfl⟩

@[simp] theorem setPage_rest {t m p x} :
    (setPage s t m p x).pending = s.pending ∧ (setPage s t m p x).freeCtr = s.freeCtr ∧
    (setPage s t m p x).readData = s.readData ∧ (setPage s t m p x).fuse = s.fuse ∧
    (setPage s t m p x).pins = s.pins ∧ (setPage s t m p x).regs = s.regs ∧ (setPage s t m p x).latch = s.latch ∧
    (setPage s t m p x).staging = s.staging ∧ (setPage s t m p x).rwlLock = s.rwlLock ∧
    (setPage s t m p x).tb = s.tb ∧ (setPage s t m p x).bm = s.bm ∧ (setPage s t m p x).tr = s.tr ∧
    (setPage s t m p x).bb = s.bb ∧ (setPage s t m p x).ob = s.ob ∧ (setPage s t m p x).cx = s.cx ∧
    (setPage s t m p x).image = s.image ∧ (setPage s t m p x).jobs = s.jobs ∧ (setPage s t m p x).marks = s.marks ∧
    (setPage s t m p x).dmap = s.dmap ∧ (setPage s t m p x).ts = s.ts ∧ (setPage s t m p x).warp = s.warp ∧
    (setPage s t m p x).weft = s.weft ∧ (setPage s t m p x).sched = s.sched ∧ (setPage s t m p x).rd = s.rd ∧
    (setPage s t m p x).kw = s.kw ∧ (setPage s t m p x).pm = s.pm ∧ (setPage s t m p x).snap = s.snap ∧
    (setPage s t m p x).kp = s.kp := 
  ⟨rfl, rfl, rfl, rfl, rfl, rfl, rfl, rfl, rfl, rfl, rfl, rfl, rfl, rfl, rfl, rfl, rfl, rfl, rfl, rfl, rfl, rfl, rfl, rfl, rfl, rfl, rfl, rfl⟩

@[simp] theorem setBacc_rest {t b c x} :
    (setBacc s t b c x).pending = s.pending ∧ (setBacc s t b c x).freeCtr = s.freeCtr ∧
    (setBacc s t b c x).readData = s.readData ∧ (setBacc s t b c x).fuse = s.fuse ∧
    (setBacc s t b c x).pins = s.pins ∧ (setBacc s t b c x).regs = s.regs ∧ (setBacc s t b c x).latch = s.latch ∧
    (setBacc s t b c x).staging = s.staging ∧ (setBacc s t b c x).rwlLock = s.rwlLock ∧
    (setBacc s t b c x).tb = s.tb ∧ (setBacc s t b c x).bm = s.bm ∧ (setBacc s t b c x).tr = s.tr ∧
    (setBacc s t b c x).bb = s.bb ∧ (setBacc s t b c x).ob = s.ob ∧ (setBacc s t b c x).cx = s.cx ∧
    (setBacc s t b c x).image = s.image ∧ (setBacc s t b c x).jobs = s.jobs ∧ (setBacc s t b c x).marks = s.marks ∧
    (setBacc s t b c x).dmap = s.dmap ∧ (setBacc s t b c x).ts = s.ts ∧ (setBacc s t b c x).warp = s.warp ∧
    (setBacc s t b c x).weft = s.weft ∧ (setBacc s t b c x).sched = s.sched ∧ (setBacc s t b c x).rd = s.rd ∧
    (setBacc s t b c x).kw = s.kw ∧ (setBacc s t b c x).pm = s.pm ∧ (setBacc s t b c x).snap = s.snap ∧
    (setBacc s t b c x).kp = s.kp := 
  ⟨rfl, rfl, rfl, rfl, rfl, rfl, rfl, rfl, rfl, rfl, rfl, rfl, rfl, rfl, rfl, rfl, rfl, rfl, rfl, rfl, rfl, rfl, rfl, rfl, rfl, rfl, rfl, rfl⟩

@[simp] theorem setSide_rest {t a x} :
    (setSide s t a x).pending = s.pending ∧ (setSide s t a x).freeCtr = s.freeCtr ∧
    (setSide s t a x).readData = s.readData ∧ (setSide s t a x).fuse = s.fuse ∧ (setSide s t a x).pins = s.pins ∧
    (setSide s t a x).regs = s.regs ∧ (setSide s t a x).latch = s.latch ∧ (setSide s t a x).staging = s.staging ∧
    (setSide s t a x).rwlLock = s.rwlLock ∧ (setSide s t a x).tb = s.tb ∧ (setSide s t a x).bm = s.bm ∧
    (setSide s t a x).tr = s.tr ∧ (setSide s t a x).bb = s.bb ∧ (setSide s t a x).ob = s.ob ∧
    (setSide s t a x).cx = s.cx ∧ (setSide s t a x).image = s.image ∧ (setSide s t a x).jobs = s.jobs ∧
    (setSide s t a x).marks = s.marks ∧ (setSide s t a x).dmap = s.dmap ∧ (setSide s t a x).ts = s.ts ∧
    (setSide s t a x).warp = s.warp ∧ (setSide s t a x).weft = s.weft ∧ (setSide s t a x).sched = s.sched ∧
    (setSide s t a x).rd = s.rd ∧ (setSide s t a x).kw = s.kw ∧ (setSide s t a x).pm = s.pm ∧
    (setSide s t a x).snap = s.snap ∧ (setSide s t a x).kp = s.kp := 
  ⟨rfl, rfl, rfl, rfl, rfl, rfl, rfl, rfl, rfl, rfl, rfl, rfl, rfl, rfl, rfl, rfl, rfl, rfl, rfl, rfl, rfl, rfl, rfl, rfl, rfl, rfl, rfl, rfl⟩

@[simp] theorem setLaneSat_rest {t b c v x} :
    (setLaneSat s t b c v x).pending = s.pending ∧ (setLaneSat s t b c v x).freeCtr = s.freeCtr ∧
    (setLaneSat s t b c v x).readData = s.readData ∧ (setLaneSat s t b c v x).fuse = s.fuse ∧
    (setLaneSat s t b c v x).pins = s.pins ∧ (setLaneSat s t b c v x).regs = s.regs ∧
    (setLaneSat s t b c v x).latch = s.latch ∧ (setLaneSat s t b c v x).staging = s.staging ∧
    (setLaneSat s t b c v x).rwlLock = s.rwlLock ∧ (setLaneSat s t b c v x).tb = s.tb ∧
    (setLaneSat s t b c v x).bm = s.bm ∧ (setLaneSat s t b c v x).tr = s.tr ∧ (setLaneSat s t b c v x).bb = s.bb ∧
    (setLaneSat s t b c v x).ob = s.ob ∧ (setLaneSat s t b c v x).cx = s.cx ∧
    (setLaneSat s t b c v x).image = s.image ∧ (setLaneSat s t b c v x).jobs = s.jobs ∧
    (setLaneSat s t b c v x).marks = s.marks ∧ (setLaneSat s t b c v x).dmap = s.dmap ∧
    (setLaneSat s t b c v x).ts = s.ts ∧ (setLaneSat s t b c v x).warp = s.warp ∧
    (setLaneSat s t b c v x).weft = s.weft ∧ (setLaneSat s t b c v x).sched = s.sched ∧
    (setLaneSat s t b c v x).rd = s.rd ∧ (setLaneSat s t b c v x).kw = s.kw ∧ (setLaneSat s t b c v x).pm = s.pm ∧
    (setLaneSat s t b c v x).snap = s.snap ∧ (setLaneSat s t b c v x).kp = s.kp := 
  ⟨rfl, rfl, rfl, rfl, rfl, rfl, rfl, rfl, rfl, rfl, rfl, rfl, rfl, rfl, rfl, rfl, rfl, rfl, rfl, rfl, rfl, rfl, rfl, rfl, rfl, rfl, rfl, rfl⟩

@[simp] theorem setQuantExec_rest {t a x} :
    (setQuantExec s t a x).pending = s.pending ∧ (setQuantExec s t a x).freeCtr = s.freeCtr ∧
    (setQuantExec s t a x).readData = s.readData ∧ (setQuantExec s t a x).fuse = s.fuse ∧
    (setQuantExec s t a x).pins = s.pins ∧ (setQuantExec s t a x).regs = s.regs ∧
    (setQuantExec s t a x).latch = s.latch ∧ (setQuantExec s t a x).staging = s.staging ∧
    (setQuantExec s t a x).rwlLock = s.rwlLock ∧ (setQuantExec s t a x).tb = s.tb ∧
    (setQuantExec s t a x).bm = s.bm ∧ (setQuantExec s t a x).tr = s.tr ∧ (setQuantExec s t a x).bb = s.bb ∧
    (setQuantExec s t a x).ob = s.ob ∧ (setQuantExec s t a x).cx = s.cx ∧ (setQuantExec s t a x).image = s.image ∧
    (setQuantExec s t a x).jobs = s.jobs ∧ (setQuantExec s t a x).marks = s.marks ∧
    (setQuantExec s t a x).dmap = s.dmap ∧ (setQuantExec s t a x).ts = s.ts ∧ (setQuantExec s t a x).tile = s.tile ∧
    (setQuantExec s t a x).weft = s.weft ∧ (setQuantExec s t a x).sched = s.sched ∧
    (setQuantExec s t a x).rd = s.rd ∧ (setQuantExec s t a x).kw = s.kw ∧ (setQuantExec s t a x).pm = s.pm ∧
    (setQuantExec s t a x).snap = s.snap ∧ (setQuantExec s t a x).kp = s.kp := 
  ⟨rfl, rfl, rfl, rfl, rfl, rfl, rfl, rfl, rfl, rfl, rfl, rfl, rfl, rfl, rfl, rfl, rfl, rfl, rfl, rfl, rfl, rfl, rfl, rfl, rfl, rfl, rfl, rfl⟩

@[simp] theorem setSkein_rest {t k x} :
    (setSkein s t k x).pending = s.pending ∧ (setSkein s t k x).freeCtr = s.freeCtr ∧
    (setSkein s t k x).readData = s.readData ∧ (setSkein s t k x).fuse = s.fuse ∧ (setSkein s t k x).pins = s.pins ∧
    (setSkein s t k x).regs = s.regs ∧ (setSkein s t k x).latch = s.latch ∧ (setSkein s t k x).staging = s.staging ∧
    (setSkein s t k x).rwlLock = s.rwlLock ∧ (setSkein s t k x).tb = s.tb ∧ (setSkein s t k x).bm = s.bm ∧
    (setSkein s t k x).tr = s.tr ∧ (setSkein s t k x).bb = s.bb ∧ (setSkein s t k x).ob = s.ob ∧
    (setSkein s t k x).cx = s.cx ∧ (setSkein s t k x).image = s.image ∧ (setSkein s t k x).jobs = s.jobs ∧
    (setSkein s t k x).marks = s.marks ∧ (setSkein s t k x).dmap = s.dmap ∧ (setSkein s t k x).ts = s.ts ∧
    (setSkein s t k x).tile = s.tile ∧ (setSkein s t k x).weft = s.weft ∧ (setSkein s t k x).sched = s.sched ∧
    (setSkein s t k x).rd = s.rd ∧ (setSkein s t k x).kw = s.kw ∧ (setSkein s t k x).pm = s.pm ∧
    (setSkein s t k x).snap = s.snap ∧ (setSkein s t k x).kp = s.kp := 
  ⟨rfl, rfl, rfl, rfl, rfl, rfl, rfl, rfl, rfl, rfl, rfl, rfl, rfl, rfl, rfl, rfl, rfl, rfl, rfl, rfl, rfl, rfl, rfl, rfl, rfl, rfl, rfl, rfl⟩

@[simp] theorem setTokens_rest {t p x} :
    (setTokens s t p x).pending = s.pending ∧ (setTokens s t p x).freeCtr = s.freeCtr ∧
    (setTokens s t p x).readData = s.readData ∧ (setTokens s t p x).fuse = s.fuse ∧
    (setTokens s t p x).pins = s.pins ∧ (setTokens s t p x).regs = s.regs ∧ (setTokens s t p x).latch = s.latch ∧
    (setTokens s t p x).staging = s.staging ∧ (setTokens s t p x).rwlLock = s.rwlLock ∧
    (setTokens s t p x).tb = s.tb ∧ (setTokens s t p x).bm = s.bm ∧ (setTokens s t p x).tr = s.tr ∧
    (setTokens s t p x).bb = s.bb ∧ (setTokens s t p x).ob = s.ob ∧ (setTokens s t p x).cx = s.cx ∧
    (setTokens s t p x).image = s.image ∧ (setTokens s t p x).jobs = s.jobs ∧ (setTokens s t p x).marks = s.marks ∧
    (setTokens s t p x).dmap = s.dmap ∧ (setTokens s t p x).ts = s.ts ∧ (setTokens s t p x).tile = s.tile ∧
    (setTokens s t p x).weft = s.weft ∧ (setTokens s t p x).sched = s.sched ∧ (setTokens s t p x).rd = s.rd ∧
    (setTokens s t p x).kw = s.kw ∧ (setTokens s t p x).pm = s.pm ∧ (setTokens s t p x).snap = s.snap ∧
    (setTokens s t p x).kp = s.kp := 
  ⟨rfl, rfl, rfl, rfl, rfl, rfl, rfl, rfl, rfl, rfl, rfl, rfl, rfl, rfl, rfl, rfl, rfl, rfl, rfl, rfl, rfl, rfl, rfl, rfl, rfl, rfl, rfl, rfl⟩

@[simp] theorem setPort_rest {p x} :
    (setPort s p x).pending = s.pending ∧ (setPort s p x).freeCtr = s.freeCtr ∧
    (setPort s p x).readData = s.readData ∧ (setPort s p x).fuse = s.fuse ∧ (setPort s p x).pins = s.pins ∧
    (setPort s p x).regs = s.regs ∧ (setPort s p x).latch = s.latch ∧ (setPort s p x).staging = s.staging ∧
    (setPort s p x).rwlLock = s.rwlLock ∧ (setPort s p x).tb = s.tb ∧ (setPort s p x).bm = s.bm ∧
    (setPort s p x).tr = s.tr ∧ (setPort s p x).bb = s.bb ∧ (setPort s p x).ob = s.ob ∧ (setPort s p x).cx = s.cx ∧
    (setPort s p x).image = s.image ∧ (setPort s p x).jobs = s.jobs ∧ (setPort s p x).marks = s.marks ∧
    (setPort s p x).dmap = s.dmap ∧ (setPort s p x).ts = s.ts ∧ (setPort s p x).tile = s.tile ∧
    (setPort s p x).warp = s.warp ∧ (setPort s p x).weft = s.weft ∧ (setPort s p x).sched = s.sched ∧
    (setPort s p x).rd = s.rd ∧ (setPort s p x).pm = s.pm ∧ (setPort s p x).snap = s.snap ∧ (setPort s p x).kp = s.kp := 
  ⟨rfl, rfl, rfl, rfl, rfl, rfl, rfl, rfl, rfl, rfl, rfl, rfl, rfl, rfl, rfl, rfl, rfl, rfl, rfl, rfl, rfl, rfl, rfl, rfl, rfl, rfl, rfl, rfl⟩

@[simp] theorem tagTaken_rest  :
    (tagTaken s).pending = s.pending ∧ (tagTaken s).freeCtr = s.freeCtr ∧ (tagTaken s).readData = s.readData ∧
    (tagTaken s).fuse = s.fuse ∧ (tagTaken s).pins = s.pins ∧ (tagTaken s).regs = s.regs ∧
    (tagTaken s).latch = s.latch ∧ (tagTaken s).staging = s.staging ∧ (tagTaken s).rwlLock = s.rwlLock ∧
    (tagTaken s).bm = s.bm ∧ (tagTaken s).tr = s.tr ∧ (tagTaken s).bb = s.bb ∧ (tagTaken s).ob = s.ob ∧
    (tagTaken s).cx = s.cx ∧ (tagTaken s).image = s.image ∧ (tagTaken s).jobs = s.jobs ∧ (tagTaken s).marks = s.marks ∧
    (tagTaken s).dmap = s.dmap ∧ (tagTaken s).ts = s.ts ∧ (tagTaken s).tile = s.tile ∧ (tagTaken s).warp = s.warp ∧
    (tagTaken s).weft = s.weft ∧ (tagTaken s).sched = s.sched ∧ (tagTaken s).rd = s.rd ∧ (tagTaken s).kw = s.kw ∧
    (tagTaken s).pm = s.pm ∧ (tagTaken s).snap = s.snap ∧ (tagTaken s).kp = s.kp :=
  ⟨rfl, rfl, rfl, rfl, rfl, rfl, rfl, rfl, rfl, rfl, rfl, rfl, rfl, rfl, rfl, rfl, rfl, rfl, rfl, rfl, rfl, rfl, rfl, rfl, rfl, rfl, rfl, rfl⟩

@[simp] theorem keepLater_rest {x1} :
    (keepLater s x1).pending = s.pending ∧ (keepLater s x1).freeCtr = s.freeCtr ∧
    (keepLater s x1).readData = s.readData ∧ (keepLater s x1).fuse = s.fuse ∧ (keepLater s x1).pins = s.pins ∧
    (keepLater s x1).regs = s.regs ∧ (keepLater s x1).latch = s.latch ∧ (keepLater s x1).staging = s.staging ∧
    (keepLater s x1).rwlLock = s.rwlLock ∧ (keepLater s x1).tb = s.tb ∧ (keepLater s x1).bm = s.bm ∧
    (keepLater s x1).tr = s.tr ∧ (keepLater s x1).bb = s.bb ∧ (keepLater s x1).ob = s.ob ∧ (keepLater s x1).cx = s.cx ∧
    (keepLater s x1).image = s.image ∧ (keepLater s x1).jobs = s.jobs ∧ (keepLater s x1).marks = s.marks ∧
    (keepLater s x1).dmap = s.dmap ∧ (keepLater s x1).ts = s.ts ∧ (keepLater s x1).tile = s.tile ∧
    (keepLater s x1).warp = s.warp ∧ (keepLater s x1).weft = s.weft ∧ (keepLater s x1).sched = s.sched ∧
    (keepLater s x1).rd = s.rd ∧ (keepLater s x1).kw = s.kw ∧ (keepLater s x1).pm = s.pm ∧
    (keepLater s x1).snap = s.snap :=
  ⟨rfl, rfl, rfl, rfl, rfl, rfl, rfl, rfl, rfl, rfl, rfl, rfl, rfl, rfl, rfl, rfl, rfl, rfl, rfl, rfl, rfl, rfl, rfl, rfl, rfl, rfl, rfl, rfl⟩

@[simp] theorem setPred_rest {x1} {x2} {x3} :
    (setPred s x1 x2 x3).pending = s.pending ∧ (setPred s x1 x2 x3).freeCtr = s.freeCtr ∧
    (setPred s x1 x2 x3).readData = s.readData ∧ (setPred s x1 x2 x3).fuse = s.fuse ∧
    (setPred s x1 x2 x3).pins = s.pins ∧ (setPred s x1 x2 x3).regs = s.regs ∧ (setPred s x1 x2 x3).latch = s.latch ∧
    (setPred s x1 x2 x3).staging = s.staging ∧ (setPred s x1 x2 x3).rwlLock = s.rwlLock ∧
    (setPred s x1 x2 x3).tb = s.tb ∧ (setPred s x1 x2 x3).bm = s.bm ∧ (setPred s x1 x2 x3).tr = s.tr ∧
    (setPred s x1 x2 x3).bb = s.bb ∧ (setPred s x1 x2 x3).ob = s.ob ∧ (setPred s x1 x2 x3).cx = s.cx ∧
    (setPred s x1 x2 x3).image = s.image ∧ (setPred s x1 x2 x3).jobs = s.jobs ∧ (setPred s x1 x2 x3).marks = s.marks ∧
    (setPred s x1 x2 x3).dmap = s.dmap ∧ (setPred s x1 x2 x3).ts = s.ts ∧ (setPred s x1 x2 x3).tile = s.tile ∧
    (setPred s x1 x2 x3).weft = s.weft ∧ (setPred s x1 x2 x3).sched = s.sched ∧ (setPred s x1 x2 x3).rd = s.rd ∧
    (setPred s x1 x2 x3).kw = s.kw ∧ (setPred s x1 x2 x3).pm = s.pm ∧ (setPred s x1 x2 x3).snap = s.snap ∧
    (setPred s x1 x2 x3).kp = s.kp :=
  ⟨rfl, rfl, rfl, rfl, rfl, rfl, rfl, rfl, rfl, rfl, rfl, rfl, rfl, rfl, rfl, rfl, rfl, rfl, rfl, rfl, rfl, rfl, rfl, rfl, rfl, rfl, rfl, rfl⟩

@[simp] theorem noteIssue_rest {x1} {x2} :
    (noteIssue s x1 x2).pending = s.pending ∧ (noteIssue s x1 x2).freeCtr = s.freeCtr ∧
    (noteIssue s x1 x2).readData = s.readData ∧ (noteIssue s x1 x2).fuse = s.fuse ∧ (noteIssue s x1 x2).pins = s.pins ∧
    (noteIssue s x1 x2).regs = s.regs ∧ (noteIssue s x1 x2).latch = s.latch ∧ (noteIssue s x1 x2).staging = s.staging ∧
    (noteIssue s x1 x2).rwlLock = s.rwlLock ∧ (noteIssue s x1 x2).tb = s.tb ∧ (noteIssue s x1 x2).bm = s.bm ∧
    (noteIssue s x1 x2).tr = s.tr ∧ (noteIssue s x1 x2).bb = s.bb ∧ (noteIssue s x1 x2).ob = s.ob ∧
    (noteIssue s x1 x2).cx = s.cx ∧ (noteIssue s x1 x2).image = s.image ∧ (noteIssue s x1 x2).jobs = s.jobs ∧
    (noteIssue s x1 x2).marks = s.marks ∧ (noteIssue s x1 x2).dmap = s.dmap ∧ (noteIssue s x1 x2).ts = s.ts ∧
    (noteIssue s x1 x2).tile = s.tile ∧ (noteIssue s x1 x2).weft = s.weft ∧ (noteIssue s x1 x2).sched = s.sched ∧
    (noteIssue s x1 x2).rd = s.rd ∧ (noteIssue s x1 x2).kw = s.kw ∧ (noteIssue s x1 x2).pm = s.pm ∧
    (noteIssue s x1 x2).snap = s.snap ∧ (noteIssue s x1 x2).kp = s.kp :=
  ⟨rfl, rfl, rfl, rfl, rfl, rfl, rfl, rfl, rfl, rfl, rfl, rfl, rfl, rfl, rfl, rfl, rfl, rfl, rfl, rfl, rfl, rfl, rfl, rfl, rfl, rfl, rfl, rfl⟩

@[simp] theorem countAct_rest {x1} {x2} :
    (countAct s x1 x2).pending = s.pending ∧ (countAct s x1 x2).freeCtr = s.freeCtr ∧
    (countAct s x1 x2).readData = s.readData ∧ (countAct s x1 x2).fuse = s.fuse ∧ (countAct s x1 x2).pins = s.pins ∧
    (countAct s x1 x2).regs = s.regs ∧ (countAct s x1 x2).latch = s.latch ∧ (countAct s x1 x2).staging = s.staging ∧
    (countAct s x1 x2).rwlLock = s.rwlLock ∧ (countAct s x1 x2).tb = s.tb ∧ (countAct s x1 x2).bm = s.bm ∧
    (countAct s x1 x2).tr = s.tr ∧ (countAct s x1 x2).bb = s.bb ∧ (countAct s x1 x2).ob = s.ob ∧
    (countAct s x1 x2).cx = s.cx ∧ (countAct s x1 x2).image = s.image ∧ (countAct s x1 x2).jobs = s.jobs ∧
    (countAct s x1 x2).marks = s.marks ∧ (countAct s x1 x2).dmap = s.dmap ∧ (countAct s x1 x2).ts = s.ts ∧
    (countAct s x1 x2).warp = s.warp ∧ (countAct s x1 x2).weft = s.weft ∧ (countAct s x1 x2).sched = s.sched ∧
    (countAct s x1 x2).rd = s.rd ∧ (countAct s x1 x2).kw = s.kw ∧ (countAct s x1 x2).pm = s.pm ∧
    (countAct s x1 x2).snap = s.snap ∧ (countAct s x1 x2).kp = s.kp :=
  ⟨rfl, rfl, rfl, rfl, rfl, rfl, rfl, rfl, rfl, rfl, rfl, rfl, rfl, rfl, rfl, rfl, rfl, rfl, rfl, rfl, rfl, rfl, rfl, rfl, rfl, rfl, rfl, rfl⟩

@[simp] theorem sendLater_rest {x1} {x2} {x3} :
    (sendLater s x1 x2 x3).pending = s.pending ∧ (sendLater s x1 x2 x3).freeCtr = s.freeCtr ∧
    (sendLater s x1 x2 x3).readData = s.readData ∧ (sendLater s x1 x2 x3).fuse = s.fuse ∧
    (sendLater s x1 x2 x3).pins = s.pins ∧ (sendLater s x1 x2 x3).regs = s.regs ∧
    (sendLater s x1 x2 x3).latch = s.latch ∧ (sendLater s x1 x2 x3).staging = s.staging ∧
    (sendLater s x1 x2 x3).rwlLock = s.rwlLock ∧ (sendLater s x1 x2 x3).tb = s.tb ∧ (sendLater s x1 x2 x3).bm = s.bm ∧
    (sendLater s x1 x2 x3).tr = s.tr ∧ (sendLater s x1 x2 x3).bb = s.bb ∧ (sendLater s x1 x2 x3).ob = s.ob ∧
    (sendLater s x1 x2 x3).cx = s.cx ∧ (sendLater s x1 x2 x3).image = s.image ∧ (sendLater s x1 x2 x3).jobs = s.jobs ∧
    (sendLater s x1 x2 x3).marks = s.marks ∧ (sendLater s x1 x2 x3).dmap = s.dmap ∧ (sendLater s x1 x2 x3).ts = s.ts ∧
    (sendLater s x1 x2 x3).tile = s.tile ∧ (sendLater s x1 x2 x3).weft = s.weft ∧
    (sendLater s x1 x2 x3).sched = s.sched ∧ (sendLater s x1 x2 x3).rd = s.rd ∧ (sendLater s x1 x2 x3).kw = s.kw ∧
    (sendLater s x1 x2 x3).pm = s.pm ∧ (sendLater s x1 x2 x3).snap = s.snap ∧ (sendLater s x1 x2 x3).kp = s.kp :=
  ⟨rfl, rfl, rfl, rfl, rfl, rfl, rfl, rfl, rfl, rfl, rfl, rfl, rfl, rfl, rfl, rfl, rfl, rfl, rfl, rfl, rfl, rfl, rfl, rfl, rfl, rfl, rfl, rfl⟩

@[simp] theorem later_rest {x1} {x2} {x3} :
    (later s x1 x2 x3).pending = s.pending ∧ (later s x1 x2 x3).freeCtr = s.freeCtr ∧
    (later s x1 x2 x3).readData = s.readData ∧ (later s x1 x2 x3).fuse = s.fuse ∧ (later s x1 x2 x3).pins = s.pins ∧
    (later s x1 x2 x3).regs = s.regs ∧ (later s x1 x2 x3).latch = s.latch ∧ (later s x1 x2 x3).staging = s.staging ∧
    (later s x1 x2 x3).rwlLock = s.rwlLock ∧ (later s x1 x2 x3).tb = s.tb ∧ (later s x1 x2 x3).bm = s.bm ∧
    (later s x1 x2 x3).tr = s.tr ∧ (later s x1 x2 x3).bb = s.bb ∧ (later s x1 x2 x3).ob = s.ob ∧
    (later s x1 x2 x3).cx = s.cx ∧ (later s x1 x2 x3).image = s.image ∧ (later s x1 x2 x3).jobs = s.jobs ∧
    (later s x1 x2 x3).marks = s.marks ∧ (later s x1 x2 x3).dmap = s.dmap ∧ (later s x1 x2 x3).ts = s.ts ∧
    (later s x1 x2 x3).tile = s.tile ∧ (later s x1 x2 x3).weft = s.weft ∧ (later s x1 x2 x3).sched = s.sched ∧
    (later s x1 x2 x3).rd = s.rd ∧ (later s x1 x2 x3).kw = s.kw ∧ (later s x1 x2 x3).pm = s.pm ∧
    (later s x1 x2 x3).snap = s.snap ∧ (later s x1 x2 x3).kp = s.kp :=
  ⟨rfl, rfl, rfl, rfl, rfl, rfl, rfl, rfl, rfl, rfl, rfl, rfl, rfl, rfl, rfl, rfl, rfl, rfl, rfl, rfl, rfl, rfl, rfl, rfl, rfl, rfl, rfl, rfl⟩

@[simp] theorem setTurn_rest {x1} {x2} :
    (setTurn s x1 x2).pending = s.pending ∧ (setTurn s x1 x2).freeCtr = s.freeCtr ∧
    (setTurn s x1 x2).readData = s.readData ∧ (setTurn s x1 x2).fuse = s.fuse ∧ (setTurn s x1 x2).pins = s.pins ∧
    (setTurn s x1 x2).regs = s.regs ∧ (setTurn s x1 x2).latch = s.latch ∧ (setTurn s x1 x2).staging = s.staging ∧
    (setTurn s x1 x2).rwlLock = s.rwlLock ∧ (setTurn s x1 x2).tb = s.tb ∧ (setTurn s x1 x2).bm = s.bm ∧
    (setTurn s x1 x2).tr = s.tr ∧ (setTurn s x1 x2).bb = s.bb ∧ (setTurn s x1 x2).ob = s.ob ∧
    (setTurn s x1 x2).cx = s.cx ∧ (setTurn s x1 x2).image = s.image ∧ (setTurn s x1 x2).jobs = s.jobs ∧
    (setTurn s x1 x2).marks = s.marks ∧ (setTurn s x1 x2).dmap = s.dmap ∧ (setTurn s x1 x2).ts = s.ts ∧
    (setTurn s x1 x2).tile = s.tile ∧ (setTurn s x1 x2).warp = s.warp ∧ (setTurn s x1 x2).sched = s.sched ∧
    (setTurn s x1 x2).rd = s.rd ∧ (setTurn s x1 x2).kw = s.kw ∧ (setTurn s x1 x2).pm = s.pm ∧
    (setTurn s x1 x2).snap = s.snap ∧ (setTurn s x1 x2).kp = s.kp :=
  ⟨rfl, rfl, rfl, rfl, rfl, rfl, rfl, rfl, rfl, rfl, rfl, rfl, rfl, rfl, rfl, rfl, rfl, rfl, rfl, rfl, rfl, rfl, rfl, rfl, rfl, rfl, rfl, rfl⟩

@[simp] theorem setCqHeld_rest {x1} {x2} :
    (setCqHeld s x1 x2).pending = s.pending ∧ (setCqHeld s x1 x2).freeCtr = s.freeCtr ∧
    (setCqHeld s x1 x2).readData = s.readData ∧ (setCqHeld s x1 x2).fuse = s.fuse ∧ (setCqHeld s x1 x2).pins = s.pins ∧
    (setCqHeld s x1 x2).regs = s.regs ∧ (setCqHeld s x1 x2).latch = s.latch ∧ (setCqHeld s x1 x2).staging = s.staging ∧
    (setCqHeld s x1 x2).rwlLock = s.rwlLock ∧ (setCqHeld s x1 x2).tb = s.tb ∧ (setCqHeld s x1 x2).bm = s.bm ∧
    (setCqHeld s x1 x2).tr = s.tr ∧ (setCqHeld s x1 x2).bb = s.bb ∧ (setCqHeld s x1 x2).ob = s.ob ∧
    (setCqHeld s x1 x2).cx = s.cx ∧ (setCqHeld s x1 x2).image = s.image ∧ (setCqHeld s x1 x2).jobs = s.jobs ∧
    (setCqHeld s x1 x2).marks = s.marks ∧ (setCqHeld s x1 x2).dmap = s.dmap ∧ (setCqHeld s x1 x2).ts = s.ts ∧
    (setCqHeld s x1 x2).tile = s.tile ∧ (setCqHeld s x1 x2).warp = s.warp ∧ (setCqHeld s x1 x2).weft = s.weft ∧
    (setCqHeld s x1 x2).rd = s.rd ∧ (setCqHeld s x1 x2).kw = s.kw ∧ (setCqHeld s x1 x2).pm = s.pm ∧
    (setCqHeld s x1 x2).snap = s.snap ∧ (setCqHeld s x1 x2).kp = s.kp :=
  ⟨rfl, rfl, rfl, rfl, rfl, rfl, rfl, rfl, rfl, rfl, rfl, rfl, rfl, rfl, rfl, rfl, rfl, rfl, rfl, rfl, rfl, rfl, rfl, rfl, rfl, rfl, rfl, rfl⟩

@[simp] theorem dropAbort_rest {x1} :
    (dropAbort s x1).pending = s.pending ∧ (dropAbort s x1).freeCtr = s.freeCtr ∧
    (dropAbort s x1).readData = s.readData ∧ (dropAbort s x1).fuse = s.fuse ∧ (dropAbort s x1).pins = s.pins ∧
    (dropAbort s x1).regs = s.regs ∧ (dropAbort s x1).latch = s.latch ∧ (dropAbort s x1).staging = s.staging ∧
    (dropAbort s x1).rwlLock = s.rwlLock ∧ (dropAbort s x1).tb = s.tb ∧ (dropAbort s x1).bm = s.bm ∧
    (dropAbort s x1).tr = s.tr ∧ (dropAbort s x1).bb = s.bb ∧ (dropAbort s x1).ob = s.ob ∧ (dropAbort s x1).cx = s.cx ∧
    (dropAbort s x1).image = s.image ∧ (dropAbort s x1).jobs = s.jobs ∧ (dropAbort s x1).marks = s.marks ∧
    (dropAbort s x1).dmap = s.dmap ∧ (dropAbort s x1).ts = s.ts ∧ (dropAbort s x1).tile = s.tile ∧
    (dropAbort s x1).warp = s.warp ∧ (dropAbort s x1).weft = s.weft ∧ (dropAbort s x1).rd = s.rd ∧
    (dropAbort s x1).kw = s.kw ∧ (dropAbort s x1).pm = s.pm ∧ (dropAbort s x1).snap = s.snap ∧
    (dropAbort s x1).kp = s.kp :=
  ⟨rfl, rfl, rfl, rfl, rfl, rfl, rfl, rfl, rfl, rfl, rfl, rfl, rfl, rfl, rfl, rfl, rfl, rfl, rfl, rfl, rfl, rfl, rfl, rfl, rfl, rfl, rfl, rfl⟩

@[simp] theorem setRead_rest {x1} {x2} {x3} :
    (setRead s x1 x2 x3).pending = s.pending ∧ (setRead s x1 x2 x3).freeCtr = s.freeCtr ∧
    (setRead s x1 x2 x3).readData = s.readData ∧ (setRead s x1 x2 x3).fuse = s.fuse ∧
    (setRead s x1 x2 x3).pins = s.pins ∧ (setRead s x1 x2 x3).regs = s.regs ∧ (setRead s x1 x2 x3).latch = s.latch ∧
    (setRead s x1 x2 x3).staging = s.staging ∧ (setRead s x1 x2 x3).rwlLock = s.rwlLock ∧
    (setRead s x1 x2 x3).tb = s.tb ∧ (setRead s x1 x2 x3).bm = s.bm ∧ (setRead s x1 x2 x3).tr = s.tr ∧
    (setRead s x1 x2 x3).bb = s.bb ∧ (setRead s x1 x2 x3).ob = s.ob ∧ (setRead s x1 x2 x3).cx = s.cx ∧
    (setRead s x1 x2 x3).image = s.image ∧ (setRead s x1 x2 x3).jobs = s.jobs ∧ (setRead s x1 x2 x3).marks = s.marks ∧
    (setRead s x1 x2 x3).dmap = s.dmap ∧ (setRead s x1 x2 x3).ts = s.ts ∧ (setRead s x1 x2 x3).tile = s.tile ∧
    (setRead s x1 x2 x3).warp = s.warp ∧ (setRead s x1 x2 x3).weft = s.weft ∧ (setRead s x1 x2 x3).sched = s.sched ∧
    (setRead s x1 x2 x3).kw = s.kw ∧ (setRead s x1 x2 x3).pm = s.pm ∧ (setRead s x1 x2 x3).snap = s.snap ∧
    (setRead s x1 x2 x3).kp = s.kp :=
  ⟨rfl, rfl, rfl, rfl, rfl, rfl, rfl, rfl, rfl, rfl, rfl, rfl, rfl, rfl, rfl, rfl, rfl, rfl, rfl, rfl, rfl, rfl, rfl, rfl, rfl, rfl, rfl, rfl⟩

@[simp] theorem dropPending_rest {x1} :
    (dropPending s x1).pending = s.pending ∧ (dropPending s x1).freeCtr = s.freeCtr ∧
    (dropPending s x1).readData = s.readData ∧ (dropPending s x1).fuse = s.fuse ∧ (dropPending s x1).pins = s.pins ∧
    (dropPending s x1).regs = s.regs ∧ (dropPending s x1).latch = s.latch ∧ (dropPending s x1).staging = s.staging ∧
    (dropPending s x1).rwlLock = s.rwlLock ∧ (dropPending s x1).tb = s.tb ∧ (dropPending s x1).bm = s.bm ∧
    (dropPending s x1).tr = s.tr ∧ (dropPending s x1).ob = s.ob ∧ (dropPending s x1).cx = s.cx ∧
    (dropPending s x1).image = s.image ∧ (dropPending s x1).jobs = s.jobs ∧ (dropPending s x1).marks = s.marks ∧
    (dropPending s x1).dmap = s.dmap ∧ (dropPending s x1).ts = s.ts ∧ (dropPending s x1).tile = s.tile ∧
    (dropPending s x1).warp = s.warp ∧ (dropPending s x1).weft = s.weft ∧ (dropPending s x1).sched = s.sched ∧
    (dropPending s x1).rd = s.rd ∧ (dropPending s x1).kw = s.kw ∧ (dropPending s x1).pm = s.pm ∧
    (dropPending s x1).snap = s.snap ∧ (dropPending s x1).kp = s.kp :=
  ⟨rfl, rfl, rfl, rfl, rfl, rfl, rfl, rfl, rfl, rfl, rfl, rfl, rfl, rfl, rfl, rfl, rfl, rfl, rfl, rfl, rfl, rfl, rfl, rfl, rfl, rfl, rfl, rfl⟩

@[simp] theorem launchBurst_rest {t cyc tag frame bs} :
    (launchBurst s t cyc tag frame bs).pending = s.pending ∧ (launchBurst s t cyc tag frame bs).freeCtr = s.freeCtr ∧
    (launchBurst s t cyc tag frame bs).readData = s.readData ∧ (launchBurst s t cyc tag frame bs).fuse = s.fuse ∧
    (launchBurst s t cyc tag frame bs).pins = s.pins ∧ (launchBurst s t cyc tag frame bs).regs = s.regs ∧
    (launchBurst s t cyc tag frame bs).latch = s.latch ∧ (launchBurst s t cyc tag frame bs).staging = s.staging ∧
    (launchBurst s t cyc tag frame bs).rwlLock = s.rwlLock ∧ (launchBurst s t cyc tag frame bs).tb = s.tb ∧
    (launchBurst s t cyc tag frame bs).bm = s.bm ∧ (launchBurst s t cyc tag frame bs).tr = s.tr ∧
    (launchBurst s t cyc tag frame bs).bb = s.bb ∧ (launchBurst s t cyc tag frame bs).ob = s.ob ∧
    (launchBurst s t cyc tag frame bs).cx = s.cx ∧ (launchBurst s t cyc tag frame bs).image = s.image ∧
    (launchBurst s t cyc tag frame bs).jobs = s.jobs ∧ (launchBurst s t cyc tag frame bs).marks = s.marks ∧
    (launchBurst s t cyc tag frame bs).dmap = s.dmap ∧ (launchBurst s t cyc tag frame bs).ts = s.ts ∧
    (launchBurst s t cyc tag frame bs).tile = s.tile ∧ (launchBurst s t cyc tag frame bs).warp = s.warp ∧
    (launchBurst s t cyc tag frame bs).weft = s.weft ∧ (launchBurst s t cyc tag frame bs).sched = s.sched ∧
    (launchBurst s t cyc tag frame bs).kw = s.kw ∧ (launchBurst s t cyc tag frame bs).pm = s.pm ∧
    (launchBurst s t cyc tag frame bs).snap = s.snap ∧ (launchBurst s t cyc tag frame bs).kp = s.kp := 
  ⟨rfl, rfl, rfl, rfl, rfl, rfl, rfl, rfl, rfl, rfl, rfl, rfl, rfl, rfl, rfl, rfl, rfl, rfl, rfl, rfl, rfl, rfl, rfl, rfl, rfl, rfl, rfl, rfl⟩

@[simp] theorem setPageBias_rest {pg b} :
    (setPageBias s pg b).pending = s.pending ∧ (setPageBias s pg b).freeCtr = s.freeCtr ∧
    (setPageBias s pg b).readData = s.readData ∧ (setPageBias s pg b).fuse = s.fuse ∧
    (setPageBias s pg b).pins = s.pins ∧ (setPageBias s pg b).regs = s.regs ∧ (setPageBias s pg b).latch = s.latch ∧
    (setPageBias s pg b).staging = s.staging ∧ (setPageBias s pg b).rwlLock = s.rwlLock ∧
    (setPageBias s pg b).tb = s.tb ∧ (setPageBias s pg b).bm = s.bm ∧ (setPageBias s pg b).tr = s.tr ∧
    (setPageBias s pg b).bb = s.bb ∧ (setPageBias s pg b).ob = s.ob ∧ (setPageBias s pg b).image = s.image ∧
    (setPageBias s pg b).jobs = s.jobs ∧ (setPageBias s pg b).marks = s.marks ∧ (setPageBias s pg b).dmap = s.dmap ∧
    (setPageBias s pg b).ts = s.ts ∧ (setPageBias s pg b).tile = s.tile ∧ (setPageBias s pg b).warp = s.warp ∧
    (setPageBias s pg b).weft = s.weft ∧ (setPageBias s pg b).sched = s.sched ∧ (setPageBias s pg b).rd = s.rd ∧
    (setPageBias s pg b).kw = s.kw ∧ (setPageBias s pg b).pm = s.pm ∧ (setPageBias s pg b).snap = s.snap ∧
    (setPageBias s pg b).kp = s.kp := 
  ⟨rfl, rfl, rfl, rfl, rfl, rfl, rfl, rfl, rfl, rfl, rfl, rfl, rfl, rfl, rfl, rfl, rfl, rfl, rfl, rfl, rfl, rfl, rfl, rfl, rfl, rfl, rfl, rfl⟩

@[simp] theorem hostAnswer_rest {bs p} :
    (hostAnswer s bs p).pending = s.pending ∧ (hostAnswer s bs p).freeCtr = s.freeCtr ∧
    (hostAnswer s bs p).readData = s.readData ∧ (hostAnswer s bs p).fuse = s.fuse ∧
    (hostAnswer s bs p).pins = s.pins ∧ (hostAnswer s bs p).regs = s.regs ∧ (hostAnswer s bs p).latch = s.latch ∧
    (hostAnswer s bs p).staging = s.staging ∧ (hostAnswer s bs p).rwlLock = s.rwlLock ∧
    (hostAnswer s bs p).tb = s.tb ∧ (hostAnswer s bs p).bm = s.bm ∧ (hostAnswer s bs p).tr = s.tr ∧
    (hostAnswer s bs p).bb = s.bb ∧ (hostAnswer s bs p).ob = s.ob ∧ (hostAnswer s bs p).image = s.image ∧
    (hostAnswer s bs p).jobs = s.jobs ∧ (hostAnswer s bs p).marks = s.marks ∧ (hostAnswer s bs p).dmap = s.dmap ∧
    (hostAnswer s bs p).ts = s.ts ∧ (hostAnswer s bs p).tile = s.tile ∧ (hostAnswer s bs p).warp = s.warp ∧
    (hostAnswer s bs p).weft = s.weft ∧ (hostAnswer s bs p).sched = s.sched ∧ (hostAnswer s bs p).rd = s.rd ∧
    (hostAnswer s bs p).kw = s.kw ∧ (hostAnswer s bs p).pm = s.pm ∧ (hostAnswer s bs p).snap = s.snap ∧
    (hostAnswer s bs p).kp = s.kp := 
  ⟨rfl, rfl, rfl, rfl, rfl, rfl, rfl, rfl, rfl, rfl, rfl, rfl, rfl, rfl, rfl, rfl, rfl, rfl, rfl, rfl, rfl, rfl, rfl, rfl, rfl, rfl, rfl, rfl⟩

@[simp] theorem setChain_rest {n c} :
    (setChain s n c).pending = s.pending ∧ (setChain s n c).freeCtr = s.freeCtr ∧
    (setChain s n c).readData = s.readData ∧ (setChain s n c).fuse = s.fuse ∧ (setChain s n c).pins = s.pins ∧
    (setChain s n c).regs = s.regs ∧ (setChain s n c).latch = s.latch ∧ (setChain s n c).staging = s.staging ∧
    (setChain s n c).rwlLock = s.rwlLock ∧ (setChain s n c).tb = s.tb ∧ (setChain s n c).bm = s.bm ∧
    (setChain s n c).tr = s.tr ∧ (setChain s n c).bb = s.bb ∧ (setChain s n c).cx = s.cx ∧
    (setChain s n c).image = s.image ∧ (setChain s n c).jobs = s.jobs ∧ (setChain s n c).marks = s.marks ∧
    (setChain s n c).dmap = s.dmap ∧ (setChain s n c).ts = s.ts ∧ (setChain s n c).tile = s.tile ∧
    (setChain s n c).warp = s.warp ∧ (setChain s n c).weft = s.weft ∧ (setChain s n c).sched = s.sched ∧
    (setChain s n c).rd = s.rd ∧ (setChain s n c).kw = s.kw ∧ (setChain s n c).pm = s.pm ∧
    (setChain s n c).snap = s.snap ∧ (setChain s n c).kp = s.kp := 
  ⟨rfl, rfl, rfl, rfl, rfl, rfl, rfl, rfl, rfl, rfl, rfl, rfl, rfl, rfl, rfl, rfl, rfl, rfl, rfl, rfl, rfl, rfl, rfl, rfl, rfl, rfl, rfl, rfl⟩

@[simp] theorem setIr_rest {c} :
    (setIr s c).pending = s.pending ∧ (setIr s c).freeCtr = s.freeCtr ∧ (setIr s c).readData = s.readData ∧
    (setIr s c).fuse = s.fuse ∧ (setIr s c).pins = s.pins ∧ (setIr s c).regs = s.regs ∧ (setIr s c).latch = s.latch ∧
    (setIr s c).staging = s.staging ∧ (setIr s c).rwlLock = s.rwlLock ∧ (setIr s c).tb = s.tb ∧
    (setIr s c).bm = s.bm ∧ (setIr s c).tr = s.tr ∧ (setIr s c).bb = s.bb ∧ (setIr s c).cx = s.cx ∧
    (setIr s c).image = s.image ∧ (setIr s c).jobs = s.jobs ∧ (setIr s c).marks = s.marks ∧
    (setIr s c).dmap = s.dmap ∧ (setIr s c).ts = s.ts ∧ (setIr s c).tile = s.tile ∧ (setIr s c).warp = s.warp ∧
    (setIr s c).weft = s.weft ∧ (setIr s c).sched = s.sched ∧ (setIr s c).rd = s.rd ∧ (setIr s c).kw = s.kw ∧
    (setIr s c).pm = s.pm ∧ (setIr s c).snap = s.snap ∧ (setIr s c).kp = s.kp := 
  ⟨rfl, rfl, rfl, rfl, rfl, rfl, rfl, rfl, rfl, rfl, rfl, rfl, rfl, rfl, rfl, rfl, rfl, rfl, rfl, rfl, rfl, rfl, rfl, rfl, rfl, rfl, rfl, rfl⟩

@[simp] theorem addCompletion_rest {c} :
    (addCompletion s c).pending = s.pending ∧ (addCompletion s c).freeCtr = s.freeCtr ∧
    (addCompletion s c).readData = s.readData ∧ (addCompletion s c).fuse = s.fuse ∧
    (addCompletion s c).pins = s.pins ∧ (addCompletion s c).regs = s.regs ∧ (addCompletion s c).latch = s.latch ∧
    (addCompletion s c).staging = s.staging ∧ (addCompletion s c).rwlLock = s.rwlLock ∧
    (addCompletion s c).tb = s.tb ∧ (addCompletion s c).bm = s.bm ∧ (addCompletion s c).tr = s.tr ∧
    (addCompletion s c).bb = s.bb ∧ (addCompletion s c).ob = s.ob ∧ (addCompletion s c).cx = s.cx ∧
    (addCompletion s c).image = s.image ∧ (addCompletion s c).jobs = s.jobs ∧ (addCompletion s c).marks = s.marks ∧
    (addCompletion s c).dmap = s.dmap ∧ (addCompletion s c).ts = s.ts ∧ (addCompletion s c).tile = s.tile ∧
    (addCompletion s c).warp = s.warp ∧ (addCompletion s c).weft = s.weft ∧ (addCompletion s c).rd = s.rd ∧
    (addCompletion s c).kw = s.kw ∧ (addCompletion s c).pm = s.pm ∧ (addCompletion s c).snap = s.snap ∧
    (addCompletion s c).kp = s.kp := 
  ⟨rfl, rfl, rfl, rfl, rfl, rfl, rfl, rfl, rfl, rfl, rfl, rfl, rfl, rfl, rfl, rfl, rfl, rfl, rfl, rfl, rfl, rfl, rfl, rfl, rfl, rfl, rfl, rfl⟩

@[simp] theorem withKp_rest {f} :
    (withKp s f).pending = s.pending ∧ (withKp s f).freeCtr = s.freeCtr ∧ (withKp s f).readData = s.readData ∧
    (withKp s f).fuse = s.fuse ∧ (withKp s f).pins = s.pins ∧ (withKp s f).regs = s.regs ∧
    (withKp s f).latch = s.latch ∧ (withKp s f).staging = s.staging ∧ (withKp s f).rwlLock = s.rwlLock ∧
    (withKp s f).tb = s.tb ∧ (withKp s f).bm = s.bm ∧ (withKp s f).tr = s.tr ∧ (withKp s f).bb = s.bb ∧
    (withKp s f).ob = s.ob ∧ (withKp s f).cx = s.cx ∧ (withKp s f).image = s.image ∧ (withKp s f).jobs = s.jobs ∧
    (withKp s f).marks = s.marks ∧ (withKp s f).dmap = s.dmap ∧ (withKp s f).ts = s.ts ∧ (withKp s f).tile = s.tile ∧
    (withKp s f).warp = s.warp ∧ (withKp s f).weft = s.weft ∧ (withKp s f).sched = s.sched ∧ (withKp s f).rd = s.rd ∧
    (withKp s f).kw = s.kw ∧ (withKp s f).pm = s.pm ∧ (withKp s f).snap = s.snap := 
  ⟨rfl, rfl, rfl, rfl, rfl, rfl, rfl, rfl, rfl, rfl, rfl, rfl, rfl, rfl, rfl, rfl, rfl, rfl, rfl, rfl, rfl, rfl, rfl, rfl, rfl, rfl, rfl, rfl⟩

@[simp] theorem withLd_rest {j} :
    (withLd s j).pending = s.pending ∧ (withLd s j).freeCtr = s.freeCtr ∧ (withLd s j).readData = s.readData ∧
    (withLd s j).fuse = s.fuse ∧ (withLd s j).pins = s.pins ∧ (withLd s j).regs = s.regs ∧
    (withLd s j).latch = s.latch ∧ (withLd s j).staging = s.staging ∧ (withLd s j).rwlLock = s.rwlLock ∧
    (withLd s j).tb = s.tb ∧ (withLd s j).bm = s.bm ∧ (withLd s j).tr = s.tr ∧ (withLd s j).bb = s.bb ∧
    (withLd s j).ob = s.ob ∧ (withLd s j).cx = s.cx ∧ (withLd s j).image = s.image ∧ (withLd s j).jobs = s.jobs ∧
    (withLd s j).marks = s.marks ∧ (withLd s j).dmap = s.dmap ∧ (withLd s j).ts = s.ts ∧ (withLd s j).tile = s.tile ∧
    (withLd s j).warp = s.warp ∧ (withLd s j).weft = s.weft ∧ (withLd s j).sched = s.sched ∧ (withLd s j).rd = s.rd ∧
    (withLd s j).kw = s.kw ∧ (withLd s j).pm = s.pm ∧ (withLd s j).snap = s.snap := 
  ⟨rfl, rfl, rfl, rfl, rfl, rfl, rfl, rfl, rfl, rfl, rfl, rfl, rfl, rfl, rfl, rfl, rfl, rfl, rfl, rfl, rfl, rfl, rfl, rfl, rfl, rfl, rfl, rfl⟩

@[simp] theorem noteSmb_rest  :
    (noteSmb s).pending = s.pending ∧ (noteSmb s).freeCtr = s.freeCtr ∧ (noteSmb s).readData = s.readData ∧
    (noteSmb s).fuse = s.fuse ∧ (noteSmb s).regs = s.regs ∧ (noteSmb s).latch = s.latch ∧
    (noteSmb s).staging = s.staging ∧ (noteSmb s).rwlLock = s.rwlLock ∧ (noteSmb s).tb = s.tb ∧
    (noteSmb s).bm = s.bm ∧ (noteSmb s).tr = s.tr ∧ (noteSmb s).bb = s.bb ∧ (noteSmb s).ob = s.ob ∧
    (noteSmb s).cx = s.cx ∧ (noteSmb s).image = s.image ∧ (noteSmb s).jobs = s.jobs ∧ (noteSmb s).marks = s.marks ∧
    (noteSmb s).dmap = s.dmap ∧ (noteSmb s).ts = s.ts ∧ (noteSmb s).tile = s.tile ∧ (noteSmb s).warp = s.warp ∧
    (noteSmb s).weft = s.weft ∧ (noteSmb s).sched = s.sched ∧ (noteSmb s).rd = s.rd ∧ (noteSmb s).kw = s.kw ∧
    (noteSmb s).pm = s.pm ∧ (noteSmb s).snap = s.snap ∧ (noteSmb s).kp = s.kp := 
  ⟨rfl, rfl, rfl, rfl, rfl, rfl, rfl, rfl, rfl, rfl, rfl, rfl, rfl, rfl, rfl, rfl, rfl, rfl, rfl, rfl, rfl, rfl, rfl, rfl, rfl, rfl, rfl, rfl⟩

end Sys2Proof.Machine
end

