-- ==== Sys2Proof/Laws/Ops.lean ====
section
/-! SUPPORT. What the shared operations of Machine/Ops.lean do: each reads back what it wrote, leaves every other register,
byte and unit as it was, and a raise is the log, the FAULT bit and nothing else of the data path. Provers cite these lemmas
and do not unfold the operations. -/

namespace Sys2Proof.Machine

variable {s : State}

/-! ### Registers -/

/-- A register reads what was last written to it, and a write changes no other register. -/
theorem reg_setReg (h : swf regReset s.regs = true) {a b : Nat} {v : Word} :
    reg (setReg s a v) b = if b = a then v else reg s b := sget_sset h

@[simp] theorem reg_setReg_same (h : swf regReset s.regs = true) {a : Nat} {v : Word} : reg (setReg s a v) a = v :=
  sget_sset_same h

@[simp] theorem reg_setReg_ne {a b : Nat} {v : Word} (h : b ≠ a) : reg (setReg s a v) b = reg s b := sget_sset_ne h

@[simp] theorem reg_setF_ne {a b hi lo v : Nat} (h : b ≠ a) : reg (setF s a hi lo v) b = reg s b := sget_sset_ne h

@[simp] theorem reg_setRegBit_ne {a b n : Nat} {x : Bool} (h : b ≠ a) : reg (setRegBit s a n x) b = reg s b :=
  sget_sset_ne h

@[simp] theorem reg_countUp_ne {a b n : Nat} (h : b ≠ a) : reg (countUp s a n) b = reg s b := sget_sset_ne h

@[simp] theorem reg_setReg64_ne {a b v : Nat} (h : b ≠ a) (h' : b ≠ a + 4) : reg (setReg64 s a v) b = reg s b := by
  unfold setReg64
  rw [reg_setReg_ne h', reg_setReg_ne h]

/-- Every write of a register keeps the registers in canonical form. -/
@[simp] theorem swf_setReg (h : swf regReset s.regs = true) {a : Nat} {v : Word} :
    swf regReset (setReg s a v).regs = true := swf_sset h

/-- A 64-bit register reads back modulo 2^64. -/
theorem reg64_setReg64 (h : swf regReset s.regs = true) {a v : Nat} : reg64 (setReg64 s a v) a = v % 2 ^ 64 := by
  unfold reg64 setReg64
  rw [reg_setReg_ne (by omega), reg_setReg_same h, reg_setReg_same (swf_setReg h)]
  simp only [BitVec.toNat_ofNat]
  omega

/-- A field reads back modulo its width. -/
theorem wfld_setFld {w : Word} {hi lo v : Nat} (h : lo ≤ hi) (h' : hi < 32) :
    wfld (setFld w hi lo v) hi lo = v % 2 ^ (hi + 1 - lo) := by
  have hp : 2 ^ (hi + 1) = 2 ^ lo * 2 ^ (hi + 1 - lo) := by rw [← Nat.pow_add]; congr 1; omega
  have hl : w.toNat % 2 ^ lo < 2 ^ lo := Nat.mod_lt _ (Nat.two_pow_pos _)
  have hv : v % 2 ^ (hi + 1 - lo) < 2 ^ (hi + 1 - lo) := Nat.mod_lt _ (Nat.two_pow_pos _)
  have hd : (2 : Nat) ^ lo ∣ 2 ^ 32 := Nat.pow_dvd_pow 2 (by omega)
  unfold wfld setFld fld setFldN
  rw [BitVec.toNat_ofNat]
  have e1 : ∀ x : Nat, x % 2 ^ 32 / 2 ^ lo % 2 ^ (hi + 1 - lo) = x / 2 ^ lo % 2 ^ (hi + 1 - lo) := by
    intro x
    rw [← Nat.mod_mul_right_div_self, ← Nat.mod_mul_right_div_self, ← hp,
      Nat.mod_mod_of_dvd _ (Nat.pow_dvd_pow 2 (by omega))]
  rw [e1, hp, ← Nat.mod_mul_right_div_self]
  have e2 : (w.toNat % 2 ^ lo + v % 2 ^ (hi + 1 - lo) * 2 ^ lo + w.toNat / (2 ^ lo * 2 ^ (hi + 1 - lo)) *
      (2 ^ lo * 2 ^ (hi + 1 - lo))) % (2 ^ lo * 2 ^ (hi + 1 - lo))
      = w.toNat % 2 ^ lo + v % 2 ^ (hi + 1 - lo) * 2 ^ lo := by
    rw [Nat.add_mul_mod_self_right]
    apply Nat.mod_eq_of_lt
    have hm : (v % 2 ^ (hi + 1 - lo) + 1) * 2 ^ lo ≤ 2 ^ (hi + 1 - lo) * 2 ^ lo := Nat.mul_le_mul_right _ hv
    rw [Nat.add_mul, Nat.one_mul, Nat.mul_comm (2 ^ (hi + 1 - lo))] at hm
    omega
  rw [e2, Nat.add_mul_div_right _ _ (Nat.two_pow_pos _), Nat.div_eq_of_lt hl, Nat.zero_add]

/-- A field of a register reads back modulo its width. -/
theorem regF_setF (h : swf regReset s.regs = true) {a hi lo v : Nat} (hl : lo ≤ hi) (hh : hi < 32) :
    regF (setF s a hi lo v) a hi lo = v % 2 ^ (hi + 1 - lo) := by
  unfold regF setF
  rw [reg_setReg_same h, wfld_setFld hl hh]

/-- A counter raised by `n` stands `n` higher, or at its top. -/
theorem reg_countUp (h : swf regReset s.regs = true) {a n : Nat} :
    (reg (countUp s a n) a).toNat = satN 32 ((reg s a).toNat + n) := by
  unfold countUp setRegN
  rw [reg_setReg_same h, BitVec.toNat_ofNat, Nat.mod_eq_of_lt]
  unfold satN
  omega

/-- What `Counted` says is what `countUp` does. -/
theorem counted_countUp (h : swf regReset s.regs = true) {a n : Nat} : Counted s (countUp s a n) a n := reg_countUp h

/-! ### DDR4 -/

/-- Many reads are the reads one by one. -/
theorem sgetMany_eq {α : Type} {d : Nat → α} {m : Sparse α} {k n : Nat} :
    sgetMany d m k n = (List.range n).map (fun i => sget d m (k + i)) := by
  induction n generalizing k with
  | zero => rfl
  | succ n ih =>
    rw [List.range_succ_eq_map, List.map_cons, List.map_map]
    unfold sgetMany
    rw [ih]
    congr 1
    exact List.map_congr_left fun i _ => by simp only [Function.comp, Nat.succ_eq_add_one, Nat.add_assoc, Nat.add_comm 1 i]

/-- DDR4 reads back the bytes written, and no other byte changes. -/
theorem memPut_bytes (h : Memory.wf s) {a : Nat} {bs : List Byte} :
    memBytes (memPut s a bs) a bs.length = bs
      ∧ ∀ b, (b < a ∨ a + bs.length ≤ b) → sget dByte (memPut s a bs).bb.mem b = sget dByte s.bb.mem b := by
  refine ⟨?_, fun b hb => sget_ssetMany_out hb⟩
  unfold memBytes
  rw [sgetMany_eq]
  apply List.ext_getElem
  · rw [List.length_map, List.length_range]
  · intro i hi hi'
    simp only [List.getElem_map, List.getElem_range]
    exact sget_ssetMany_in h hi'

/-- The mark of an uncorrectable line changes no byte. -/
@[simp] theorem setBad_mem {l : Nat} {b : Bool} : (setBad s l b).bb.mem = s.bb.mem := rfl

theorem clearWhole_mem {a n : Nat} : (clearWhole s a n).bb.mem = s.bb.mem := by
  unfold clearWhole
  generalize List.range (n / 64 + 1) = l
  induction l generalizing s with
  | nil => rfl
  | cons i l ih =>
    simp only [List.foldl_cons]
    rw [ih]
    split <;> rfl

/-! ### Causes -/

/-- A raise merges into the newest entry of its cause and source, and else becomes the newest of at most 4,096. -/
theorem logRaise_log {cause source detail : Nat} :
    (logRaise s cause source detail).ob.log = match s.ob.log with
      | e :: es => if e.cause = cause ∧ e.source = source then { e with reps := satN 16 (e.reps + 1) } :: es
          else (⟨cause, source, 1, detail % 2 ^ 16, nowTag s⟩ :: e :: es).take 4096
      | [] => [⟨cause, source, 1, detail % 2 ^ 16, nowTag s⟩] := by
  unfold logRaise
  split <;> simp_all
  split <;> simp_all

/-- An event on a vector touches no log. -/
@[simp] theorem msix_ob {v : Nat} : (msix s v).ob = s.ob := by
  unfold msix
  split
  · rfl
  · split <;> rfl

@[simp] theorem setFaultBit_ob {cause source a b : Nat} : (setFaultBit s cause source a b).ob = s.ob := by
  unfold setFaultBit faultDetail
  simp only []
  split <;> split <;> (try split) <;> (try split) <;> simp [setReg64, setRegN, setReg, setRegBit, setF]

/-- After a raise the newest entry of the log names its cause and source. -/
theorem raised_raise {cause source detail : Nat} : Raised (raise s cause source detail) cause source := by
  have h : (raise s cause source detail).ob.log = (logRaise s cause source detail).ob.log := by
    unfold raise
    split <;> simp
  unfold Raised
  rw [h, logRaise_log]
  split
  · split
    · rename_i hc; exact ⟨_, rfl, hc.1, hc.2⟩
    · exact ⟨_, rfl, rfl, rfl⟩
  · exact ⟨_, rfl, rfl, rfl⟩

/-! ### Writes to DDR4 -/

theorem applyResidual_zero {bs : List Byte} {r : List (Nat × Nat)} (h : ∀ p ∈ r, p.2 = 0) : applyResidual bs r = bs := by
  induction r generalizing bs with
  | nil => rfl
  | cons p r ih =>
    have hp : setAt bs p.1 (bs.getD p.1 0 ^^^ BitVec.ofNat 8 p.2) = bs := by
      rw [h p (List.mem_cons_self ..)]
      apply List.ext_getElem <;> simp +contextual [setAt, List.getElem_set]
    unfold applyResidual at ih ⊢
    rw [List.foldl_cons, hp]
    exact ih fun q hq => h q (List.mem_cons_of_mem _ hq)

theorem cwDecode_clean : cwDecode (cwErrors [] 0) = .clean (cwErrors [] 0) ∧ cwDecode (cwErrors [] 1) = .clean (cwErrors [] 1) := by
  decide

theorem residual_clean {cw c : Nat} : ∀ p ∈ residualBytes cw (cwErrors [] c), p.2 = 0 := by
  have hz : ∀ i, (cwErrors [] c).getD i 0 = 0 := fun i => by
    show ((List.range 18).map (fun _ => 0)).getD i 0 = 0
    rw [List.getD_eq_getElem?_getD, List.getElem?_map]
    cases (List.range 18)[i]? <;> rfl
  intro p hp
  simp only [residualBytes, List.mem_flatten, List.mem_map] at hp
  obtain ⟨_, ⟨i, _, rfl⟩, hp⟩ := hp
  obtain ⟨b, _, rfl⟩ := List.mem_map.1 hp
  show fld ((cwErrors [] c).getD i 0) _ _ * _ = 0
  rw [hz]
  simp [fld]

/-- A line whose symbols show no error reads as it stands. -/
theorem lineRead_clean {l : Nat} : lineRead s l [] = ⟨memBytes s (64 * l) 64, none, lineBad s l⟩ := by
  have h0 : ∀ p ∈ residualBytes 0 (cwErrors [] 0) ++ residualBytes 1 (cwErrors [] 1), p.2 = 0 := fun p hp =>
    (List.mem_append.1 hp).elim (residual_clean p) (residual_clean p)
  unfold lineRead
  split
  · simp_all
  · rw [cwDecode_clean.1, cwDecode_clean.2]
    simp_all [applyResidual_zero h0]

theorem memPut_wf (h : Memory.wf s) {a : Nat} {bs : List Byte} : Memory.wf (memPut s a bs) := swf_ssetMany h

/-- What is read of DDR4 and written back changes no byte. -/
theorem memPut_same (h : Memory.wf s) {a n b : Nat} :
    sget dByte (memPut s a (memBytes s a n)).bb.mem b = sget dByte s.bb.mem b := by
  by_cases hb : b < a ∨ a + n ≤ b
  · exact sget_ssetMany_out (by simpa [memBytes, sgetMany_eq] using hb)
  · obtain ⟨i, rfl⟩ : ∃ i, b = a + i := ⟨b - a, by omega⟩
    have hi : i < (memBytes s a n).length := by simp [memBytes, sgetMany_eq]; omega
    refine (sget_ssetMany_in h hi).trans ?_
    simp [memBytes, sgetMany_eq]

@[simp] theorem msix_bb {v : Nat} : (msix s v).bb = s.bb := by
  unfold msix
  repeat' split
  all_goals simp

@[simp] theorem raise_bb {cause source detail : Nat} : (raise s cause source detail).bb = s.bb := by
  unfold raise logRaise setFaultBit faultDetail
  dsimp only
  repeat' split
  all_goals simp

theorem noteBad_mem {l : Nat} : (noteBad s l).bb.mem = s.bb.mem := by
  unfold noteBad
  dsimp only
  repeat' split
  all_goals simp

/-- The read of the lines that a write covers in part changes no byte, where their symbols show no error. -/
theorem readParts_mem {ls : List Nat} (h : Memory.wf s) :
    Memory.wf (ls.foldl (fun s l => if (readLine s l []).2.bad then (readLine s l []).1
      else memPut (readLine s l []).1 (64 * l) (readLine s l []).2.bytes) s)
    ∧ ∀ b, sget dByte (ls.foldl (fun s l => if (readLine s l []).2.bad then (readLine s l []).1
      else memPut (readLine s l []).1 (64 * l) (readLine s l []).2.bytes) s).bb.mem b = sget dByte s.bb.mem b := by
  induction ls generalizing s with
  | nil => exact ⟨h, fun _ => rfl⟩
  | cons l ls ih =>
    have hs : (if (readLine s l []).2.bad then (readLine s l []).1
        else memPut (readLine s l []).1 (64 * l) (readLine s l []).2.bytes)
          = if lineBad s l then noteBad s l else memPut s (64 * l) (memBytes s (64 * l) 64) := by
      unfold readLine
      rw [lineRead_clean]
      cases lineBad s l <;> rfl
    rw [List.foldl_cons, hs]
    split
    · have hw : Memory.wf (noteBad s l) := by rw [Memory.wf, noteBad_mem]; exact h
      exact ⟨(ih hw).1, fun b => ((ih hw).2 b).trans (by rw [noteBad_mem])⟩
    · have hw : Memory.wf (memPut s (64 * l) (memBytes s (64 * l) 64)) := memPut_wf h
      exact ⟨(ih hw).1, fun b => ((ih hw).2 b).trans (memPut_same h)⟩

/-- A write to DDR4 stores its bytes and changes no other. -/
theorem memWrite_bytes (h : Memory.wf s) {a : Nat} {bs : List Byte} :
    memBytes (memWrite s a bs) a bs.length = bs
      ∧ ∀ b, (b < a ∨ a + bs.length ≤ b) → sget dByte (memWrite s a bs).bb.mem b = sget dByte s.bb.mem b := by
  have he : ∀ l : Nat, (if some l = (partLines a bs.length).head? then ([] : List SymErr) else []) = [] := fun _ => ite_self _
  have hp := readParts_mem (ls := partLines a bs.length) h
  unfold memWrite memBytes
  rw [clearWhole_mem]
  simp only [he]
  generalize List.foldl _ s _ = u at hp ⊢
  exact ⟨(memPut_bytes hp.1).1, fun b hb => ((memPut_bytes hp.1).2 b hb).trans (hp.2 b)⟩

/-! ### Cores, tile store -/

/-- A core written reads back, and no other core changes. -/
theorem core_setCore (h : swf dCore s.weft.cores = true) {t u : Nat} {c : Core} :
    core (setCore s t c) u = if u = t then c else core s u := sget_sset h

@[simp] theorem core_setCore_ne {t u : Nat} {c : Core} (h : u ≠ t) : core (setCore s t c) u = core s u := sget_sset_ne h

/-- Tile store reads back the bytes stored, and no other byte of any tile store changes. -/
theorem tsWrite_bytes (h : swf dByte s.ts = true) {t a : Nat} {bs : List Byte} (hl : a + bs.length ≤ tsSize) :
    tsRead (tsWrite s t a bs) t a bs.length = bs
      ∧ ∀ k, (k < tsSize * t + a ∨ tsSize * t + a + bs.length ≤ k) →
        sget dByte (tsWrite s t a bs).ts k = sget dByte s.ts k := by
  have ht : bs.take (tsSize - a) = bs := List.take_of_length_le (by omega)
  unfold tsWrite
  rw [ht]
  refine ⟨?_, fun k hk => sget_ssetMany_out hk⟩
  unfold tsRead
  apply List.ext_getElem
  · rw [List.length_map, List.length_range]
  · intro i hi hi'
    simp only [List.getElem_map, List.getElem_range]
    rw [if_pos (by omega)]
    exact sget_ssetMany_in h hi'

end Sys2Proof.Machine
end

