-- ==== Sys2Proof/Laws/Warp.lean ====
section
/-! SUPPORT. The frame in which every slot of a pick word runs (Machine/WarpOps.lean). -/

namespace Sys2Proof.Machine

variable {s : State} {w : WSlot} {slot lag f tp : Nat} {holds : PickWord → Bool}

/-- A slot that issues runs its operation at its site, enabled by its predicate. -/
theorem warpSlot_issues {k : State → WarpSite → Bool → State} (h : SlotIssues w slot lag holds s f tp) :
    warpSlot w slot lag holds s k = k (slotStart s w slot tp) (warpSite s w slot f tp) (slotEnabled s w) := by
  obtain ⟨_, ht, hi, hf, hb, he, hx⟩ := h
  have hf' : servedFrame (noteIssue s w.tile slot) tp lag = some f := hf
  simp only [warpSlot, ht, hi, eccFixed, hx, hb, he, hf', List.isEmpty_nil, Bool.not_true, Bool.and_false, Bool.false_eq_true,
    if_false, if_true]
  rfl

/-- A slot that the pick sequencer does not issue leaves the machine alone (spec/06 R152, R153). -/
theorem warpSlot_idle {k : State → WarpSite → Bool → State}
    (h : ∀ tp, periodStart s s.tb.tick = some tp → slotIssues s w slot tp holds = false) :
    warpSlot w slot lag holds s k = s := by
  unfold warpSlot
  split
  · rfl
  · rename_i tp htp; rw [h tp htp]; rfl

/-- A unit that exists runs its operation. -/
theorem onUnit_exists {count present n : Nat} {k : State → State} (h : n < present) (hc : present ≤ count) :
    onUnit count present n s k = .next (k s) := by
  simp [onUnit, Nat.not_le.mpr h, Nat.not_le.mpr (Nat.lt_of_lt_of_le h hc)]

/-- No device of the family has more than 256 tiles (spec/01 R18). -/
theorem tileCount_le : tileCount s ≤ 256 := by unfold tileCount; split <;> omega

end Sys2Proof.Machine
end

