-- ==== Sys2Proof/Laws/Weft.lean ====
section
/-! SUPPORT. The frame in which every weft instruction runs (Machine/WeftOps.lean): the cycles it spends touch nothing that
an instruction reads, and an instruction that runs settles what its operation answers. -/

namespace Sys2Proof.Machine

variable {s : State} {t : Nat} {f : WFields} {e : WEnv}

/-- A core other than an idle one keeps its new value when set. -/
theorem sget_sset_of_ne {α : Type} [DecidableEq α] {d : Nat → α} {k : Nat} {v : α} {m : Sparse α} (h : v ≠ d k) :
    sget d (sset d k v m) k = v := by
  have hc : ∀ m, sget d (scons d k v m) k = v := fun m => by rw [scons, if_neg h]; simp [sget]
  induction m with
  | nil => exact hc _
  | cons e m ih =>
    obtain ⟨j, w⟩ := e
    unfold sset
    split
    · exact hc _
    · split
      · exact hc _
      · rw [sget, if_neg (by assumption)]; exact ih

/-- Cycles counted change the counts alone. -/
theorem foldl_countCycles (l : List (Nat × Nat)) : ∃ cy,
    l.foldl (fun s x => countCycles s t (x.1 % 16) x.2) s = { s with weft := { s.weft with cycles := cy } } := by
  induction l generalizing s with
  | nil => exact ⟨s.weft.cycles, rfl⟩
  | cons x l ih =>
    obtain ⟨cy, h⟩ := ih (s := countCycles s t (x.1 % 16) x.2)
    exact ⟨cy, h⟩

/-- What the cycles of an instruction change: the counts, CYCLE of its core, its place among the issue opportunities (spec/08
R241, spec/16 R446, R456, spec/18 R513). -/
theorem spendCycles_eq : ∃ cy ac he, spendCycles s t e = { s with
    weft := { s.weft with
      cycles := cy
      cores := sset dCore t { core s t with
        cycle := ((core s t).cycle + (1 + ((idleCycles s t e).map (·.2)).sum)) % 2 ^ 64
        opp := ((core s t).opp + bubblesDue s t + 1) % 64 } s.weft.cores }
    tile := { s.tile with act := ac, held := he } } := by
  obtain ⟨ac, he, ha⟩ : ∃ ac he, noteActivity s t = { s with tile := { s.tile with act := ac, held := he } } := ⟨_, _, rfl⟩
  obtain ⟨cy, h⟩ := foldl_countCycles (s := noteActivity s t) (t := t) (idleCycles s t e)
  rw [ha] at h
  unfold spendCycles
  simp only [ha, h]
  exact ⟨_, ac, he, rfl⟩

@[simp] theorem getS_spendCycles {u r : Nat} : getS (spendCycles s t e) u r = getS s u r := by
  obtain ⟨cy, ac, he, h⟩ := spendCycles_eq (s := s) (t := t) (e := e)
  rw [h]; rfl

@[simp] theorem getP_spendCycles {u r : Nat} : getP (spendCycles s t e) u r = getP s u r := by
  obtain ⟨cy, ac, he, h⟩ := spendCycles_eq (s := s) (t := t) (e := e)
  rw [h]; rfl

@[simp] theorem getV_spendCycles {u r : Nat} : getV (spendCycles s t e) u r = getV s u r := by
  obtain ⟨cy, ac, he, h⟩ := spendCycles_eq (s := s) (t := t) (e := e)
  rw [h]; rfl

@[simp] theorem getX_spendCycles {u r : Nat} : getX (spendCycles s t e) u r = getX s u r := by
  obtain ⟨cy, ac, he, h⟩ := spendCycles_eq (s := s) (t := t) (e := e)
  rw [h]; rfl

@[simp] theorem tsRead_spendCycles {u a n : Nat} : tsRead (spendCycles s t e) u a n = tsRead s u a n := by
  obtain ⟨cy, ac, he, h⟩ := spendCycles_eq (s := s) (t := t) (e := e)
  rw [h]; rfl

@[simp] theorem reg_spendCycles {a : Nat} : reg (spendCycles s t e) a = reg s a := by
  obtain ⟨cy, ac, he, h⟩ := spendCycles_eq (s := s) (t := t) (e := e)
  rw [h]; rfl

@[simp] theorem guardOf_spendCycles {u : Nat} : guardOf (spendCycles s t e) u f = guardOf s u f := by
  simp only [guardOf, getP_spendCycles]

@[simp] theorem effAddr_spendCycles {u r : Nat} : effAddr (spendCycles s t e) u r f = effAddr s u r f := by
  simp only [effAddr, getS_spendCycles]

/-- A core that issues is not the core of a tile that runs no job. -/
theorem core_state_of_issues (h : coreIssues s t = true) :
    (core s t).state = coreRunning ∨ (core s t).state = coreStopping := by
  simp only [coreIssues, Bool.and_eq_true, Bool.or_eq_true, beq_iff_eq] at h
  exact h.1.1.1.1

/-- The core of an instruction that runs, once its cycles are counted: the same but for CYCLE and its issue opportunity. -/
theorem core_spendCycles (h : coreIssues s t = true) : core (spendCycles s t e) t =
    { core s t with
      cycle := ((core s t).cycle + (1 + ((idleCycles s t e).map (·.2)).sum)) % 2 ^ 64
      opp := ((core s t).opp + bubblesDue s t + 1) % 64 } := by
  obtain ⟨cy, ac, he, hq⟩ := spendCycles_eq (s := s) (t := t) (e := e)
  rw [hq]
  refine sget_sset_of_ne fun h0 => ?_
  have h1 : (core s t).state = 0 := congrArg Core.state h0
  have h2 := core_state_of_issues h
  rw [h1] at h2
  rcases h2 with h2 | h2 <;> simp at h2

/-- An instruction that runs settles what its operation answers on the state after its cycles, with its guard. -/
theorem weftInstr_runs {h : Shape} {lane : Bool} {op : State → Nat → WRes} (hr : Runs t f e h lane s) :
    weftInstr t f e h lane s op = .next (settle t (op (spendCycles s t e) (guardOf s t f))) := by
  obtain ⟨⟨ht, hc, ha, hfe, hp, hb⟩, hl, hg⟩ := hr
  have ht' : t < 256 := Nat.lt_of_lt_of_le ht (by unfold tileCount; split <;> omega)
  simp only [weftInstr, onUnit, Nat.not_le.mpr ht, Nat.not_le.mpr ht', hc, ha, hfe, core_spendCycles hc, Nat.not_lt.mpr hp, hb, hl,
    guardOf_spendCycles, Bool.not_true, Bool.or_self, Bool.false_eq_true, if_false]
  rcases hg with hg | hg <;> simp [hg]

/-- As `weftInstr_runs`, for an instruction without a trap of its own. -/
theorem weftSimple_runs {h : Shape} {lane : Bool} {op : State → Nat → State} (hr : Runs t f e h lane s) :
    weftSimple t f e h lane s op = .next (retire (op (spendCycles s t e) (guardOf s t f)) t none) :=
  weftInstr_runs hr

end Sys2Proof.Machine
end

