-- ==== Sys2Proof/Machine/Pins.lean ====
section
/-! DEFINITION. What the output pins show (spec/18 R522, spec/19 R530): in reset, under a driven boundary-scan instruction, in the safe
state after it, and in operation. -/

namespace Sys2Proof.Machine

/-- The output pins by group. -/
inductive PinGroup where
  | serialTx | trigOut | snapOut | flClk | flCsN | flD | pwrAlertN | smbAlertN | otherOpenDrain | mcResetN | mcCke | otherMemory
  | tdo | thermtripN | pwrOffReqN
deriving DecidableEq, Repr

/-- What a pin shows: a level, a differential low, electrical idle, high impedance, an open-drain output released; its update
cell, or what the core drives. -/
inductive PinLevel where
  | low | high | diffLow | idle | highZ | released | cell | core
deriving DecidableEq, Repr

/-- The level of an active-low open-drain output. -/
def openDrain (n : Bool) : PinLevel := if n then .released else .low

/-- The EX-20 is in reset, or S0 has not sampled the straps (R530). -/
def pinsInReset (s : State) : Bool := !s.pins.sysRstN || s.pins.undervolt || stepOutcome s 0 == 0

/-- The pins in reset (R530). -/
def resetPin (s : State) (p : PinGroup) : PinLevel :=
  match p with
  | .serialTx => .idle
  | .trigOut => .diffLow
  | .snapOut | .flClk | .mcResetN | .mcCke => .low
  | .flCsN => .high
  | .flD | .otherMemory | .tdo => .highZ
  | .pwrAlertN | .smbAlertN | .otherOpenDrain => .released
  | .thermtripN => openDrain s.pins.thermtripN
  | .pwrOffReqN => openDrain s.pins.pwrOffReqN

/-- The pins in the safe state (R522). TDO belongs to the TAP. -/
def safePin (s : State) (p : PinGroup) : PinLevel :=
  match p with
  | .serialTx => .idle
  | .trigOut => .diffLow
  | .snapOut | .flClk | .mcResetN => .low
  | .flCsN | .pwrAlertN => .high
  | .flD | .mcCke | .otherMemory => .highZ
  | .smbAlertN | .otherOpenDrain => .released
  | .tdo => .core
  | .thermtripN => openDrain s.pins.thermtripN
  | .pwrOffReqN => openDrain s.pins.pwrOffReqN

/-- The pins in operation: those that State holds, and what the core drives. -/
def corePin (s : State) (p : PinGroup) : PinLevel :=
  match p with
  | .snapOut => if s.pins.snapOut then .high else .low
  | .pwrAlertN => openDrain s.pins.pwrAlertN
  | .smbAlertN => openDrain s.pins.smbAlertN
  | .thermtripN => openDrain s.pins.thermtripN
  | .pwrOffReqN => openDrain s.pins.pwrOffReqN
  | _ => .core

/-- What a pin shows (R522, R530): a driven instruction puts every pin under its update cell but for the two of the trip logic, until
the TAP returns to Test-Logic-Reset; then the safe state holds until reset. -/
def pinLevel (s : State) (p : PinGroup) : PinLevel :=
  if pinsInReset s then resetPin s p
  else if s.ob.testMode then
    if s.ob.pinsSafe then safePin s p
    else match p with
      | .thermtripN | .pwrOffReqN | .tdo => safePin s p
      | _ => .cell
  else corePin s p

end Sys2Proof.Machine
end

