-- ==== Sys2Proof/Tests/Slice0.lean ====
section
/-! SUPPORT. Tests: for every statement with hypotheses a small state and operands that meet them, at boundary values;
commands that well-formedness refuses; and the spec's own worked values. Expected results come from the spec. -/

namespace Tests

open Sys2Proof Sys2Proof.Machine

/-! ### Small states -/

/-- Registers at given values, to build small states. -/
def put (s : State) (l : List (Nat × Nat)) : State := l.foldl (fun s e => setRegN s e.1 e.2) s

/-- A loaded image whose first tiles have the planes `ps`. -/
def imageOf (ps : List Nat) : Image :=
  { tiles := 256, lt := 2, framePulses := 4, selvage := 1, p := 3, h := 1, l := 2, delta := 1, warpStatic := 0, warpEpf := 0
    progDigest := [], weightDigest := [], layoutDigest := [], planes := ps, streams := [] }

/-- A device in operation: powered, booted, every block released, TICK locked. -/
def live : State :=
  put { State.reset with pins := { sysRstN := true, perstN := true } } [(rKpBootStatus, 0x20000FFF), (rTbStatus, 0x12)]

/-- The same in a run. -/
def running : State := { put live [(rTbStatus, 0x14)] with tb := { tick := 9 } }

/-- Tile 255 is a weft tile whose core has the given place and state. -/
def weft (c : Core) : State :=
  { live with image := some (imageOf (List.replicate 256 2)), weft := { cores := [(255, c)] } }

/-- Its core runs at the last instruction of the pick store. -/
def W : State := weft { state := coreRunning, pc := 8191 }

/-- The highest register fields and an immediate. -/
def top (p v x : Nat) (imm : Nat := 0) : WFields := { rd := p, ra := v, rb := v, rc := x, imm := imm }

/-- `s` with the instruction of opcode `opc` and fields `f` where the core of tile 255 stands. -/
def held (s : State) (opc : Nat) (f : WFields) : State :=
  { s with tile := { s.tile with
    pick := sset dDWord (8192 * 255 + (core s 255).pc) (BitVec.ofNat 64 (encodeWeft opc f)) s.tile.pick } }

/-- Tile 255 meets and executes the instruction that its pick store holds. -/
def RunsIn (s : State) (f : WFields) (h : Shape) (lane : Bool) : Prop := Runs 255 f {} h lane (held s h.opc f)

/-- The opcodes of the signed scalar loads and of the scalar stores of `n` bytes. -/
def loadCode (n : Nat) : Nat := if n = 8 then 0x40 else if n = 4 then 0x41 else if n = 2 then 0x43 else 0x45
/-- The same for stores. -/
def storeCode (n : Nat) : Nat := if n = 8 then 0x47 else if n = 4 then 0x48 else if n = 2 then 0x49 else 0x4A

/-- `Canonical`, evaluated. -/
def canonB (s : State) : Bool :=
  swf regReset s.regs && (swf dLane s.bm.lanes && swf dStream s.bm.streams) && (swf dDWord s.tr.tables
    && swf dMachine s.tr.machines && swf dScore s.tr.scores && swf dTrigIn s.tr.trigIn && swf dTrigOut s.tr.trigOut)
    && (swf dByte s.bb.mem && swf dFalse s.bb.bad && swf dDWord s.bb.chmap && swf dCap s.bb.cap && swf dMemChan s.bb.chans)
    && swf dChain s.ob.chains && swf dFalse s.cx.bias && swf dMark s.marks && swf dDWord s.dmap && swf dByte s.ts
    && (swf dDWord s.tile.pick && swf dNat s.tile.cells && swf dPage s.tile.pages && swf dWord s.tile.acc
      && swf dFalse s.tile.sat && swf dSide s.tile.side)
    && (swf dFalse s.warp.preds && swf dTokens s.warp.tokens && swf dSkein s.warp.skeins && swf dExec s.warp.execs)
    && (swf dDWord s.weft.sreg && swf dDWord s.weft.preg && swf dWord s.weft.vreg && swf dXLane s.weft.xa
      && swf dCore s.weft.cores && swf dSel s.weft.sel && swf dChan s.weft.chans && swf dCnt s.weft.cycles)
    && swf dDWord s.rd.slots && swf dPort s.kw.ports

theorem canonical_of {s : State} (h : canonB s = true) : Canonical s := by
  simp only [canonB, Bool.and_eq_true] at h
  simp_all only [Canonical, wfBm, wfTr, wfBb, wfOb, wfCx, wfTile, wfWarp, wfWeft, wfKw, and_self]

/-! ### The hypotheses of the statements can be met: weft instructions -/

theorem witness_ScalarArithmetic :
    RunsIn W (top 31 31 0) { opc := 0x10, rd := 32, ra := 32, rb := 32 } false
      ∧ RunsIn W (top 7 31 5) { opc := 0x1F, rd := 8, ra := 32, rb := 32, rc := 6 } false
      ∧ RunsIn W { rd := 7, ra := 31, rc := 5, imm := 2 ^ 32 - 1 } { opc := 0x29, rd := 8, ra := 32, rc := 6, imm := immAny } false
      ∧ (255 < tileCount W ∧ coreIssues W 255 = true ∧ (core W 255).pc ≤ 8191 ∧ 6 ≤ (top 7 31 6).rc ∧ 6 ≤ (top 7 31 7).rc)
      ∧ RunsIn W (top 7 7 0 3) { opc := 0x2A, rd := 8, ra := 8, rb := 8, imm := immLt 4 } false
      ∧ RunsIn W { rd := 7, ra := 31 } { opc := 0x2B, rd := 8, ra := 32 } false
      ∧ RunsIn W { rd := 31, ra := 7 } { opc := 0x2C, rd := 32, ra := 8 } false := by unfold RunsIn Runs Fetched; decide

theorem witness_ScalarImmediateForms :
    RunsIn W { rd := 31, ra := 31, imm := 2 ^ 32 - 1 } { opc := 0x20, rd := 32, ra := 32, imm := immAny } false
      ∧ RunsIn W { rd := 31, imm := 2 ^ 32 - 1 } { opc := 0x21, rd := 32, imm := immAny } false
      ∧ RunsIn W { rd := 31, ra := 31, imm := 63 } { opc := 0x26, rd := 32, ra := 32, imm := immLt 64 } false
      ∧ (255 < tileCount W ∧ coreIssues W 255 = true ∧ (core W 255).pc ≤ 8191) := by unfold RunsIn Runs Fetched; decide

/-- A ticket of tile 255 that is open. -/
def openTicket : State := { W with weft := { W.weft with tickets := [⟨255, 1, 0, zeros 32, false, [], [], none⟩] } }

theorem witness_SystemInstructions :
    RunsIn W {} { opc := 0x00 } false
      ∧ (RunsIn W { imm := 15 } { opc := 0x01, imm := immLt 16 } false ∧ openTickets W 255 = [])
      ∧ (RunsIn openTicket { imm := 11 } { opc := 0x01, imm := immLt 16 } false ∧ bitN 11 2 = false)
      ∧ (RunsIn W { imm := 65535 } { opc := 0x03, imm := immLt (2 ^ 16) } false ∧ openTickets W 255 = [])
      ∧ RunsIn W { rd := 31, imm := 255 } { opc := 0x05, rd := 32, imm := immLt 256 } false
      ∧ RunsIn W { ra := 31, imm := 11 } { opc := 0x06, ra := 32, imm := immLt 256 } false := by unfold RunsIn Runs Fetched; decide

theorem witness_Branches :
    RunsIn W { imm := 2 ^ 32 - 1 } { opc := 0x30, imm := immAny } false
      ∧ RunsIn W { ra := 7, imm := 1 } { opc := 0x31, ra := 8, imm := immAny } false
      ∧ RunsIn W { rd := 31, imm := 0 } { opc := 0x33, rd := 32, imm := immAny } false
      ∧ RunsIn W { ra := 31, imm := 8192 } { opc := 0x34, ra := 32, imm := immAny } false := by unfold RunsIn Runs Fetched; decide

theorem witness_RetireOrTrap :
    Canonical W ∧ (core W 255).state ≠ coreStopping ∧ Canonical (weft { state := coreStopping })
      ∧ (core (weft { state := coreStopping }) 255).state = coreStopping :=
  ⟨canonical_of (by decide), by decide, canonical_of (by decide), by decide⟩

theorem witness_GuardDecodeAndAccess :
    (255 < tileCount W ∧ coreIssues (weft {}) 255 = false)
      ∧ (coreIssues (weft { state := coreRunning, pc := 8192 }) 255 = true
        ∧ 8191 < (core (weft { state := coreRunning, pc := 8192 }) 255).pc)
      ∧ (coreIssues W 255 = true ∧ (core W 255).pc ≤ 8191 ∧ ({ pickBad := true } : WEnv).pickBad = true)
      ∧ legalFields (top 32 31 0) { opc := 0x10, rd := 32, ra := 32, rb := 32 } = false
      ∧ (legalFields { rd := 31, pg := 7 } { opc := 0x10, rd := 32, ra := 32, rb := 32 } = true ∧ bitN (guardOf W 255 { pg := 7 }) 0 = false)
      ∧ RunsIn W { imm := 2 ^ 19 - 7 } { opc := 0x40, rd := 32, ra := 32, imm := immAny } false
      ∧ 2 ^ 19 < effAddr W 255 0 { imm := 2 ^ 19 - 7 } + 8
      ∧ (effAddr W 255 0 { imm := 2 ^ 19 - 12 } + 8 ≤ 2 ^ 19 ∧ effAddr W 255 0 { imm := 2 ^ 19 - 12 } % 8 ≠ 0)
      ∧ (effAddr W 255 0 { imm := 2 ^ 19 - 8 } + 8 ≤ 2 ^ 19 ∧ effAddr W 255 0 { imm := 2 ^ 19 - 8 } % 8 = 0
        ∧ hitsBad [65535] (2 ^ 19 - 8) 8 = true)
      ∧ RunsIn W { imm := 2 ^ 19 - 2 } { opc := 0x48, ra := 32, rb := 32, imm := immAny } false
      ∧ (2 ^ 19 < effAddr W 255 0 { imm := 2 ^ 19 - 2 } + 4)
      ∧ (effAddr W 255 0 { imm := 2 ^ 19 - 6 } + 4 ≤ 2 ^ 19 ∧ effAddr W 255 0 { imm := 2 ^ 19 - 6 } % 4 ≠ 0) := by
  unfold RunsIn Runs Fetched; decide

theorem witness_WeftLoads :
    (∀ n ∈ [8, 4, 2, 1], RunsIn W { rd := 31, imm := 2 ^ 19 - n } { opc := loadCode n, rd := 32, ra := 32, imm := immAny } false
        ∧ effAddr W 255 0 { imm := 2 ^ 19 - n } + n ≤ 2 ^ 19 ∧ effAddr W 255 0 { imm := 2 ^ 19 - n } % n = 0)
      ∧ (RunsIn W { rd := 31, imm := 2 ^ 19 - 256 } { opc := 0x4B, rd := 32, ra := 32, imm := immAny } true
        ∧ effAddr W 255 0 { imm := 2 ^ 19 - 256 } + 256 ≤ 2 ^ 19 ∧ effAddr W 255 0 { imm := 2 ^ 19 - 256 } % 32 = 0)
      ∧ (∀ c < 7, RunsIn W { rd := 31, rc := c, imm := 2 ^ 19 - 256 } { opc := 0x4D, rd := 32, ra := 32, rc := 7, imm := immAny } true
        ∧ 2 ^ 19 - 256 + 8 * packBits c ≤ 2 ^ 19 ∧ (2 ^ 19 - 256) % 16 = 0)
      ∧ (RunsIn W { rd := 31, rb := 31, pn := true, imm := 2 } { opc := 0x4F, rd := 32, ra := 32, rb := 32, imm := immAny } true
        ∧ ∀ i < 64, bitN (guardOf W 255 { pn := true }) i = false) := by
  unfold RunsIn Runs Fetched; decide

theorem witness_WeftStores :
    (∀ n ∈ [8, 4, 2, 1], RunsIn W { rb := 31, imm := 2 ^ 19 - n } { opc := storeCode n, ra := 32, rb := 32, imm := immAny } false
        ∧ effAddr W 255 0 { imm := 2 ^ 19 - n } + n ≤ 2 ^ 19 ∧ effAddr W 255 0 { imm := 2 ^ 19 - n } % n = 0)
      ∧ RunsIn W { rb := 31, imm := 2 ^ 19 - 256 } { opc := 0x4C, ra := 32, rb := 32, imm := immAny } true
      ∧ (∀ c < 7, RunsIn W { rb := 31, rc := c, imm := 2 ^ 19 - 256 } { opc := 0x4E, ra := 32, rb := 32, rc := 7, imm := immAny } true
        ∧ 2 ^ 19 - 256 + 8 * packBits c ≤ 2 ^ 19)
      ∧ guardOf W 255 {} ≠ 0 := by
  unfold RunsIn Runs Fetched; decide

theorem witness_VectorIntegersAndMoves :
    RunsIn W (top 31 31 0) { opc := 0x50, rd := 32, ra := 32, rb := 32 } true
      ∧ RunsIn W (top 7 31 5) { opc := 0x5E, rd := 8, ra := 32, rb := 32, rc := 6 } true
      ∧ RunsIn W (top 31 31 7) { opc := 0x5F, rd := 32, ra := 32, rb := 32, rc := 8 } true
      ∧ RunsIn W { rd := 31, ra := 31 } { opc := 0x70, rd := 32, ra := 32 } true
      ∧ RunsIn W { rd := 31, ra := 31, imm := 63 } { opc := 0x71, rd := 32, ra := 32, imm := immLt 64 } false
      ∧ RunsIn W { rd := 31 } { opc := 0x74, rd := 32 } true ∧ RunsIn W { rd := 31, ra := 31 } { opc := 0x75, rd := 32, ra := 32 } false
      ∧ (∃ op, vcvt (0x01 % 16) (0x01 / 16) = some op
        ∧ RunsIn W { rd := 31, ra := 31, imm := 0x01 } { opc := 0x76, rd := 32, ra := 32, imm := immLt 256 } true
        ∧ laneFlags (guardOf W 255 {}) ((getV W 255 31).map op) &&& (core W 255).fpctl % 32 = 0)
      ∧ RunsIn W (top 31 31 0 (2 ^ 18 - 1)) { opc := 0x77, rd := 32, ra := 32, rb := 32, imm := immLt (2 ^ 18) } true := by
  unfold RunsIn Runs Fetched
  refine ⟨by decide, by decide, by decide, by decide, by decide, by decide, by decide, ⟨_, rfl, by decide, ?_⟩, by decide⟩
  show _ &&& 0 = 0
  exact Nat.and_zero _

theorem witness_WeftRegisterFiles : Canonical W ∧ (List.replicate 64 true).length = 64 := ⟨canonical_of (by decide), by decide⟩

theorem witness_VectorFloatForms :
    RunsIn W (top 31 31 0 1) { opc := 0x60, rd := 32, ra := 32, rb := 32, imm := immLt 2 } true
      ∧ RunsIn W (top 31 31 31 2) { opc := 0x63, rd := 32, ra := 32, rb := 32, rc := 32, imm := immLt 3 } true
      ∧ RunsIn W (top 7 31 3) { opc := 0x66, rd := 8, ra := 32, rb := 32, rc := 4 } true
      ∧ RunsIn W { rd := 31, ra := 31, imm := 1 } { opc := 0x67, rd := 32, ra := 32, imm := immLt 2 } true
      ∧ RunsIn W { rd := 31, ra := 31 } { opc := 0x68, rd := 32, ra := 32 } true
      ∧ RunsIn W { rd := 31, ra := 31 } { opc := 0x6C, rd := 32, ra := 32 } false := by unfold RunsIn Runs Fetched; decide

/-- An exact image whose first class byte is 4. -/
def badImage : State := { W with ts := [(tsSize * 255 + 2 ^ 19 - 3072 + 40, 4)] }

theorem ofLe_zeros (n : Nat) : ofLe (List.replicate n 0#8) = 0 := by
  induction n with
  | zero => rfl
  | succ n ih => simp [List.replicate_succ, ofLe, ih]

theorem leAt_zeros (n a k : Nat) : leAt (zeros n) a k = 0 := by
  simp [leAt, slice, padTo, zeros, List.drop_replicate, List.take_append, List.take_replicate, ofLe_zeros,
    List.replicate_append_replicate]

theorem tsRead_W : tsRead W 255 (2 ^ 19 - 3072) 3072 = zeros 3072 := by
  unfold tsRead zeros
  rw [List.eq_replicate_iff]
  refine ⟨by simp, fun b hb => ?_⟩
  obtain ⟨i, _, rfl⟩ := List.mem_map.1 hb
  split <;> rfl

set_option maxRecDepth 100000 in
theorem witness_ExactAccumulators :
    RunsIn W { rd := 3 } { opc := 0x80, rd := 4 } false ∧ RunsIn W { rd := 3, ra := 31 } { opc := 0x81, rd := 4, ra := 32 } true
      ∧ RunsIn W { rd := 31, ra := 3 } { opc := 0x82, rd := 32, ra := 4 } true
      ∧ RunsIn W { rd := 31, ra := 3 } { opc := 0x83, rd := 32, ra := 4 } false
      ∧ (∀ fl : Nat, fl &&& (core W 255).fpctl % 32 = 0)
      ∧ (RunsIn W { ra := 3, imm := 2 ^ 19 - 3072 } { opc := 0x84, ra := 4, rb := 32, imm := immAny } false
        ∧ effAddr W 255 0 { imm := 2 ^ 19 - 3072 } + 3072 ≤ 2 ^ 19 ∧ effAddr W 255 0 { imm := 2 ^ 19 - 3072 } % 64 = 0
        ∧ (getX W 255 3).all (fun l => l.cls == 0) = true)
      ∧ (RunsIn badImage { rd := 3, imm := 2 ^ 19 - 3072 } { opc := 0x85, rd := 4, ra := 32, imm := immAny } false
        ∧ imageOk (tsRead badImage 255 (2 ^ 19 - 3072) 3072) = false)
      ∧ (RunsIn W { rd := 3, imm := 2 ^ 19 - 3072 } { opc := 0x85, rd := 4, ra := 32, imm := immAny } false
        ∧ imageOk (tsRead W 255 (2 ^ 19 - 3072) 3072) = true) := by
  unfold RunsIn Runs Fetched
  refine ⟨by decide, by decide, by decide, by decide, fun fl => ?_, by decide, ⟨by decide, by decide⟩, ⟨by decide, ?_⟩⟩
  · show fl &&& 0 = 0
    exact Nat.and_zero _
  · rw [tsRead_W]
    simp [imageOk, leAt_zeros]

set_option exponentiation.threshold 400 in
theorem witness_ExactImageRoundTrip :
    (List.replicate 64 (⟨-(2 ^ 319), 0⟩ : XLane)).length = 64
      ∧ ∀ l ∈ List.replicate 64 (⟨-(2 ^ 319), 0⟩ : XLane), l.cls = 0 ∧ -(2 ^ 319 : Int) ≤ l.value ∧ l.value < 2 ^ 319 := by
  decide

/-! ### Macros, tensors, shuttle and sync -/

/-- `W` with bytes in tile store 255. -/
def withTs (s : State) (l : List (Nat × List Byte)) : State := l.foldl (fun s e => tsWrite s 255 e.1 e.2) s

/-- A step descriptor for macro 15 at 2^19 - 32, its page 7 valid and signed and selected with format 0; at 32 a descriptor
whose byte 15 is not 0. -/
def stepState : State :=
  { withTs W [(2 ^ 19 - 32, [0, 0x80]), (32, zeros 15 ++ [1])] with
    tile := { pages := [(pageKey 255 15 7, { valid := true, signed := true })] }
    weft := { W.weft with sel := [(16 * 255 + 15, some (7, 0))] } }

/-- No macro in the descriptor: nothing to multiply, no check to fail. -/
def emptyStep : State := W

/-- A VQNT descriptor at 0 (SRC 0x1000, TSR 0x2000, DST 0x3000, COUNT 32) with its record: OSAFE, AMIN and OUTER 1.0. -/
def vqState : State :=
  withTs W [(0, leBytes 4 0x1000 ++ leBytes 4 0x2000 ++ leBytes 4 0x3000 ++ zeros 4 ++ leBytes 4 32),
    (0x2000, leBytes 4 3 ++ leBytes 4 0x3F800000 ++ leBytes 4 0x3F800000 ++ leBytes 4 0x3F800000)]

theorem witness_MacrosAndTensors :
    (RunsIn W { ra := 31, imm := 255 } { opc := 0x90, ra := 32, imm := immLt 256 } false ∧ getS W 255 31 + 3072 ≤ 2 ^ 19)
      ∧ (RunsIn W { ra := 31, imm := 0x147 }
          { opc := 0x91, ra := 32, imm := fun v => decide (v < 512) && !bitN v 7 && v / 16 % 4 == 0 } false
        ∧ getS W 255 31 + 12288 ≤ 2 ^ 19)
      ∧ (RunsIn stepState { imm := 0x078000 } { opc := 0x92, imm := immLt (2 ^ 21) } false
        ∧ ∀ m < 16, bitN 0x078000 m = true → setLayoutOk stepState 255 m 7 0 = true)
      ∧ (RunsIn stepState { imm := 0x0F8000 } { opc := 0x92, imm := immLt (2 ^ 21) } false
        ∧ setLayoutOk stepState 255 15 7 1 = false ∧ ∀ k < 15, bitN 0x0F8000 k = false)
      ∧ (RunsIn stepState { imm := 32 } { opc := 0x93, ra := 32, imm := immAny } false
        ∧ (∀ y ∈ stepReads (stepDesc (tsRead stepState 255 32 32)), y.1 + y.2 ≤ 2 ^ 19) ∧ stepDescOk false (tsRead stepState 255 32 32) = false)
      ∧ (RunsIn stepState { imm := 2 ^ 19 - 32 } { opc := 0x93, ra := 32, imm := immAny } false
        ∧ (stepTrap stepState 255 (2 ^ 19 - 32) (tsRead stepState 255 (2 ^ 19 - 32) 32)).isNone = true
        ∧ (stepDesc (tsRead stepState 255 (2 ^ 19 - 32) 32)).block = false)
      ∧ (let d := stepDesc (tsRead W 255 0 32)
        (stepTrap W 255 0 (tsRead W 255 0 32)).isNone = true ∧ d.block = false ∧ stepMacros d = []
          ∧ (intStep W 255 d [] [] []).nonfinite.isNone = true ∧ (intStep W 255 d [] [] []).mism.isEmpty = true)
      ∧ RunsIn W { imm := 3 } { opc := 0x94, imm := immLt 4 } false
      ∧ RunsIn W { rd := 31, imm := 7 } { opc := 0x95, rd := 32, imm := immLt 8 } true
      ∧ RunsIn W { rd := 7, imm := 7 } { opc := 0x96, rd := 8, imm := immLt 8 } true
      ∧ RunsIn W { ra := 31, imm := 7 } { opc := 0x97, ra := 32, imm := immLt 8 } true
      ∧ (let bytes := tsRead vqState 255 0 32
        let d := qDesc bytes
        RunsIn vqState {} { opc := 0x78, ra := 32, imm := immAny } false ∧ qDescOk bytes = true ∧ d.tsr + 96 ≤ 2 ^ 19
          ∧ vqRecordOk (tsRead vqState 255 d.tsr 96) d = true ∧ d.block = false
          ∧ (vqRange vqState 255 d).isNone = true ∧ hitsBad [] d.src (4 * d.count) = false) := by
  unfold RunsIn Runs Fetched
  refine ⟨by decide, by decide, by decide, by decide, by decide, ?_, by decide, by decide, by decide, by decide, by decide,
    by decide⟩
  decide

/-- Tile 255 as the source of channel 7 to tile 254 with one credit, as the destination of channel 8 with one entry, and
ticket 1 with status `st`. -/
def syncState (recv : Bool) (c : Nat) (held : List Nat) (st : Option Nat) : State :=
  { weft { state := coreRunning, held := held } with
    jobs := { chans := [⟨0, 7, 255, 254, 1, 0, false, 0⟩, ⟨0, 8, 254, 255, 1, 1, false, 0⟩]
              seqs := [(0, 255, [⟨recv, c, 1⟩])] }
    weft := { cores := [(255, { state := coreRunning, held := held })]
              tickets := [⟨255, 1, 0, zeros 32, true, [], [], st⟩]
              chans := [(7, { credits := 1 }), (8, { waiting := 1 })] } }

/-- Tile 255 waits for `w` with the bound `n`. -/
def waiting (w : WaitOn) (n : Nat) : State := weft { state := coreRunning, waiting := some w, waittmo := n }

/-- An ENERGY of tile 255 whose job may use class 15 and that stands at class 7. -/
def energyState : State := weft { state := coreRunning, eclass := 7, eclassMax := 8 }

theorem witness_ShuttleAndSync :
    (RunsIn W { rd := 31, imm := 2 ^ 19 - 32 } { opc := 0xA0, rd := 32, ra := 32, imm := immAny } false
        ∧ effAddr W 255 0 { imm := 2 ^ 19 - 32 } + 32 ≤ 2 ^ 19 ∧ effAddr W 255 0 { imm := 2 ^ 19 - 32 } % 32 = 0
        ∧ (openTickets W 255).length < 16)
      ∧ (∀ st ∈ [0, 0x0346], ∃ s y, RunsIn s { rd := 31, ra := 1, imm := 1 } { opc := 0xA1, rd := 32, ra := 32, imm := immLt 2 } false
        ∧ ticket s 255 (getS s 255 1) = some y ∧ y.status = some st)
      ∧ RunsIn W { rd := 7, ra := 31 } { opc := 0xA2, rd := 8, ra := 32 } false
      ∧ (∃ y, ticket openTicket 255 1 = some y) ∧ ticket W 255 0 = none
      ∧ (let s := syncState false 7 [] none
        RunsIn s { imm := 7 } { opc := 0xB0, ra := 32, imm := immLt 256 } false ∧ (core s 255).held = [] ∧ notNext s 255 7 false = none
          ∧ ∃ d, chanDecl s 0 7 = some d ∧ d.ring = false ∧ 0 < (chanSt s d.prog d.chan).credits
            ∧ getS s 255 0 + Config.entryBytes 0 7 ≤ 2 ^ 19 ∧ hitsBad [] (getS s 255 0) (Config.entryBytes 0 7) = false)
      ∧ (let s := syncState true 8 [] none
        RunsIn s { rd := 31, imm := 8 } { opc := 0xB1, rd := 32, imm := immLt 256 } false ∧ (core s 255).held = []
          ∧ notNext s 255 8 true = none
          ∧ ∃ d, chanDecl s 0 8 = some d ∧ d.ring = false ∧ 0 < (chanSt s d.prog d.chan).waiting)
      ∧ (let s := syncState true 8 [8] none
        RunsIn s { imm := 8 } { opc := 0xB2, imm := immLt 256 } false ∧ (core s 255).held = [8] ∧ ∃ d, chanDecl s 0 8 = some d)
      ∧ (RunsIn W { rd := 7, imm := 255 } { opc := 0xB3, rd := 8, imm := immLt 256 } false ∧ (core W 255).held = [])
      ∧ (∀ k ∈ [7, 8, 9], RunsIn energyState { imm := k } { opc := 0xC0, imm := immLt 16 } false)
      ∧ ((core energyState 255).eclassMax = 8 ∧ (core energyState 255).eclass = 7)
      ∧ (∀ k < 5, ∀ n ∈ [0, 1], 255 < tileCount (waiting ⟨k, 0, 0, 0⟩ n) ∧ (core (waiting ⟨k, 0, 0, 0⟩ n) 255).waittmo = n
        ∧ (core (waiting ⟨k, 0, 0, 0⟩ n) 255).waiting = some ⟨k, 0, 0, 0⟩ ∧ coreIssues (waiting ⟨k, 0, 0, 0⟩ n) 255 = true) := by
  unfold RunsIn Runs Fetched
  refine ⟨by decide, ?_, by decide, ⟨_, rfl⟩, by decide, ⟨by decide, by decide, by decide, ⟨_, rfl, by decide, by decide, ?_, rfl⟩⟩,
    ⟨by decide, by decide, by decide, ⟨_, rfl, by decide, by decide⟩⟩, ⟨by decide, by decide, ⟨_, rfl⟩⟩, by decide, by decide,
    by decide, by decide⟩
  · intro st hst
    refine ⟨setS (syncState false 7 [] (some st)) 255 1 1, _, ?_, rfl, rfl⟩
    simp only [List.mem_cons, List.not_mem_nil, or_false] at hst
    rcases hst with rfl | rfl <;> decide
  · show 0 + (Config.entrySize 0 7).val ≤ 2 ^ 19
    have := (Config.entrySize 0 7).isLt
    omega

/-! ### Warp plane -/

/-- A run at tick 9 in which tile 255 is a warp tile and serves frame 8; the last of its three words issues. -/
def V : State :=
  { running with image := some (imageOf (List.replicate 256 1)), tb := { tick := 9, cyc := 4 } }

/-- A slot of that word. -/
def slot : WSlot := { tile := 255, word := 2, lag := 0 }

/-- The word with no operation. -/
def idleWord : PickWord := decodePick 0

/-- `s` with the word `x` there. -/
def picked (s : State) (x : PickWord) : State :=
  { s with tile := { s.tile with
    pick := sset dDWord (8192 * 255 + 4) (BitVec.ofNat 64 (encodePick x))
      (sset dDWord (8192 * 255 + 5) (BitVec.ofNat 64 (encodePick x / 2 ^ 64)) s.tile.pick) } }

/-- A V slot operation with descriptor 0 and upper half. -/
def vWord (vop : Nat) : PickWord := { idleWord with vop := vop, half := 1 }

theorem witness_SlotsThatDoNotIssue :
    255 < tileCount V ∧ periodStart V V.tb.tick = some 9
      ∧ slotIssues V slot 1 9 (fun x => x.vop == 4 && x.vd == 0 && true) = false
      ∧ (let s := put (picked V (vWord 4)) [(rTbFrameCfg, 0x00090001)]
        periodStart s 9 = some 9 ∧ slotIssues s slot 1 9 (fun x => x.vop == 4 && x.vd == 0 && true) = true
          ∧ servedFrame s 9 0 = none)
      ∧ (∀ o < 17, SlotIssues { slot with q := 8 } 1 0 (fun x => x.vop == o && x.vd == 0 && true)
          (picked V { vWord o with vpred := 8 }) 8 9)
      ∧ SlotIssues { slot with q := 8 } 2 0 (fun x => x.xop == 1 && (x.addr == 32767 && x.len == 3 && x.tag == 15))
        (picked V { idleWord with xpred := 8, xop := 1, addr := 32767, len := 3, tag := 15 }) 8 9
      ∧ slotEnabled V { slot with q := 8 } = false := by
  unfold SlotIssues
  decide

/-- Tile store of tile 255 with a vector descriptor at 0 (CTRL given, TSR 0x100) and a record at 0x100, and the word `x`. -/
def vecState (ctrl fmt : Nat) (x : PickWord := idleWord) (more : List (Nat × List Byte) := []) : State :=
  picked (withTs V ([(0, zeros 6 ++ leBytes 2 0x10 ++ zeros 4 ++ leBytes 4 ctrl),
    (0x100, leBytes 4 fmt ++ leBytes 4 0x3F800000 ++ leBytes 4 0x3F800000 ++ leBytes 4 0x3F800000)] ++ more)) x

theorem witness_WarpVectorOperations :
    slotEnabled (vecState 0 0) slot = true
      ∧ (∀ o < 17, SlotIssues slot 1 0 (fun x => x.vop == o && x.vd == 0 && (o != 16 || x.half == 1)) (vecState 0 0 (vWord o)) 8 9)
      ∧ (let d := vecDesc (vecState 0 0) 255 0 []
        vecDescOk d [d.srca, d.srcb, d.dst] = true ∧ vecDescOk d [d.srca, d.dst] = true ∧ vecDescOk d [d.dst] = true)
      ∧ (let d := vecDesc (vecState 0x800 0) 255 0 []
        vecDescOk d [d.srca, d.srcb, d.dst] = false ∧ vecDescOk d [d.dst] = false)
      ∧ (∃ ws wd op, cvtPair ((vecDesc (vecState 0x1000 0) 255 0 []).ctrl / 2 ^ 12 % 16) = some (ws, wd, op))
      ∧ (cvtPair ((vecDesc (vecState 0xF000 0) 255 0 []).ctrl / 2 ^ 12 % 16)).isNone = true := by
  unfold SlotIssues
  exact ⟨by decide, by decide, by decide, by decide, ⟨_, _, _, rfl⟩, by decide⟩

set_option maxRecDepth 10000 in
set_option exponentiation.threshold 2100 in
theorem witness_WarpStepsAndQuantisation :
    Canonical (vecState 0 3 (vWord 2)) ∧ slotEnabled (vecState 0 3) slot = true
      ∧ SlotIssues slot 0 0 (fun c => c.mop == 1 && c.sd == 0) (vecState 0 3 { idleWord with mop := 1 }) 8 9
      ∧ SlotIssues slot 0 0 (fun c => c.mop == 2 && c.bank == 3) (vecState 0 3 { idleWord with mop := 2, bank := 3 }) 8 9
      ∧ SlotIssues slot 1 0 (fun c => c.vop == 1 && c.vd == 0 && c.half == 1) (vecState 0 3 (vWord 1)) 8 9
      ∧ SlotIssues slot 1 0 (fun c => c.vop == 2 && c.vd == 0 && true) (vecState 0 3 (vWord 2)) 8 9
      ∧ SlotIssues slot 1 0 (fun c => c.vop == 14 && c.vd == 0 && c.pd == 7) (vecState 0xC0 3 { vWord 14 with pd := 7 }) 8 9
      ∧ stepDescOk true (tsRead (vecState 0x01000000 3) 255 0 32) = false
      ∧ (stepDescOk true (tsRead V 255 0 32) = true ∧ (stepDesc (tsRead V 255 0 32)).block = false
        ∧ stepMacros (stepDesc (tsRead V 255 0 32)) = [])
      ∧ scaleRecOk false (tsRead (vecState 0 4) 255 0x100 96) = false
      ∧ (let d := vecDesc (vecState 0 3) 255 0 []
        vecDescOk d [d.tsr, d.srca] = true ∧ d.dst < tsSize ∧ scaleRecOk false (tsRead (vecState 0 3) 255 d.tsr 96) = true
          ∧ (scaleRec (tsRead (vecState 0 3) 255 d.tsr 96)).block = false
          ∧ anyNonfinite (unpackElems 32 64 (tsRead (vecState 0 3) 255 d.srca 256)) = false)
      ∧ (let b := tsRead (vecState 0 0x43 (vWord 2) [(0x11A, [1])]) 255 0x100 96
        scaleRecOk false b = true ∧ (scaleRec b).block = true)
      ∧ (let d := vecDesc (vecState 0x800 3) 255 0 []
        vecDescOk d [d.tsr, d.srca] = false ∧ vecDescOk d [d.tsr] = false)
      ∧ 1 < (vecDesc (vecState 2 3) 255 0 []).ctrl % 4 ∧ (vecDesc (vecState 1 3) 255 0 []).ctrl % 4 ≤ 1
      ∧ (vecDesc (vecState 0xC0 3) 255 0 []).ctrl / 2 ^ 6 % 8 ≤ 3
      ∧ nowCycle V = 4 ∧ 4 < 5 ∧ 4 ≤ nowCycle V := by
  unfold SlotIssues
  exact ⟨canonical_of (by decide), by decide, by decide, by decide, by decide, by decide, by decide, by decide, by decide, by decide,
    by decide, by decide, by decide, by decide, by decide, by decide, by decide, by decide, by decide⟩

/-- A skein of tile 255 of depth 2 that holds `fs`, `n` tokens on its port 3, and the word `x`. -/
def skeinState (fs : List Nat) (n : Nat) (x : PickWord := idleWord) : State :=
  picked { put V [(rWtSkeinCfg 255 7, 0x80010000)] with
    warp := { skeins := if fs = [] then [] else [(8 * 255 + 7, { frames := fs })]
              tokens := if n = 0 then [] else [(4 * 255 + 3, List.replicate n ⟨0, 0, 1, 0, 0, [], 0, 8⟩)] } } x

theorem witness_WarpTransfers :
    Canonical (skeinState [7] 3) ∧ slotEnabled (skeinState [7] 3) slot = true
      ∧ SlotIssues slot 2 0 (fun c => c.xop == 1 && (c.addr == 32767 && c.len == 3 && c.tag == 15))
        (skeinState [] 0 { idleWord with xop := 1, addr := 32767, len := 3, tag := 15 }) 8 9
      ∧ SlotIssues slot 2 0 (fun c => c.xop == 2 && (c.addr == 32767 && c.len == 3 && c.sk == 7))
        (skeinState [] 0 { idleWord with xop := 2, addr := 32767, len := 3, sk := 7 }) 8 9
      ∧ SlotIssues slot 2 0 (fun c => c.xop == 3 && (c.addr == 32767 && c.sk == 7))
        (skeinState [8] 0 { idleWord with xop := 3, addr := 32767, sk := 7 }) 8 9
      ∧ SlotIssues slot 2 0 (fun c => c.xop == 4 && (c.tag == 15 && c.sk == 7))
        (skeinState [8] 0 { idleWord with xop := 4, tag := 15, sk := 7 }) 8 9
      ∧ SlotIssues slot 3 0 (fun c => c.cop == 2 && c.cops % 256 == 255) (skeinState [] 0 { idleWord with cop := 2, cops := 255 }) 8 9
      ∧ SlotIssues slot 3 0 (fun c => c.cop == 3 && c.cops == 3 * 2 ^ 14 + 7 * 2 ^ 11 + 7 * 2 ^ 8 + 15 * 2 ^ 4 + 8)
        (skeinState [] 0 { idleWord with cop := 3, cops := 3 * 2 ^ 14 + 7 * 2 ^ 11 + 7 * 2 ^ 8 + 15 * 2 ^ 4 + 8 }) 8 9
      ∧ (skein (skeinState [7] 0) 255 7).frames.length < skeinDepth (skeinState [7] 0) 255 7
      ∧ (skein (skeinState [8] 0) 255 7).frames = [8] ∧ 8 + 7 < 16
      ∧ (∀ n ∈ [3, 4], SlotIssues slot 3 (regF (skeinState [] n) (rWtRoute 255 3 14) 23 16)
        (fun c => c.cop == 1 && c.cops == 3 * 2 ^ 14 + 14 * 2 ^ 10 + 15 * 2 ^ 6 + 3 * 2 ^ 4 + 15)
        (skeinState [] n { idleWord with cop := 1, cops := 3 * 2 ^ 14 + 14 * 2 ^ 10 + 15 * 2 ^ 6 + 3 * 2 ^ 4 + 15 }) 8 9)
      ∧ (tokens (skeinState [] 3) 255 3).length < 4 ∧ 4 ≤ (tokens (skeinState [] 4) 255 3).length := by
  unfold SlotIssues
  exact ⟨canonical_of (by decide), by decide, by decide, by decide, by decide, by decide, by decide, by decide, by decide, by decide,
    by decide, by decide, by decide, by decide⟩

/-- A burst of 16 bytes at port 3 of tile 255 in cycle 4 with tag 2, and tokens of route 14 there that take it; a flit at
the hub, with the slot tables active. -/
def burstState : State :=
  { put V [(rWtRoute 255 3 14, 0), (rRdStatus, 0x10000)] with
    warp := { tokens := [(4 * 255 + 3, [⟨14, 0, 4, 1, 4, [], 0, 8⟩])] }
    rd := { arrived := [(255, 3, ⟨255, 3, 0, 4, 2, 8, zeros 16⟩)]
            flits := [⟨256, 1, 0, 0, 0, 8, zeros 16⟩] } }

/-- The hub has an entry that takes the flit: VALID, ALLV, CYC 0, IN 1, subchannel 0. -/
def hubState : State := { burstState with rd := { burstState.rd with slots := [(8192 * 256, 0xC000001000000000)] } }

/-- The same with a block-mode descriptor at index 0 of tile 255 that declares a ring of one block slot at byte 32. -/
def ringState : State :=
  { burstState with
    ts := [(2 ^ 19 * 255, 1), (2 ^ 19 * 255 + 3, 0x40), (2 ^ 19 * 255 + 12, 2), (2 ^ 19 * 255 + 14, 1), (2 ^ 19 * 255 + 18, 100)] }

theorem witness_BurstsAndRings_slot :
    Canonical ringState ∧ (ringSteps ringState 255).map (fun d => (d.ring, d.ringlen)) = [(2, 1)] ∧ 0 < 1
      ∧ 16 * 0 + 2 * 16 ≤ blockSlot 2 1 0 ∧ blockSlot 2 1 0 + 2 ≤ 32 + (zeros 16).length ∧ blockSlot 2 1 0 < tsSize
      ∧ ringSteps burstState 255 = [] :=
  ⟨canonical_of (by decide), by decide, by decide, by decide, by decide, by decide, by decide⟩

/-- R131, R132: the burst makes the slot VALID with its tag. -/
theorem test_burst_fills_slot : side (landBurst ringState 255 32 (some 2) (zeros 16)) 255 32 = ⟨true, 2⟩ := by decide

theorem witness_BurstsAndRings :
    Canonical burstState ∧ 255 < tileCount burstState ∧ periodSite burstState = some (0, 0) ∧ runActive burstState = true
      ∧ (let x : Token := ⟨14, 0, 4, 1, 4, [], 0, 8⟩
        let fl : Flit := ⟨255, 3, 0, 4, 2, 8, zeros 16⟩
        burstState.rd.arrived.find? (fun a => a.1 == 255 && a.2.1 == 3 && decide (a.2.2.cyc ≤ nowCycle burstState))
            = some (255, 3, fl)
          ∧ (tokens burstState 255 3).findIdx? (fun x => x.active ≤ fl.cyc && fl.cyc ≤ x.active + x.slack
            && (tagPlace x fl.tag).isSome) = some 0
          ∧ (tokens burstState 255 3)[0]? = some x ∧ tagPlace x fl.tag = some 2
          ∧ fl.payload.length = lenBytes (regF burstState (rWtRoute 255 3 14) 25 24)
          ∧ regF burstState (rWtRoute 255 3 14) 30 29 = 0
          ∧ regF (put burstState [(rWtRoute 255 3 14, 0x20000000)]) (rWtRoute 255 3 14) 30 29 = 1)
      ∧ V.rd.arrived.find? (fun a => a.1 == 255 && a.2.1 == 3 && decide (a.2.2.cyc ≤ nowCycle V)) = none
      ∧ (let s := { burstState with tb := { burstState.tb with cyc := 6 } }
        (tokens s 255 3)[0]? = some ⟨14, 0, 4, 1, 4, [], 0, 8⟩ ∧ 4 + 1 < nowCycle s)
      ∧ hubState.rd.flits.find? (fun f => f.router == 256 && decide (f.cyc ≤ nowCycle hubState))
        = some ⟨256, 1, 0, 0, 0, 8, zeros 16⟩
      ∧ regBit hubState rRdStatus 16 = true
      ∧ (routerEntries hubState 256).filter (fun e => entryTakes 256 e 0 0 1 0) ≠ []
      ∧ (∀ e ∈ (routerEntries hubState 256).filter (fun e => entryTakes 256 e 0 0 1 0),
        burstFlits ⟨256, 1, 0, 0, 0, 8, zeros 16⟩ ≤ fld e 25 23 + 1)
      ∧ (routerEntries burstState 256).filter (fun e => entryTakes 256 e 0 0 1 0) = []
      ∧ released burstState 2 = true
      ∧ 0 < (faultRing { V with tile := { flt := [(255, [zeros 16])] } } 255).length
      ∧ planeOf V 255 = 1 :=
  ⟨canonical_of (by decide), by decide, by decide, by decide, by decide, by decide, by decide, by decide, by decide, by decide,
    by decide, by decide, by decide, by decide, by decide⟩

/-! ### Beam, Treadle, Bobbin, Timebase -/

/-- A device with N 200, 1,000 kHz, M 1, selvage 25, an image with that frame period and sixteen streams on; the channel
that a stream frame and the status of a run or no run asks for. -/
def timed (st : Nat) (more : List (Nat × Nat)) : State :=
  { put live ([(rTbTickCfg, 1000 * 65536 + 200), (rTbSelvage, 25), (rTbStatus, st), (rLdStatus, 0x80000000),
      (rBmStreamCfg 15, 0x80000000)] ++ more) with
    tb := { tick := 9 }
    image := some { imageOf [] with framePulses := 200, streams := List.replicate 16 { en := true } } }

/-- Lane 95, index 1 of stream 15 unless `k` says 0, in state `st`. -/
def lane (tb st k : Nat) (x : LaneSt := {}) : State :=
  { timed tb [(rBmGroupCfg 5, 3), (rBmLaneCfg 95, 0x8F000000 + k * 65536), (rBmLaneStatus 95, st), (rBmLaneDmeas 95, 0x80000000)]
    with bm := { lanes := if x = {} then [] else [(95, x)] } }

/-- The line bits of a bolt of zeros from a fresh scrambler. -/
def bolt0 : List Bool := (boltLine false (2 ^ 58 - 1) (zeros 64)).1

set_option maxRecDepth 100000 in
theorem witness_StreamLanes :
    Canonical (lane 0x14 4 1) ∧ 95 < laneCount (lane 0x12 0 1)
      ∧ (∀ st ∈ [0, 1, 5], laneEn (lane 0x12 st 1) 95 = true ∧ (lane 0x12 st 1).bm.dead.contains (95 / 16) = false
        ∧ laneRate (lane 0x12 st 1) 95 ≠ 0 ∧ laneState (lane 0x12 st 1) 95 = st)
      ∧ (∀ st ∈ [2, 3, 4], ∀ tb ∈ [0x12, 0x14], laneState (lane tb st 1) 95 = st ∧ runActive (lane tb st 1) = (tb == 0x14))
      ∧ (boltReceive false (bmLane (lane 0x12 2 1) 95).descr bolt0).lost = none
      ∧ streamLong (lane 0x12 2 1) (laneStream (lane 0x12 2 1) 95) = false ∧ regBit (lane 0x12 2 1) (rBmLaneCfg 95) 0 = false
      ∧ laneEn (lane 0x14 4 1) 95 = true ∧ regBit (lane 0x14 4 1) (rBmLaneDmeas 95) 31 = true
      ∧ uiApart 576 (expectedPos (lane 0x14 4 1) 95 9 1) ≤ 8 ∧ uiApart 584 (expectedPos (lane 0x14 4 1) 95 9 1) ≤ 8 :=
  ⟨canonical_of (by decide), by decide, by decide, by decide, by decide, by decide, by decide, by decide, by decide, by decide,
    by decide⟩

theorem witness_DeliveryAndBackChannel :
    Canonical (lane 0x14 4 0) ∧ runActive (lane 0x14 4 0) = true ∧ streamOn (lane 0x14 4 0) 15 = true
      ∧ tbSlot (lane 0x14 4 0) + tbM (lane 0x14 4 0) * (bmStream (lane 0x14 4 0) 15).delivered ≤ (lane 0x14 4 0).tb.tick
      ∧ (lane 0x14 4 0).tb.stopAt = none
      ∧ (∀ k ∈ [0, 1], laneIndex (lane 0x14 4 k) 95 = k ∧ laneEn (lane 0x14 4 k) 95 = true)
      ∧ 42 < txSlots (lane 0x14 4 0) (laneStream (lane 0x14 4 0) 95) (laneRate (lane 0x14 4 0) 95) :=
  ⟨canonical_of (by decide), by decide, by decide, by decide, by decide, by decide, by decide⟩

/-- A packet that has come whole over its last link. -/
def come (p : Packet) : Packet := { p with way := [(⟨0, 0, 0, 0⟩, List.replicate (packetFlits p) 0)] }

/-- The commit of frame 4 of stream 15 from Treadle, and Bobbin's own with LOST. -/
def commitPkt : Packet := come (commitPacket treadleNode (captureNode 0) 15 4 1 false)
def lostPkt : Packet := come (commitPacket (captureNode 0) treadleNode 15 4 0 true)

/-- Frame 4 of stream 15 waits in Bobbin since cycle 0, and packets are in Reed at cycle `now`. -/
def commitState (status cfg rsv ctrl : Nat) (ps : List Packet := [commitPkt]) (now : Nat := 0)
    (gone : List (Nat × Nat) := []) : State :=
  { timed 0x14 [(rBbStStatus 15, status), (rBbStCfg 15, cfg), (rBbStRsv 15, rsv), (rBbStCtrl 15, ctrl)] with
    bb := { pend := [⟨15, 4, 0, zeros 64⟩], discarded := gone }
    rd := { packets := ps, now := now } }

/-- The sizes that the clauses of the statement compare. -/
def commitSizes (s : State) : Nat × Nat :=
  let y := { s with rd := { s.rd with packets := [] }, bb := { s.bb with pend := [] } }
  let c := (4 - tbSlot s) / tbM s
  let recs := (frameRecords (setCap y 15 { capSt s 15 with cLast := c }) 15 4 1 (zeros 64) false).1
  (drainedFill s 15 c + (recs.map List.length).sum, recs.foldl (fun w r => w + ringNeed (bobbinRegion s 15).size w r.length) 0)

set_option maxRecDepth 10000 in
theorem witness_CommitsAndMissingDecisions :
    Canonical (commitState 0 0x80000000 0 0)
      ∧ arriving (commitState 0 0x80000000 0 0) treadleNode (captureNode (streamDie (commitState 0 0x80000000 0 0) 15)) 2 kCommit
          = some commitPkt
      ∧ (c1Stream commitPkt = 15 ∧ commitPkt.rtag % 2 = 1 ∧ c1Frame commitPkt = 4
        ∧ (15, 4) ∉ (commitState 0 0x80000000 0 0).bb.discarded ∧ regBit (commitState 0 0x80000000 0 0) (rBbStCfg 15) 31 = true)
      ∧ (commitState 0 0x80000000 0 0).bb.pend.find? (fun q => q.stream == 15 && q.frame == 4) = some ⟨15, 4, 0, zeros 64⟩
      ∧ (regBit (commitState 0x40000000 0x80000000 0 0) (rBbStStatus 15) 30 = true
        ∧ regBit (commitState 0x40000000 0x80000000 0 0) (rBbStCtrl 15) 0 = false)
      ∧ commitArea (commitState 0 0x80000000 0 0) 15 < (commitSizes (commitState 0 0x80000000 0 0)).1 + 16
      ∧ (let s := commitState 0 0x80000000 0xFFF00000 0
        (commitSizes s).1 + 16 ≤ commitArea s 15 ∧ regBit s (rBbStCfg 15) 30 = false
          ∧ (bobbinRegion s 15).size + reg64 s (rBbBobRptr 15) < (commitSizes s).2 + 16)
      ∧ (let s := commitState 0 0xC0000000 0xFFF00000 0
        (commitSizes s).1 + 16 ≤ commitArea s 15 ∧ regBit s (rBbStCfg 15) 30 = true)
      ∧ (regBit (commitState 0x40000000 0xC0000000 0xFFF00000 1) (rBbStCtrl 15) 0 = true) :=
  ⟨canonical_of (by decide), by decide, by decide, by decide, by decide, by decide, by decide, by decide, by decide⟩

theorem witness_CommitsAndMissingDecisions_missing :
    Canonical (commitState 0 0 0 0 [lostPkt])
      ∧ (commitState 0 0 0 0 [lostPkt]).bb.pend.find? (fun q => q.stream == 15) = some ⟨15, 4, 0, zeros 64⟩
      ∧ (let s := commitState 0 0 0 0 [lostPkt]
        s.rd.now < 0 + (decisionLatency s 15 + 2) * (2 * framePulses s) + 256)
      ∧ (let s := commitState 0 0 0 0 [lostPkt] 1000000
        0 + (decisionLatency s 15 + 2) * (2 * framePulses s) + 256 ≤ s.rd.now)
      ∧ (arriving (commitState 0 0 0 0 [lostPkt]) (captureNode 0) treadleNode 2 kCommit = some lostPkt
        ∧ c1Stream lostPkt = 15 ∧ streamDie (commitState 0 0 0 0 [lostPkt]) 15 < dieCount (commitState 0 0 0 0 [lostPkt])
        ∧ queuedAt (commitState 0 0 0 0 [lostPkt]) treadleNode kRecord < 256)
      ∧ (let s := commitState 0 0 0 0 [commitPkt] 0 [(15, 4)]
        arriving s treadleNode (captureNode 0) 2 kCommit = some commitPkt ∧ c1Stream commitPkt = 15
          ∧ (15, c1Frame commitPkt) ∈ s.bb.discarded) :=
  ⟨canonical_of (by decide), by decide, by decide, by decide, by decide, by decide⟩

/-- A record of frame 4 of stream 15 for DPA 4096; `kind` is the high part of its type byte. -/
def recordPkt (kind : Nat) : Packet :=
  come (recordPacket (captureNode 0) 4096 (leBytes 6 4 ++ leBytes 1 (16 * kind + 15) ++ zeros 57))

/-- Records of every kind of stream 15 on their way to DDR4. -/
def recordState (kind : Nat) (gone : List (Nat × Nat)) : State :=
  { timed 0x14 [(rPvRingCfg 15, 0x80000004)] with
    rd := { packets := [recordPkt kind] }
    bb := { cap := [(15, { unwritten := [⟨8, 0, zeros 8⟩] })], discarded := gone }
    ob := { chains := [(15, { links := [⟨zeros 128, 1, 3⟩] })] } }

theorem witness_RecordsReachMemory :
    Canonical (recordState 1 []) ∧ (recordState 1 []).tb.sysclkLost = false
      ∧ (arriving (recordState 1 []) treadleNode (captureNode (streamDie (recordState 1 []) 15)) 2 kRecord = some (recordPkt 1)
        ∧ c1Stream (recordPkt 1) = 15 ∧ (15, c1Frame (recordPkt 1)) ∉ (recordState 1 []).bb.discarded
        ∧ (recordPkt 1).poison = false)
      ∧ (arriving (recordState 2 [(15, 4)]) treadleNode (captureNode 0) 2 kRecord = some (recordPkt 2)
        ∧ leAt (recordPkt 2).payload 6 1 / 16 = 2)
      ∧ (arriving (recordState 1 [(15, 4)]) treadleNode (captureNode 0) 2 kRecord = some (recordPkt 1)
        ∧ (15, c1Frame (recordPkt 1)) ∈ (recordState 1 [(15, 4)]).bb.discarded ∧ leAt (recordPkt 1).payload 6 1 / 16 ≠ 2)
      ∧ (capSt (recordState 1 []) 15).unwritten = [⟨8, 0, zeros 8⟩] ∧ (chain (recordState 1 []) 15).links = [⟨zeros 128, 1, 3⟩]
      ∧ (∀ p ∈ recordsOut (recordState 1 []) 15, 3 < c1Frame p)
      ∧ (∀ f ∈ (recordState 1 []).tr.undecided, ¬(f.stream = 15 ∧ f.tick ≤ 3))
      ∧ regBit (recordState 1 []) (rPvRingCfg 15) 31 = true :=
  ⟨canonical_of (by decide), by decide, by decide, by decide, by decide, by decide, by decide, by decide, by decide, by decide⟩

/-- Channel 15 in service. -/
def memState : State := put live [(rBbMemStatus, 0x80008000), (rBbStStatus 15, 0x40000000)]

set_option maxRecDepth 100000 in
theorem witness_MemoryCare :
    Canonical memState ∧ released memState 6 = true ∧ regBit memState (rBbStStatus 15) 30 = true
      ∧ regBit memState (rBbStStatus 14) 30 = false ∧ memState.rwlLock = false
      ∧ regionBroken memState 31 { region memState 31 with valid := true, kind := 5, stream := 15 } = false
      ∧ regionBroken memState 31 { region memState 31 with valid := true, kind := 6, stream := 15 } = true
      ∧ (regionBroken memState 31 { region memState 31 with valid := true, kind := 1, stream := 15 } = false
        ∧ (region memState 31).valid = false)
      ∧ 15 < chanCount memState ∧ regBit memState rBbMemStatus 15 = true ∧ lineBad memState 0 = false
      ∧ (lineRead memState 0 [⟨0, 0, 1⟩, ⟨0, 17, 0xFFFF⟩]).bad = true
      ∧ (lineRead memState 0 [⟨1, 17, 0xFFFF⟩]).bad = false ∧ (lineRead memState 0 [⟨1, 17, 0xFFFF⟩]).dev ≠ none :=
  ⟨canonical_of (by decide), by decide, by decide, by decide, by decide, by decide, by decide, by decide, by decide, by decide,
    by decide, by decide, by decide, by decide⟩

/-- Stream 15 with an undecided frame, a timer of its machine 7 at its last tick, and `edges` on TRIG_IN 15, of which window
15 of the stream needs those after time 0. -/
def trigState (edges : List Nat) (last : Option Nat) : State :=
  { timed 0x14 [(rTrTriginCfg 15, 3), (rTrWinSrc 15 15, 0x8000000F)] with
    tr := { undecided := [⟨15, 4, 4, zeros 64, false, 0⟩], machines := [(127, { tval := [0, 1], trun := [false, true] })]
            trigIn := [(15, { edges := edges, last := last })] } }

theorem witness_EvaluationsAndTriggers :
    Canonical (trigState [] (some 5)) ∧ runActive (trigState [] (some 5)) = true
      ∧ (trigState [] (some 5)).tr.undecided.find? (fun x => x.stream == 15) = some ⟨15, 4, 4, zeros 64, false, 0⟩
      ∧ (queuedAt (trigState [] (some 5)) treadleNode kRecord < 256
        ∧ streamDie (trigState [] (some 5)) 15 < dieCount (trigState [] (some 5)))
      ∧ (runActive live = false ∧ bitN (regF live (rTrTriginCfg 15) 1 0) 0 = false)
      ∧ (∀ k < 2, bitN (regF (trigState [] (some 5)) (rTrTriginCfg 15) 1 0) k = true)
      ∧ ((trigIn (trigState [] (some 5)) 15).last = some 5 ∧ under2ns (trigState [] (some 5)) (5 - 5) = true)
      ∧ under2ns (trigState [] (some 5)) (1000000 - 5) = false
      ∧ (trigIn (pruneEdges (trigState [7] none) 15) 15).edges.length < 64
      ∧ 64 ≤ (trigIn (pruneEdges (trigState (List.replicate 64 1000000) none) 15) 15).edges.length
      ∧ ((machine (trigState [] (some 5)) 15 7).trun.getD 1 false = true
        ∧ (machine (trigState [] (some 5)) 15 7).tval.getD 1 0 ≤ 1)
      ∧ released live 5 = true :=
  ⟨canonical_of (by decide), by decide, by decide, by decide, by decide, by decide, by decide, by decide, by decide, by decide,
    by decide, by decide⟩

theorem witness_TickLockAndClocks :
    Canonical (timed 0 []) ∧ released (timed 0 []) 9 = true ∧ (timed 0 []).tb.sysclkLost = false
      ∧ (tbState (timed 0 []) = 0 ∧ 4 ≤ tbN (timed 0 []) ∧ tbN (timed 0 []) ≤ 500 ∧ tbN (timed 0 []) * tickKhz (timed 0 []) = 200000)
      ∧ (tbN (timed 0 [(rTbTickCfg, 1000 * 65536 + 3)]) = 3 ∧ tbState (timed 1 []) ≠ 0 ∧ runActive (timed 1 []) = false)
      ∧ (tbState (timed 1 []) = 1 ∧ tickKhz (timed 1 []) * 1000 = 1000000)
      ∧ (200 * 1005000 ≤ 201 * 1000000 ∧ 199 * 1000000 ≤ 200 * 995000 ∧ 201 * 1000000 < 200 * 1005001
        ∧ 200 * 994999 < 199 * 1000000)
      ∧ (tbState (timed 2 []) = 2 ∧ regBit (timed 2 []) rTbStatus 5 = false)
      ∧ 3 < dieCount (timed 2 []) ∧ 5 * max 1 (regF (timed 2 []) rTbDroopCfg 5 0) < 316
      ∧ (∀ p ∈ [none, some 7], (({ timed 4 [(rTbWeftOp, 0x100)] with tb := { tick := 9, weftPulse := p } } : State).tb.weftPulse
          = some 7 ∨ ({ timed 4 [(rTbWeftOp, 0x100)] with tb := { tick := 9, weftPulse := p } } : State).tb.weftPulse ≠ some 7)
        ∧ runActive (timed 4 [(rTbWeftOp, 0x100)]) = true ∧ regBit (timed 4 [(rTbWeftOp, 0x100)]) rTbWeftOp 8 = true)
      ∧ (let s : State := { timed 4 [] with tb := { tick := 9, q := 101 } }
        runActive s = true ∧ lastTick s = true ∧ s.tb.lapse = false ∧ 4 * tbSelvage s < s.tb.q ∧ periodStart s s.tb.tick = some 9
          ∧ 0 < imageL s ∧ tbSlot s + (imageDelta s + 0) * tbM s ≤ 9)
      ∧ ((timed 4 []).tb.q ≤ 4 * tbSelvage (timed 4 []) ∧ lastTick (timed 4 [(rTbFrameCfg, 3 * 65536 + 4)]) = false) :=
  ⟨canonical_of (by decide), by decide, by decide, by decide, by decide, by decide, by decide, by decide, by decide, by decide,
    by decide, by decide⟩

theorem witness_RunsBeginAndEnd :
    Canonical (timed 0x32 []) ∧ (released (timed 0x32 []) 9 = true ∧ (timed 0x32 []).tb.sysclkLost = false
        ∧ (timed 0x32 []).kp.wiping = false ∧ (timed 0x32 []).kp.waiting = [])
      ∧ (armChecks (timed 0x32 [(rBmStreamCfg 15, 0)])).2 = true
      ∧ ((armChecks (timed 0 [])).2 = false ∧ armWhy (timed 0 []) ≠ 0)
      ∧ (({ timed 2 [] with kp := { wiping := true } } : State).kp.wiping = true
        ∧ ({ timed 2 [] with kp := { waiting := [.arm] } } : State).kp.waiting ≠ [])
      ∧ (runActive (timed 3 [(rTbCtrl, 3)]) = false ∧ regBit (timed 3 [(rTbCtrl, 3)]) rTbCtrl 1 = true
        ∧ tbState (timed 3 [(rTbCtrl, 3)]) = 3)
      ∧ (runActive (timed 4 [(rTbCtrl, 3)]) = true ∧ regBit (timed 4 [(rTbCtrl, 3)]) rTbCtrl 1 = true)
      ∧ (runActive (timed 4 []) = true ∧ regBit (timed 4 []) rTbCtrl 1 = false ∧ (timed 4 []).tb.stopAt = none
        ∧ reg (timed 4 []) rTbFault = 0)
      ∧ (∀ b ∈ [0, 9], ({ timed 4 [] with tb := { tick := 9, stopAt := some b } } : State).tb.stopAt = some b)
      ∧ (0 + (imageLatency (timed 4 []) + 2) * tbM (timed 4 []) ≤ 9 ∧ 9 < 9 + (imageLatency (timed 4 []) + 2) * tbM (timed 4 []))
      ∧ (∀ st < 6, tbState (timed st []) = st)
      ∧ ((timed 5 []).tb.lapse = false ∧ (timed 5 [(rTbHoldover, 0)]).tb.holdTicks = regF (timed 5 [(rTbHoldover, 0)]) rTbHoldover 11 0
        ∧ (timed 5 [(rTbHoldover, 1)]).tb.holdTicks < regF (timed 5 [(rTbHoldover, 1)]) rTbHoldover 11 0)
      ∧ (∀ c < 2, ({ timed 5 [(rTbCtrl, c)] with tb := { tick := 9, lapse := true } } : State).tb.lapse = true
        ∧ lastTick { timed 5 [(rTbCtrl, c)] with tb := { tick := 9, lapse := true } } = true) :=
  ⟨canonical_of (by decide), by decide, by decide, by decide, by decide, by decide, by decide, by decide, by decide, by decide,
    by decide, by decide, by decide⟩

/-! ### Keep: a critical command that passes R494 exists for every opcode -/

theorem zeros_length (n : Nat) : (zeros n).length = n := List.length_replicate

theorem slice_zeros (n a k : Nat) : slice (zeros n) a k = zeros k := by
  simp only [slice, padTo, zeros, List.drop_replicate, List.length_replicate, List.replicate_append_replicate,
    List.take_replicate]
  congr 1
  omega

/-- The state in which the own effect of the command begins. -/
def begins (s : State) (ctr : Nat) : State := withKp (setReg64 s rKpCmdCtr ctr) (fun k => { k with authRow := 0 })

theorem accepted_any {s : State} {op ctr : Nat} {key body : List Byte} (hb : keepBusy s = false) (hs : served s op = true)
    (hc : s.kp.waiting = []) (hk : s.kp.kCmd = some key) (h0 : reg64 s rKpCmdCtr < ctr) (h1 : ctr < 2 ^ 64)
    (hl : body.length ≤ 16000) : ∃ src c, Accepted src op s c key ctr body (begins s ctr) := by
  let head := leBytes 8 ctr ++ body
  let tag := kmac256 key (mbHeader op 0 (head.length + 16) 0 ++ head) 16 (ascii "EX20-CMD")
  have ht : tag.length = 16 := kmac256_length
  have hh : head.length = 8 + body.length := by simp [head]
  refine ⟨.mctp 0 (head ++ tag), { mctp := true, opcode := op, tag := 0, payload := head ++ tag }, s, ⟨?_, ?_⟩, hk, ?_, ?_,
    ?_, h0, ?_, rfl⟩
  · simp [takeCmd, hb, hs, hc]
  · intro _; simp only [List.length_append, ht, hh]; omega
  · simp only [List.length_append, ht, hh]; omega
  · simp only [List.length_append, ht, cmdHeader, Nat.add_sub_cancel, List.take_left', List.drop_left']
    rfl
  · have : leAt (head ++ tag) 0 8 = ctr := by
      unfold leAt
      simp only [head, List.append_assoc]
      rw [slice_front (leBytes_length 8 ctr), ofLe_leBytes]
      exact Nat.mod_eq_of_lt h1
    exact this.symm
  · have h8 : (leBytes 8 ctr).length = 8 := leBytes_length 8 ctr
    simp only [head, List.length_append, ht, h8, List.append_assoc]
    rw [List.drop_left' h8, show 8 + (body.length + 16) - 24 = body.length by omega, List.take_left]

/-! ### Resets, boot, CXL, Keep, images -/

/-- No power. -/
def dark : State := { State.reset with pins := { powered := false } }

theorem witness_ResetsClear :
    Canonical dark ∧ dark.pins.powered = false ∧ Canonical live ∧ live.pins.powered = true :=
  ⟨canonical_of (by decide), by decide, canonical_of (by decide), by decide⟩

/-- A boot stands in step `k`; steps 0, 1 and 2 have passed. -/
def booting (k : Nat) : State :=
  { live with kp := { cur := some { bootNo := 3, steps := List.replicate 3 { outcome := 1 } }, step := some k, zeroing := k == 15 } }

theorem witness_BootSequence :
    (Canonical State.reset ∧ State.reset.pins.powered = true ∧ State.reset.pins.sysRstN = false
        ∧ State.reset.pins.undervolt = false ∧ bootState State.reset = 0)
      ∧ (({} : BootEnv).hang ≠ some 0 ∧ { State.reset with fuse := { romOk := false } }.fuse.romOk = false
        ∧ State.reset.fuse.romOk = true ∧ ({ mode := 6 } : BootEnv).mode % 4 = 2)
      ∧ ({ live with pins := { sysRstN := true, undervolt := true } }.pins.undervolt = true
        ∧ { live with pins := { sysRstN := true, undervolt := true } }.pins.sysRstN = true)
      ∧ (Canonical (booting 15) ∧ (booting 15).kp.cur ≠ none ∧ (booting 15).pins.sysRstN = true
        ∧ (booting 15).pins.undervolt = false ∧ (booting 15).kp.zeroing = true ∧ (booting 15).kp.step = some 15)
      ∧ ∀ k ∈ [0, 2, 13], (booting k).kp.step = some k := by
  refine ⟨⟨canonical_of (by decide), by decide⟩, by decide, by decide, ⟨canonical_of (by decide), by decide⟩, by decide⟩

/-- The CXL link is up with CXL.mem, DDR4 active, and regions 1-4 of kinds 1, 2, 3 and 4 at 64 KiB, 128 KiB, 192 KiB and
256 KiB. -/
def hostState : State :=
  { put live ([(rCxLinkStatus, 0xC0000000), (rCxMemStatus, 0xF0000000), (rBbDpaSize, 0x50000), (rBbMemStatus, 0x80000001)]
      ++ [1, 2, 3, 4].flatMap (fun k => [(rBbRgBase k, 0x10000 * k), (rBbRgSize k, 0x10000),
        (rBbRgCtrl k, 0x80000000 + k * 2 ^ 28)])) with
    cx := { dec0 := { base := 2 ^ 28, size := 2 ^ 28, committed := true }, range1 := 2 ^ 29
            dec1 := { base := 2 ^ 29, size := 2 ^ 28 } } }

theorem witness_CxlLinkAndDecoders :
    Canonical hostState ∧ cxUp hostState = true ∧ cxUp live = false
      ∧ (live.pins.perstN = true ∧ live.pins.sysRstN = true ∧ live.ob.testMode = false)
      ∧ released hostState 8 = true ∧ (decoder hostState 1).committed = false ∧ commitBad hostState 1 = false
      ∧ commitBad { hostState with cx := { hostState.cx with dec1 := { base := 1 } } } 1 = true
      ∧ ((decoder { hostState with cx := { dec1 := { lockOnCommit := true } } } 0).committed = false) :=
  ⟨canonical_of (by decide), by decide, by decide, by decide, by decide, by decide, by decide, by decide, by decide⟩

theorem witness_HostMemory :
    Canonical hostState ∧ hostMem hostState = true ∧ memActive hostState = true
      ∧ hpaToDpa hostState (2 ^ 28) = some 0 ∧ (∀ k ∈ [1, 2, 3, 4], kindAt hostState (0x10000 * k) 64 = some k)
      ∧ hpaToDpa hostState (2 ^ 29 - 1) = some (2 ^ 28 - 1) ∧ kindAt hostState 0 64 = none
      ∧ lineBad hostState 1024 = false ∧ (zeros 64).length = 64
      ∧ memActive (put hostState [(rCxMemStatus, 0xA0000000)]) = false ∧ hostMem (put hostState [(rCxMemStatus, 0xA0000000)]) = true
      ∧ (hostState.cx.dec0.committed = true ∧ hostState.cx.dec0.iw = 0 ∧ hostState.cx.dec0.base ≤ 2 ^ 28
        ∧ 2 ^ 29 - 1 < hostState.cx.dec0.base + hostState.cx.dec0.size)
      ∧ (released hostState 8 = true ∧ regBit hostState rCxBiasStatus 31 = false ∧ cacheEn hostState = true
        ∧ cacheEn (put hostState [(rCxMemStatus, 0xA0000000)]) = false)
      ∧ ∃ f, { hostState with cx := { flip := some ⟨0x30, 16, true⟩ } }.cx.flip = some f ∧ f.left ≤ 16 :=
  ⟨canonical_of (by decide), by decide, by decide, by decide, by decide, by decide, by decide, by decide, by decide, by decide,
    by decide, by decide, by decide, _, rfl, by decide⟩

/-- An owned device with a command key, a nonce and firmware in slot A, in boot state `b`. -/
def keep (b : Nat) : State :=
  { put hostState [(rKpBootStatus, b * 2 ^ 28 + 0xFFF)] with
    kp := { cur := some { bootNo := 3, slot := 0, steps := List.replicate 3 { outcome := 1 } }, ownerKey := [7], kCmd := some [1]
            nonce := some (zeros 32), policy := [0, 3, 1] ++ zeros 13 } }

/-- An MCTP command of any opcode that Keep serves is taken. -/
theorem taken_any {s : State} {op : Nat} {payload : List Byte} (hb : keepBusy s = false) (hs : served s op = true)
    (hc : s.kp.waiting = []) (hl : payload.length ≤ 16368) :
    Taken (.mctp 0 payload) op s { mctp := true, opcode := op, tag := 0, payload := payload } s := by
  refine ⟨?_, fun _ => hl⟩
  simp [takeCmd, hb, hs, hc]

/-- A mailbox buffer whose header names opcode `op` and reserved bytes `r`. -/
def buffer (op r : Nat) (busy : Word) : State :=
  { keep 2 with cx := { cmdBuf := [(0, BitVec.ofNat 8 op), (2, BitVec.ofNat 8 r)], mbStatus := busy } }

theorem witness_KeepAnswers :
    Canonical (keep 2)
      ∧ (∀ op ∈ [1, 2, 3, 4, 5, 6, 7, 8, 0x10], ∀ n ≤ 16368, ∃ c,
        c.payload.length = n ∧ Taken (.mctp 0 (zeros n)) op (keep 2) c (keep 2))
      ∧ (inRecovery (keep 2) = false ∧ inRecovery (keep 5) = true
        ∧ (∃ c, Taken (.mctp 0 (leBytes 4 0)) 8 (keep 5) c (keep 5) ∧ c.payload.length = 4
          ∧ leAt c.payload 0 4 + c.payload.length ≤ 4 * 2 ^ 20 + 4))
      ∧ (owned (keep 2) = true ∧ (keep 2).kp.ownerLost = false
        ∧ (keep 2).kp.nonce = some (slice (zeros 3540) 1088 32))
      ∧ (∀ op ∈ [1, 2, 3, 4, 5, 6, 7, 8, 0x10], (takeCmd .queued op (keep 2)).isNone = true)
      ∧ (released (keep 2) 11 = true ∧ bootState (keep 2) = 2 ∧ wbit (buffer 1 0 0x80000000).cx.mbStatus 31 = true
        ∧ wbit (buffer 1 0 0).cx.mbStatus 31 = false ∧ headerBad (buffer 1 0 0) = false
        ∧ listedOpcode (bufferCmd (buffer 1 0 0)).opcode = true ∧ headerBad (buffer 1 1 0) = true
        ∧ headerBad (buffer 9 0 0) = false ∧ listedOpcode (bufferCmd (buffer 9 0 0)).opcode = false)
      ∧ stepOutcome (keep 2) 0 = 1 := by
  refine ⟨canonical_of (by decide), fun op hop n hn => ⟨_, ?_, taken_any (by decide) ?_ (by decide) (by rw [zeros_length]; omega)⟩,
    ⟨by decide, by decide, _, taken_any (by decide) (by decide) (by decide) (by decide), by decide, by decide⟩, ⟨by decide, by decide, ?_⟩,
    by decide, ⟨by decide, by decide, by decide, by decide, by decide, by decide, by decide, by decide, by decide⟩, by decide⟩
  · exact zeros_length n
  · revert op; decide
  · show some (zeros 32) = some (slice (zeros 3540) 1088 32)
    rw [slice_zeros]

theorem accepted_keep (op : Nat) (body : List Byte) (h : body.length ≤ 16000) :
    ∃ src c, Accepted src op (keep 2) c [1] 1 body (begins (keep 2) 1) :=
  accepted_any (by decide) (by show served (keep 2) op = true; rfl) (by decide) (by decide) (by decide) (by decide) h

theorem witness_CriticalCommands :
    Canonical (keep 2)
      ∧ (∀ op ∈ [0x21, 0x22, 0x23, 0x24, 0x25, 0x26, 0x27, 0x28, 0x11], ∀ n ≤ 16000, ∃ src c body,
        body.length = n ∧ Accepted src op (keep 2) c [1] 1 body (begins (keep 2) 1))
      ∧ (∀ mw ∈ [119999, 120000, 450000, 450001], (leBytes 4 mw).length = 4 ∧ leAt (leBytes 4 mw) 0 4 = mw)
      ∧ (∀ slot ∈ [1, 2], let body := leBytes 8 0x30000 ++ leBytes 4 64 ++ [BitVec.ofNat 8 slot] ++ zeros 3
        body.length = 16 ∧ leAt body 12 1 = slot ∧ ¬(slot = (curRec (begins (keep 2) 1)).slot % 4 ∧ slot < 2)
          ∧ (readUpdate (begins (keep 2) 1) (leAt body 0 8) (leAt body 8 4) []).isSome = true
          ∧ ((readUpdate (begins (keep 2) 1) (leAt body 0 8) (leAt body 8 4) []).map (·.2.1)) = some false)
      ∧ leAt (keep 2).kp.policy 2 1 ≠ 0
      ∧ (∀ lvl ∈ [1, 3], lvl ≤ leAt (begins (keep 2) 1).kp.policy 1 1)
      ∧ (begins (keep 2) 1).kp.nonce = some (zeros 32)
      ∧ { keep 2 with kp := { (keep 2).kp with wiping := true } }.kp.wiping = true
      ∧ ((keep 2).kp.svn ≤ 64 ∧ (curRec (keep 2)).slot ≠ 2
        ∧ (curRec { keep 2 with kp := { cur := some { slot := 2 } } }).slot = 2)
      ∧ (∃ r, (keep 2).kp.cur = some r) ∧ owned (keep 2) = true
      ∧ (let s := { keep 2 with kp := { (keep 2).kp with ownerKey := [] } }
        owned s = false ∧ ∃ c, Taken (.mctp 0 (zeros 3764)) 0x11 s c s ∧ c.payload.length = 3764) := by
  refine ⟨canonical_of (by decide), fun op _ n hn => ?_, by decide, by decide, by decide, by decide, by decide, by decide,
    by decide, ⟨_, rfl⟩, by decide, by decide, _, taken_any (by decide) (by decide) (by decide) (by rw [zeros_length]; decide), zeros_length _⟩
  obtain ⟨src, c, h⟩ := accepted_keep op (zeros n) (by rw [zeros_length]; omega)
  exact ⟨src, c, zeros n, zeros_length n, h⟩

theorem witness_CriticalCommandsRefused :
    Canonical (keep 2)
      ∧ (∀ op ∈ [0x20, 0x21, 0x22, 0x23, 0x24, 0x25, 0x26, 0x27, 0x28], ∃ c, Taken (.mctp 0 (zeros 23)) op (keep 2) c (keep 2)
        ∧ c.payload.length < 24)
      ∧ (∀ op ∈ [0x20, 0x21, 0x22, 0x23, 0x24, 0x25, 0x26, 0x27, 0x28], ∃ c, Taken (.mctp 0 (zeros 24)) op (keep 2) c (keep 2)
        ∧ leAt c.payload 0 8 ≤ reg64 (keep 2) rKpCmdCtr)
      ∧ { keep 2 with kp := { (keep 2).kp with kCmd := none } }.kp.kCmd = none := by
  refine ⟨canonical_of (by decide), fun op _ => ⟨_, taken_any (by decide) rfl (by decide) (by decide), by show 23 < 24; decide⟩,
    fun op _ => ⟨_, taken_any (by decide) rfl (by decide) (by decide), ?_⟩, by decide⟩
  show leAt (zeros 24) 0 8 ≤ _
  decide

/-- A load in its second pass from flash bytes. -/
def loading : State := { keep 2 with kp := { (keep 2).kp with ld := { job := some ⟨none, 0, 64, some (zeros 64), [], false, none, zeros 64⟩ } } }

theorem witness_ImagesAreLoaded :
    Canonical (keep 2) ∧ (∃ src c body, body.length = 16 ∧ Accepted src 0x20 (keep 2) c [1] 1 body (begins (keep 2) 1))
      ∧ (keep 2).kp.ld.job = none
      ∧ (∃ j, loading.kp.ld.job = some j ∧ (readSource loading j.dpa j.len j.file []).2.1 = none) := by
  obtain ⟨src, c, h⟩ := accepted_keep 0x20 (zeros 16) (by decide)
  exact ⟨canonical_of (by decide), ⟨src, c, zeros 16, by decide, h⟩, by decide, _, rfl, by decide⟩

/-- The ports of tile 255 at debug level `d`, target `k`, address 2^19 - 4 (or 65532 for the pick store), with page command `p`
in progress. -/
def iaState (d k : Nat) (p : Option (Nat × Nat × Nat × Bool)) : State :=
  { put live [(rKpDebug, d), (rTileIaSel 255, k), (rTileIaAddr 255, if k = 1 then 65532 else 2 ^ 19 - 4)] with
    tile := { pageCmd := if p = none then [] else [(255, p)] } }

theorem witness_TilePorts :
    Canonical (iaState 2 1 none) ∧ 255 < tileCount (iaState 2 0 none)
      ∧ (∀ k < 2, reachable (iaState 2 k none) (rTileIaSel 255) = true ∧ portTarget (iaState 2 k none) 255 = k
        ∧ portWritable (iaState 2 k none) = true ∧ portWritable (iaState 1 k none) = false)
      ∧ portAddr (iaState 2 1 none) 255 < 65536 ∧ regBit (iaState 2 0 none) (rTileIaStatus 255) 0 = false
      ∧ runActive (iaState 2 0 none) = false
      ∧ (∀ k ∈ [1, 2], sget (fun _ => none) (iaState 2 0 (some (k, 15, 7, true))).tile.pageCmd 255 = some (k, 15, 7, true)) :=
  ⟨canonical_of (by decide), by decide, by decide, by decide, by decide, by decide, by decide⟩

/-! ### Reed, shuttles, jobs -/

/-- A packet from tile 255 to tile 254 of the given kind, come whole, and the state in which it is the only one. -/
def pkt (vc kind addr : Nat) (bs : List Byte) (rtag : Nat := 0) : Packet :=
  come { dst := 254, src := 255, vc := vc, kind := kind, rtag := rtag, addr := addr, chan := 7, payload := bs }
def carrying (p : Packet) (plane : Nat := 2) : State :=
  { W with image := some (imageOf (List.replicate 255 plane ++ [2])), rd := { packets := [p] } }

/-- The flits of a packet of kind `kind` from node 255 to node `dst` with `k` payload flits. -/
def flitsOf (dst kind k : Nat) : List Byte := issueFlits dst 255 kind 0 0 7 (zeros (16 * k))

set_option maxRecDepth 10000 in
theorem witness_PacketsInReed :
    Canonical (carrying (pkt 0 kWrite (2 ^ 19 - 4) (zeros 16) (writeTag (some 3) 4)))
      ∧ (({ dst := 1023, src := 1023, vc := 7, kind := 31, rtag := 65535, addr := 2 ^ 32 - 1, chan := 65535, payload := zeros 256 } :
          Packet).payload.length = 16 * 16)
      ∧ (nodeOk W 255 = true ∧ nodeOk W 0x148 = false ∧ nodeOk W 0x147 = true)
      ∧ (readFlits (issueFlits 254 255 kWrite 0 0 7 (zeros 15)) = none ∧ readFlits (flitsOf 254 kWrite 17) = none)
      ∧ (∀ q ∈ [(254, 1), (0x13B, 1), (0x148, 1)], ∃ p, readFlits (flitsOf q.1 kWrite 16) = some p
        ∧ issuable (carrying (pkt 0 kWrite 0 []) 1) p = true
        ∧ packetOk (carrying (pkt 0 kWrite 0 []) 1) p = (q.1 == 0x13B) ∧ packetOk W p = (q.1 != 0x148))
      ∧ (∃ p, readFlits (flitsOf 0x148 kRegRd 0) = some p ∧ issuable W p = true ∧ p.kind = kRegRd ∧ packetOk W p = false)
      ∧ (∃ p, readFlits (flitsOf 254 31 0) = some p ∧ issuable W p = false)
      ∧ (creditsUsed W (injectKey 255 5) = 0
        ∧ creditsUsed { W with rd := { credits := [(injectKey 255 5, 1)] } } (injectKey 255 5) ≠ 0)
      ∧ (let p := pkt 0 kWrite (2 ^ 19 - 4) (zeros 16) (writeTag (some 3) 4)
        arriving (carrying p) 255 254 0 kWrite = some p ∧ p.poison = false
          ∧ p.addr + (p.payload.take (16 * payloadFlits p - p.rtag / 32 % 16)).length = tsSize)
      ∧ arriving (carrying (pkt 0 kToken 0 [])) 255 254 0 kToken = some (pkt 0 kToken 0 [])
      ∧ arriving (carrying (pkt 1 kCredit 0 [])) 255 254 1 kCredit = some (pkt 1 kCredit 0 [])
      ∧ arriving (carrying (pkt 3 kRegWr 0 (zeros 16))) 255 254 3 kRegWr = some (pkt 3 kRegWr 0 (zeros 16))
      ∧ (arriving (carrying (pkt 3 kRegRd 0 [])) 255 254 3 kRegRd = some (pkt 3 kRegRd 0 [])
        ∧ queuedAt (carrying (pkt 3 kRegRd 0 [])) 254 kRegResp = 0
        ∧ queuedAt (carrying { pkt 4 kRegResp 0 (zeros 16) with src := 254 }) 254 kRegResp ≠ 0)
      ∧ arriving (carrying (pkt 4 kRegResp 0 (zeros 16))) 255 254 4 kRegResp = some (pkt 4 kRegResp 0 (zeros 16))
      ∧ arriving (carrying (pkt 5 kTelemetry 0 [])) 255 254 5 kTelemetry = some (pkt 5 kTelemetry 0 [])
      ∧ arriving W 255 254 0 kWrite = none := by
  refine ⟨canonical_of (by decide), by decide, by decide, by decide, ?_, ⟨_, rfl, by decide⟩, ⟨_, rfl, by decide⟩, by decide,
    by decide, by decide, by decide, by decide, by decide, by decide, by decide, by decide⟩
  intro q hq
  simp only [List.mem_cons, List.not_mem_nil, or_false] at hq
  rcases hq with rfl | rfl | rfl <;> exact ⟨_, rfl, by decide, by decide, by decide⟩

/-- Ticket 1 of tile 255 that copies 64 bytes from `src` to `dst`, its units so far, and the packets in Reed. -/
def ticketState (src dst : Nat) (done : List (Nat × Nat)) (acked : List Nat) (ps : List Packet) (started : Bool := true) : State :=
  { put W [(rBbDpaSize, 0x50000), (rBbMemStatus, 0x80000001), (rBbChStatus 0, 4)] with
    weft := { W.weft with tickets := [⟨255, 1, 0, zeros 4 ++ leBytes 4 64 ++ leBytes 8 src ++ leBytes 8 dst ++ zeros 8, started, done,
      acked, none⟩] }
    rd := { packets := ps } }

/-- Tile 255's request for ticket 1 at its engine; the engine's response for unit 0. -/
def requestPkt : Packet :=
  come { dst := engineNode 255, src := 255, vc := 0, kind := kShReq, rtag := 0, addr := 1, chan := 0, payload := [] }
def responsePkt : Packet :=
  come { dst := 255, src := engineNode 255, vc := 1, kind := kShResp, rtag := 1, addr := 0, chan := 0, payload := [] }

theorem witness_ShuttlesMoveData :
    Canonical (ticketState (2 ^ 19 - 64) (2 ^ 60) [] [] [])
      ∧ (let s := ticketState 0 (2 ^ 60) [] [] [requestPkt] false
        arriving s 255 (engineNode 255) 0 kShReq = some requestPkt ∧ requestPkt.addr = 1 ∧ requestPkt.poison = false
          ∧ (ticket s 255 1).isSome = true ∧ queuedAt s (engineNode 255) kShResp = 0)
      ∧ (let s := ticketState 0 (2 ^ 60) [] [] [requestPkt, responsePkt] false
        arriving s 255 (engineNode 255) 0 kShReq = some requestPkt ∧ queuedAt s (engineNode 255) kShResp ≠ 0)
      ∧ (∀ e ∈ [(2 ^ 19 - 64, 2 ^ 60), (2 ^ 60, 2 ^ 19 - 64)], ∃ k,
        let v := startTicket (ticketState e.1 e.2 [] [] []) 255 1 0
        ticket v 255 1 = some k ∧ (shUnits v 255 (shDesc k.desc))[0]? = some e ∧ k.started = true ∧ unitOpen v k 0 = true
          ∧ operating (ticketState e.1 e.2 [] [] []) = true
          ∧ ∃ sv, unitServer v e.1 e.2 = some sv ∧ serveTurn v sv (flowOf v k.job).1 ≠ none
            ∧ serveTurn { v with bb := { cap := [(0, { unwritten := [⟨0, 0, zeros 8⟩] })] } } sv (flowOf v k.job).1 = none)
      ∧ (shSpace (2 ^ 19 - 64) = 0 ∧ shSpace (2 ^ 60) = 1 ∧ biased (ticketState 0 0 [] [] []) 0 = false
        ∧ 2 ^ 60 % 64 = 0 ∧ 2 ^ 19 - 64 + 64 ≤ tsSize ∧ lineBad (ticketState 0 0 [] [] []) 0 = false)
      ∧ (∃ k, ticket (startTicket (ticketState 0 0 [(0, 0)] [] []) 255 1 0) 255 1 = some k
        ∧ unitOpen (startTicket (ticketState 0 0 [(0, 0)] [] []) 255 1 0) k 0 = false)
      ∧ (∃ k, ticket (startTicket (ticketState 0 0 [] [] [] false) 255 1 0) 255 1 = some k ∧ k.started = false)
      ∧ (arriving (ticketState 0 0 [(0, 0)] [] [responsePkt]) (engineNode 255) 255 1 kShResp = some responsePkt
        ∧ responsePkt.rtag = 1 % 2 ^ 16 ∧ responsePkt.addr = 0
        ∧ (ticket (ticketState 0 0 [(0, 0)] [] [responsePkt]) 255 1).isSome = true)
      ∧ (∃ k, ticket (ticketState 0 (2 ^ 60) [(0, 0)] [0] []) 255 1 = some k ∧ k.status = none ∧ k.started = true
        ∧ ∀ j < (shUnits (ticketState 0 (2 ^ 60) [(0, 0)] [0] []) 255 (shDesc k.desc)).length, j ∈ k.acked)
      ∧ (∃ k, ticket (ticketState 0 (2 ^ 60) [(0, 0)] [] []) 255 1 = some k ∧ k.started = true
        ∧ ∃ j < (shUnits (ticketState 0 (2 ^ 60) [(0, 0)] [] []) 255 (shDesc k.desc)).length, j ∉ k.acked) := by
  refine ⟨canonical_of (by decide), by decide, by decide, ?_, by decide, ⟨_, rfl, by decide⟩, ⟨_, rfl, by decide⟩, by decide,
    ⟨_, rfl, by decide, by decide, by decide⟩, ⟨_, rfl, by decide, 0, by decide, by decide⟩⟩
  intro e he
  simp only [List.mem_cons, List.not_mem_nil, or_false] at he
  rcases he with rfl | rfl <;> exact ⟨_, rfl, by decide, by decide, by decide, by decide, 0, by decide, by decide, by decide⟩

/-- Stream 15 with its queue enabled (rings of 16), program 0 loaded, and the scheduler as given. -/
def schedState (sc : SchedSt) (more : List (Nat × Nat)) : State :=
  { put hostState ([(rWfQCfg 15, 0x80040400), (rWfSqBase 15, 0x10000), (rWfSqBase 15 + 4, 0x10000000), (rWfCqBase 15, 0x30000),
      (rWfCqBase 15 + 4, 0x10000000)] ++ more) with
    jobs := { progs := [⟨0, 5, false, false, 15, 0, [255]⟩] }
    image := some (imageOf (List.replicate 256 2))
    sched := sc }

/-- Job 3 of stream 15. -/
def job3 : Job := ⟨3, 15, zeros 64, false, none⟩
/-- It runs on tile 255. -/
def runs3 (st : Option Nat) (lim : Nat) (c : Core) : State :=
  { schedState { running := [⟨3, 0, [{ job3 with desc := zeros 6 ++ leBytes 2 lim ++ zeros 56 }], [255], [(255, 100)], st, none, 0⟩] } [] with
    weft := { cores := [(255, c)] } }

set_option maxRecDepth 10000 in
theorem witness_JobQueues :
    Canonical (schedState {} []) ∧ released (schedState {} []) 3 = true
      ∧ (let s := schedState {} [(rWfSqProd 15, 1)]
        operating s = true ∧ abortTo s 15 = none ∧ queueEn s 15 = true ∧ sqProd s 15 ≠ sqCons s 15 ∧ jobsQueued s 15 < 64
          ∧ swf dNat s.sched.cqHeld = true
          ∧ (∃ y d, ringRead s (sqAddr s 15 (sqCons s 15)) {} = (y, some d)))
      ∧ (let s := schedState {} [(rWfSqProd 15, 1), (rWfSqBase 15, 0)]
        ∃ y, ringRead s (sqAddr s 15 (sqCons s 15)) {} = (y, none))
      ∧ (∀ p ∈ [1, 2], let s := schedState { aborts := [(15, p)] } [(rWfSqProd 15, 3)]
        abortTo s 15 = some p ∧ sqCons s 15 ≠ p ∧ sqCons s 15 ≠ ringNext (sqLog2 s 15) (sqCons s 15) % 2 ^ 16)
      ∧ (let s := schedState { completions := [⟨3, 15, zeros 32, false⟩] } []
        s.sched.completions.filter (fun d => d.stream == 15) = [⟨3, 15, zeros 32, false⟩]
          ∧ (∀ j ∈ s.sched.queue, ¬(j.stream = 15 ∧ j.num < 3)) ∧ cqFull s 15 = false
          ∧ (ringWrite s (reg64 s (rWfCqBase 15) + 32 * (cqProd s 15 % 2 ^ cqLog2 s 15)) (zeros 32) {}).2 = true)
      ∧ (let s := schedState { completions := [⟨3, 15, zeros 32, false⟩] } [(rWfCqBase 15, 0)]
        (ringWrite s (reg64 s (rWfCqBase 15) + 32 * (cqProd s 15 % 2 ^ cqLog2 s 15)) (zeros 32) {}).2 = false)
      ∧ (let s := schedState { queue := [job3] } [(rWfAgeLimit, 1)]
        regF s rWfAgeLimit 15 0 ≠ 0 ∧ (reservedJob s).isNone = true ∧ queueHead s 15 = some job3) :=
  ⟨canonical_of (by decide), by decide, ⟨by decide, by decide, by decide, by decide, by decide, by decide, _, _, rfl⟩, ⟨_, rfl⟩, by decide, by decide, by decide, by decide⟩

theorem witness_JobsRunAndEnd :
    Canonical (schedState { queue := [job3] } [(rWfCtrl, 1)])
      ∧ (let s := schedState { queue := [job3] } [(rWfCtrl, 1), (rWfBudget, 0xFFFFF)]
        operating s = true ∧ raiseWaits s = false ∧ streamQueue s 15 = [job3] ∧ (∀ m < 15, streamQueue s m = []) ∧ descAdvance job3.desc = false ∧ regBit s rWfCtrl 0 = true
          ∧ queueEn s 15 = true ∧ progOf s (descProg job3.desc) = some ⟨0, 5, false, false, 15, 0, [255]⟩
          ∧ (blockedBy s 15 job3).isNone = true ∧ (reservedJob s).isNone = true ∧ regBit s rWfBudget 31 = false
          ∧ granted s + needMw s job3 (descClass job3.desc) ≤ regF s rWfBudget 23 0)
      ∧ regBit (schedState { queue := [job3] } []) rWfCtrl 0 = false
      ∧ (let s := { schedState {} [(rWfBudget, 0xFFFFF)] with weft := { cores := [(255, { state := coreRunning, raiseTo := some 2 })] } }
        (core s 255).raiseTo = some 2 ∧ (core s 255).state ≠ coreStopping ∧ regBit s rWfBudget 31 = false
          ∧ granted s + classMw s 2 - classMw s (core s 255).eclass ≤ regF s rWfBudget 23 0)
      ∧ regBit (schedState {} [(rWfBudget, 0x80000000)]) rWfBudget 31 = true
      ∧ (∃ r, runningOn (runs3 none 0 { state := coreEnded }) 255 = some r ∧ (∀ j ∈ r.members, j.stream < 16)
        ∧ allEnded (runs3 none 0 { state := coreEnded }) r = true)
      ∧ (∃ r, runningOn (runs3 (some 0x0341) 0 { state := coreTrapped }) 255 = some r ∧ r.stop = some 0x0341
        ∧ allEnded (runs3 (some 0x0341) 0 { state := coreTrapped }) r = false
        ∧ sendsOpen (runs3 (some 0x0341) 0 { state := coreTrapped }) r = false
        ∧ ∀ q ∈ r.tiles, openTickets (runs3 (some 0x0341) 0 { state := coreTrapped }) q = [])
      ∧ (∃ r, runningOn (runs3 none 1 { state := coreRunning }) 255 = some r ∧ r.stop = none ∧ ∃ j ∈ r.members, leAt j.desc 6 2 ≠ 0)
      ∧ released (schedState {} []) 3 = true :=
  ⟨canonical_of (by decide), by decide, by decide, by decide, by decide, ⟨_, rfl, by decide, by decide⟩,
    ⟨_, rfl, by decide, by decide, by decide, by decide⟩, ⟨_, rfl, by decide, _, List.mem_cons_self, by decide⟩, by decide⟩

/-! ### Peers, farm, observability, power, register access -/

/-- Port 7 in state `st` with contents `x`, its partner device 2, this device 1, and event ring 16 entries at 192 KiB. -/
def peerState (st : Nat) (x : PeerPort) (more : List (Nat × Nat) := []) : State :=
  { put hostState ([(rKwPortStatus 7, st * 2 ^ 29), (rKwPortCfg 7, 0xC0000000), (rKwPortPartner 7, 0x80000002), (rKwDevid, 1)] ++ more)
    with kw := { ports := if x = {} then [] else [(7, x)] } }

/-- A DATA bolt that waits for its acknowledgement. -/
def out1 : PeerOut := ⟨5, 1, zeros 16⟩

/-- A port in TRAIN whose lanes have each had `n` bolts that name `dev` and port 3; lane 0 has had `n0`. -/
def trained (n0 n dev : Nat) : PeerPort := 
  { train := [(0, ⟨dev, 3, n0⟩), (1, ⟨dev, 3, n⟩), (2, ⟨dev, 3, n⟩), (3, ⟨dev, 3, n⟩)] }

set_option maxRecDepth 100000 in
theorem witness_PeerPorts :
    Canonical (peerState 2 { unacked := [out1] }) ∧ released (peerState 0 {}) 7 = true
      ∧ (regBit (peerState 0 {} [(rKwPortCfg 7, 0)]) (rKwPortCfg 7) 31 = false ∧ wbit 0x80000000#32 31 = true)
      ∧ (regBit (peerState 2 {}) (rKwPortCfg 7) 31 = true ∧ wbit 0x40000000#32 31 = false)
      ∧ (portState (peerState 1 (trained 64 64 2)) 7 = 1 ∧ agreed (port (peerState 1 (trained 64 64 2)) 7) = some (2, 3)
        ∧ agreed (port (peerState 1 (trained 63 64 2)) 7) = none)
      ∧ (let s := peerState 1 (trained 63 64 1)
        let x := port s 7
        let bits := (boltLine true (2 ^ 58 - 1) (peerPayload x 0 2 false 0 (leBytes 2 1 ++ leBytes 1 3 ++ zeros 13))).1
        let r := boltReceive true (x.descr.getD 0 0) (bits.map (fun b => b != regBit s (rKwPortCfg 7) 16))
        r.lost = none ∧ crc32 (r.payload.take 252) = leAt r.payload 252 4 ∧ leAt r.payload 4 1 % 4 = 2 ∧ leAt r.payload 5 1 % 16 = 1
          ∧ agreed { x with train := sset dTrain 0 (trainOn (sget dTrain x.train 0) (some (leAt r.payload 12 2 % 4096,
              leAt r.payload 14 1 % 8))) x.train } = some (devId s, 3))
      ∧ (portState (peerState 3 {}) 7 = 3 ∧ regBit (peerState 3 {}) (rKwPortCfg 7) 30 = true
        ∧ regBit (peerState 3 {}) (rKwPortCfg 7) 31 = true)
      ∧ (∀ k ∈ [0, 7, 8], portState (peerState 2 { unacked := [out1], replays := k }) 7 = 2
        ∧ (port (peerState 2 { unacked := [out1], replays := k }) 7).unacked = [out1]
        ∧ (port (peerState 2 { unacked := [out1], replays := k }) 7).replays = k)
      ∧ (port (peerState 2 {}) 7).unacked = [] :=
  ⟨canonical_of (by decide), by decide, by decide, by decide, by decide, by decide +kernel, by decide, by decide, by decide⟩

theorem witness_PeerBolts :
    Canonical (peerState 2 { txq := [(3, zeros 16)] }) ∧ (∀ st < 4, portState (peerState st {}) 7 = st)
      ∧ ((port (peerState 2 {}) 7).resend.isNone = true ∧ (pickVl (port (peerState 2 {}) 7)).isNone = true)
      ∧ ((pickVl (port (peerState 2 { txq := [(3, zeros 16)] }) 7)) = some 3
        ∧ (port (peerState 2 { txq := [(3, zeros 16)] }) 7).sent.length = 4
        ∧ peerBubble (peerState 2 {} [(rPmBubble, 64 * 256)]) (port (peerState 2 {}) 7) = true
        ∧ peerBubble (peerState 2 {}) (port (peerState 2 {}) 7) = false)
      ∧ (3 ≠ (port (peerState 2 {}) 7).rxLane ∧ (port (peerState 2 { rxLane := 3 }) 7).rxLane = 3
        ∧ swf dNat (port (peerState 2 { missed := [(3, 3)] }) 7).missed = true
        ∧ 3 ≤ sget dNat (port (peerState 2 { missed := [(3, 3)] }) 7).missed 3
        ∧ 0x0101 ∈ (boltReceive true (2 ^ 58 - 1) ((headerBits (boltHeader true)).map (!·))).causes)
      ∧ ((port (peerState 2 { unacked := [out1], resend := some 5 }) 7).unacked.find?
          (fun q => (port (peerState 2 { unacked := [out1], resend := some 5 }) 7).resend == some q.seq) = some out1) :=
  ⟨canonical_of (by decide), by decide, by decide, by decide, by decide, by decide⟩

/-- A message with TYPE, DPA and RTAG 5 in a list of `n` bytes. -/
def peerMsg (ty dpa n : Nat) : List Byte := BitVec.ofNat 8 ty :: (zeros 7 ++ leBytes 6 dpa ++ leBytes 2 5 ++ zeros (n - 16))
/-- Port 7 has received one message on virtual lane `v`, and unit 0 of ticket 1 of tile 255 waits for an answer. -/
def received (v : Nat) (bs : List Byte) (read : Bool) (more : List (Nat × Nat) := []) : State :=
  let s := peerState 2 { rxq := [⟨v, bs, 0, false, true⟩] } more
  { s with kw := { s.kw with waits := [⟨7, 5, 255, 1, 0, 0, read⟩] } }

theorem witness_PeerMessages :
    Canonical (received 1 (peerMsg 0x10 0 80) false)
      ∧ (nextMsg (received 1 (peerMsg 0x10 0 80) false) 7 1 0x10).isSome = true
      ∧ (regBit (received 1 [] false [(rKwEvCfg 7, 0x80000004), (rKwEvProd 7, 15)]) (rKwEvCfg 7) 31 = true
        ∧ evSize (received 1 [] false [(rKwEvCfg 7, 0x80000004), (rKwEvProd 7, 15)]) 7 = 16
        ∧ (15 + 2 ^ 32 - (reg (received 1 [] false) (rKwEvCons 7)).toNat) % 2 ^ 32 ≠ 16
        ∧ (16 + 2 ^ 32 - (reg (received 1 [] false) (rKwEvCons 7)).toNat) % 2 ^ 32 = 16)
      ∧ (regBit (received 1 [] false) (rKwEvCfg 7) 31 = false ∧ answerRoom (received 1 [] false) 7 = true
        ∧ answerRoom (peerState 2 { txq := List.replicate 64 (3, zeros 16) }) 7 = false)
      ∧ (∀ a ∈ [0x10000, 0x20000, 0x30000, 0x4FFC0, 0x50000],
        (nextMsg (received 2 (peerMsg 0x20 a 80) false) 7 2 0x20).isSome = true
          ∧ (nextMsg (received 2 (peerMsg 0x21 a 16) false) 7 2 0x21).isSome = true ∧ msgDpa (peerMsg 0x20 a 80) = a)
      ∧ (kindAt (received 2 [] false) 0x30000 64 = some 3 ∧ kindAt (received 2 [] false) 0x4FFC0 64 = some 4
        ∧ kindAt (received 2 [] false) 0x10000 64 = some 1 ∧ (kindAt (received 2 [] false) 0x50000 64).isNone = true)
      ∧ ((nextMsg (received 3 (peerMsg 0x30 0 16) false) 7 3 0x30).isSome = true
        ∧ (received 3 (peerMsg 0x30 0 16) false).kw.waits.find? (fun q => q.port == 7 && q.rtag == leAt (peerMsg 0x30 0 16) 14 2
          && q.read == false) = some ⟨7, 5, 255, 1, 0, 0, false⟩)
      ∧ ((nextMsg (received 3 (peerMsg 0x31 0 80) true) 7 3 0x31).isSome = true
        ∧ leAt (peerMsg 0x31 0 80) 8 2 = 0 ∧ leAt (peerMsg 0x31 7 80) 8 2 = 7 ∧ bitN (leAt (peerMsg 0x31 0 80) 1 1) 0 = false
        ∧ shSpace 0 = 0) :=
  ⟨canonical_of (by decide), by decide, by decide, by decide, by decide, by decide, by decide, by decide⟩

/-- A farm grant to device `dst` of EPOCH 1 with CAP `cap`, under the key [9]. -/
def grantMsg (dst cap : Nat) : List Byte :=
  let head := (3 :: zeros 5) ++ leBytes 2 dst ++ leBytes 4 1 ++ leBytes 4 cap
  head ++ kmac256 [9] head 16 []

theorem grantMsg_fine (cap : Nat) : kmac256 [9] ((grantMsg 1 cap).take 16) 16 [] = slice (grantMsg 1 cap) 16 16 := by
  have h : ((3 :: zeros 5) ++ leBytes 2 1 ++ leBytes 4 1 ++ leBytes 4 cap : List Byte).length = 16 := by simp [zeros_length]
  have hk : ∀ m : List Byte, (kmac256 [9] m 16 []).length = 16 := fun m => kmac256_length
  simp only [grantMsg]
  rw [List.take_left' h]
  simp only [slice, List.drop_left' h, padTo, hk, Nat.sub_self]
  rw [show zeros 0 = [] from rfl, List.append_nil, List.take_of_length_le (Nat.le_of_eq (hk _))]

/-- Farm power on with key [9] and ceiling 450 W; device 1 is below port 7 when `up` is 7 and the root when it is 15. -/
def farm (up : Nat) (v : Nat) (bs : List Byte) (more : List (Nat × Nat) := []) : State :=
  let s := peerState 2 { rxq := [⟨v, bs, 0, false, true⟩] }
    ([(rKwFarmCfg, 0xC0000000), (rKwTreeCfg, 0x8000 + up), (rKwFarmCeil, 450000), (rKwFarmFloor, 120000), (rTbStatus, 0x14)] ++ more)
  { s with kw := { s.kw with farmKey := [9] }, tb := { tick := 2 ^ 20 } }

/-- A TIME_CHECK whose exchange is complete: N 1, partner's N 0, RUN 0, times 5 and 7. -/
def timeMsg : List Byte := 1 :: (zeros 7 ++ leBytes 2 1 ++ leBytes 2 0 ++ leBytes 4 0 ++ leBytes 8 5 ++ leBytes 8 7 ++ zeros 16)

theorem witness_FarmAndTime :
    Canonical (farm 7 0 timeMsg) ∧ (runActive (farm 7 0 timeMsg) = true ∧ (farm 7 0 timeMsg).tb.tick % 2 ^ tcLog2 (farm 7 0 timeMsg) = 0)
      ∧ runActive live = false
      ∧ ((nextMsg (farm 7 0 timeMsg) 7 0 1).isSome = true ∧ leAt timeMsg 12 4 = (reg (farm 7 0 timeMsg) rBbRunid).toNat
        ∧ leAt timeMsg 12 4 ≠ (reg (farm 7 0 timeMsg [(rBbRunid, 1)]) rBbRunid).toNat)
      ∧ (let x : PeerPort := { rxq := [⟨0, timeMsg, 0, false, true⟩], tcDeps := [(0, 3)], tcRx := some (0, 4) }
        x.tcDeps.find? (fun e => e.1 == leAt timeMsg 10 2) = some (0, 3) ∧ x.tcRx = some (0, 4) ∧ (0 + 1) % 65536 = leAt timeMsg 8 2
          ∧ leAt timeMsg 24 8 = 7 ∧ leAt timeMsg 16 8 = 5)
      ∧ (farmOn live = false ∧ farmOn (farm 7 0 []) = true ∧ upPort (farm 7 0 []) = some 7 ∧ portState (farm 7 0 []) 7 = 2
        ∧ (upPort (farm 15 0 [])).isNone = true)
      ∧ ((nextMsg (farm 15 0 (2 :: zeros 47)) 7 0 2).isSome = true ∧ regBit (farm 15 0 []) rKwTreeCfg (8 + 7) = true
        ∧ upPort (farm 6 0 []) = some 6 ∧ portState (farm 6 0 [] [(rKwPortStatus 6, 2 ^ 30)]) 6 = 2)
      ∧ ((∀ cap ∈ [120000, 450000], leAt (grantMsg 1 cap) 6 2 % 4096 = devId (farm 7 0 []) ∧ leAt (grantMsg 1 cap) 12 4 = cap
          ∧ leAt (grantMsg 1 cap) 8 4 = 1 ∧ (nextMsg (farm 7 0 (grantMsg 1 cap)) 7 0 3).isSome = true
          ∧ farmFloor (farm 7 0 []) ≤ cap ∧ cap ≤ regF (farm 7 0 []) rKwFarmCeil 19 0)
        ∧ (reg (farm 7 0 []) rKwFarmEpoch).toNat = 0 ∧ (farm 7 0 []).kw.farmKey = [9] ∧ swf dNat (farm 7 0 []).kw.route = true
        ∧ keepBusy (farm 7 0 []) = false ∧ (farm 7 0 []).kp.waiting = []
        ∧ ({ farm 7 0 [] with kp := { waiting := [.arm] } } : State).kp.waiting ≠ [])
      ∧ (∀ cap, kmac256 (farm 7 0 []).kw.farmKey ((grantMsg 1 cap).take 16) 16 [] = slice (grantMsg 1 cap) 16 16)
      ∧ ((nextMsg (farm 7 0 (grantMsg 1 119999)) 7 0 3).isSome = true ∧ leAt (grantMsg 1 119999) 12 4 < 120000)
      ∧ (leAt (grantMsg 3 120000) 6 2 % 4096 ≠ devId (farm 7 0 []) ∧ sget dNat [(3, 7)] 3 = 6 + 1
        ∧ sget dNat (farm 7 0 []).kw.route 3 = 0)
      ∧ (coordinates (farm 15 0 []) = true ∧ coordinates (farm 7 0 []) = false) :=
  ⟨canonical_of (by decide), by decide, by decide, by decide, by decide, by decide, by decide, by decide,
    fun cap => grantMsg_fine cap, by decide, by decide, by decide⟩

/-- A run at tick 2001 in which the block places of the snapshot unit are as given. -/
def snapState (st : Nat) (pend : Option Nat) (more : List (Nat × Nat) := []) : State :=
  { put live ([(rTbStatus, st), (rSnCfg, 2)] ++ more) with tb := { tick := 2001 }, ob := { pendTick := pend } }

/-- The blocks as they stand at reset. -/
def snap0 : Snap :=
  ⟨[], {}, {}, {}, {}, [], {}, {}, {}, {}, {}, {}, [], none⟩

theorem witness_Snapshots :
    Canonical (snapState 0x14 none) ∧ runActive (snapState 0x14 none) = true
      ∧ ((0 : Int) ≤ (512300 : Nat) + sextI 16 (regF (snapState 0x14 none) (rTbSkewSnapIn) 15 0)
        ∧ ((0 : Nat) : Int) + sextI 16 (regF (snapState 0x14 none [(rTbSkewSnapIn, 0xFFFF)]) rTbSkewSnapIn 15 0) < 0)
      ∧ (regBit (snapState 0x14 none [(rSnStatus, 0x80000000)]) rSnStatus 31 = true ∧ regBit (snapState 0x14 none) rSnStatus 31 = false)
      ∧ (∀ t ∈ [2002, 2003, 2004], (snapState 0x14 (some t)).ob.pendTick = some t)
      ∧ (released (snapState 0x14 none) 11 = true
        ∧ (snapState 0x14 none).tb.tick + 2 ≤ reg64 (snapState 0x14 none [(rSnAt, 2003)]) rSnAt
        ∧ reg64 (snapState 0x14 none [(rSnAt, 2002)]) rSnAt < (snapState 0x14 none).tb.tick + 2)
      ∧ (runActive (snapState 0x12 none) = false ∧ (snapState 0x14 (some 2001)).ob.pendTick = some 2001
        ∧ (snapState 0x14 (some 2002)).tb.tick < 2002 ∧ 2001 ≤ (snapState 0x14 (some 2001)).tb.tick)
      ∧ (reachable live rSnData = true ∧ debugLevel live = 0 ∧ debugLevel (put live [(rKpDebug, 1)]) ≠ 0
        ∧ tileStoreWord { W with snap := some snap0 } 3 255 32 = true ∧ tileStoreWord { W with snap := some snap0 } 3 255 1056 = false
        ∧ tileStoreWord { W with snap := some snap0 } 3 255 31 = false ∧ tileStoreWord { W with snap := some snap0 } 3 255 1055 = true) :=
  ⟨canonical_of (by decide), by decide, by decide, by decide, by decide, by decide, by decide, by decide⟩

theorem witness_EyeAndBoundaryScan :
    Canonical live ∧ reachable live (rEyCtrl 143) = true ∧ regBit live (rEyStatus 143) 31 = false
      ∧ regBit (put live [(rEyStatus 143, 0x80000000)]) (rEyStatus 143) 31 = true
      ∧ (eyeLaneUp (put live [(rBmLaneStatus 95, 4)]) 95 = true ∧ eyeLaneUp live 143 = false)
      ∧ ({ live with ob := { testMode := true } }.ob.testMode = true ∧ dark.pins.powered = false
        ∧ live.ob.testMode = false ∧ live.pins.powered = true) :=
  ⟨canonical_of (by decide), by decide, by decide, by decide, by decide, by decide⟩

theorem witness_PowerLoop :
    Canonical live ∧ throttled (put live [(rPmThermStatus, 0x02000000)]) = true ∧ throttled live = false
      ∧ (regBit live rPmMarrowCfg 31 = false ∨ runActive live = false) ∧ frozen live = false
      ∧ frozen (put live [(rPmFault, 0x1000)]) = frozen (put live [(rPmFault, 0x1000)]) :=
  ⟨canonical_of (by decide), by decide, by decide, by decide, by decide, rfl⟩

theorem witness_SensorsAndTrips :
    Canonical live ∧ swf dNat live.pm.rails = true ∧ swf dNat live.pm.railFails = true ∧ sensorPresent live 71 = true
      ∧ sensorPresent { live with fuse := { grade192 := true } } 48 = false
      ∧ (∃ t i, hottest (put live [(rPmTemp 71, 0x80000190)]) (List.range 72) = some (t, i))
      ∧ (regBit live rPmThermStatus 26 = false ∧ regBit (put live [(rPmThermStatus, 0x04000000)]) rPmThermStatus 26 = true) :=
  ⟨canonical_of (by decide), by decide, by decide, by decide, by decide, ⟨_, _, rfl⟩, by decide⟩

theorem witness_RegisterWrites :
    Canonical live ∧ (0xF % 16 = 15 ∧ 0x7 % 16 ≠ 15)
      ∧ (rTbTickCfg ≠ rSnCtrl ∧ rTbTickCfg ≠ rCxBiasCtrl ∧ (unitAction live rTbTickCfg 0xFFFFFFFF#32).isNone = true)
      ∧ (regBit (put live [(rTbCtrl, 1)]) rTbCtrl 0 = true ∧ reachable (put live [(rTbCtrl, 1)]) rTbCtrl = true
        ∧ (∀ a ∈ [rSnCtrl, rWfQCtrl 15, rTrForce 15, rBbStCtrl 15, rCxBiasCtrl, rEyCtrl 143], reachable live a = true)
        ∧ regBit live (rEyStatus 143) 31 = false) ∧ (reachable State.reset rTbStatus = false ∧ wide rTbStatus = none) ∧ wide (rSnAt + 4) ≠ none
      ∧ (reachable live rTbTickCfg = true ∧ wide rTbTickCfg = none ∧ ¬(0xC00000 ≤ rTbTickCfg ∧ 0x3000 ≤ rTbTickCfg % 0x4000)
        ∧ writeRefused live rTbTickCfg (BitVec.ofNat 32 (2 ^ 32 - 1)) = false ∧ ∀ p < 8, rTbTickCfg ≠ rKwPortCfg p)
      ∧ released live 3 = true ∧ released live 7 = true
      ∧ (∃ r, regionOf hostState (reg64 (put hostState [(rKwEvBase 7, 0x30000)]) (rKwEvBase 7)) (64 * 2 ^ fld 4 4 0) = some r
        ∧ (region hostState r).kind = 3)
      ∧ (regBit live (rKwEvCfg 7) 31 = false ∧ bitN 0x80000000 31 = true)
      ∧ (bitN 0x40000000 31 = regBit live (rKwPortCfg 7) 31)
      ∧ (wide rSnAt = some (rSnAt, false) ∧ reachable live rSnAt = true ∧ swf regReset live.staging = true
        ∧ wide (rSnAt + 4) = some (rSnAt, true) ∧ reachable live (rSnAt + 4) = true ∧ (windowRead live rSnAt).isNone = true
        ∧ writeRefused live rSnAt 0xFFFFFFFF#32 = false)
      ∧ (released live 11 = true ∧ released live 8 = true ∧ wbit { live with cx := { mbStatus := 0x80000000 } }.cx.mbStatus 31 = true)
      ∧ (decoder { live with cx := { dec1 := { locked := true } } } 1).locked = true ∧ (decoder live 1).locked = false :=
  ⟨canonical_of (by decide), by decide, by decide, by decide, by decide, by decide, by decide, by decide, by decide, ⟨_, rfl, by decide⟩, by decide, by decide, by decide,
    by decide, by decide, by decide⟩

theorem witness_RegisterReads :
    Canonical live ∧ (wide rTbStatus = none ∧ reachable State.reset rTbStatus = false ∧ reachable live rTbStatus = true)
      ∧ ((regLookup 0xBFFFFC).isNone = true ∧ 0xBFFFFC % 4 = 0)
      ∧ (rTbStatus ≠ rSnData ∧ reachable live rSnData = true ∧ released live 8 = true
        ∧ reachable live (0xC00000 + 0x4000 * 255 + 0x3008) = true)
      ∧ (wide rSnAt = some (rSnAt, false) ∧ reachable live rSnAt = true ∧ swf dNone live.latch = true)
      ∧ (wide (rSnAt + 4) = some (rSnAt, true) ∧ reachable live (rSnAt + 4) = true ∧ sget dNone live.latch rSnAt = none) :=
  ⟨canonical_of (by decide), by decide, by decide, by decide, by decide, by decide⟩

/-- The log's newest entry is cause 0x0101 from source 3, merged 65,535 times. -/
def logged : State := { live with ob := { log := [⟨0x0101, 3, 0xFFFF, 0, 0⟩] } }

theorem witness_RaisesAreLogged :
    (Canonical logged ∧ (∃ e es, logged.ob.log = e :: es ∧ e.cause = 0x0101 ∧ e.source = 3) ∧ logged.ob.log.length < 4096)
      ∧ (¬∃ e, live.ob.log.head? = some e ∧ e.cause = 0x0101 ∧ e.source = 3)
      ∧ (List.replicate 4096 (⟨1, 1, 1, 0, 0⟩ : LogEntry)).length = 4096
      ∧ faultBit 0x0101 = some (rBmFault, 1) ∧ (faultBit 0x0301).isNone = true :=
  ⟨⟨canonical_of (by decide), ⟨_, _, rfl, by decide⟩, by decide⟩, by decide, List.length_replicate, by decide, by decide⟩

theorem witness_StepRunsTheFront :
    live.pending = [] ∧ { live with pending := [.nop 0 0 {} {}] }.pending = [.nop 0 0 {} {}]
      ∧ (runActive live = false ∧ regBit (put live [(rTbWeftOp, 0x100)]) rTbWeftOp 8 = true)
      ∧ (runActive (timed 4 []) = true ∧ lastTick (timed 4 []) = true ∧ edgeDue (timed 4 []) = false
        ∧ edgeDue { timed 4 [] with tb := { tick := 9, cyc := 400, eighth := 1600 } } = true) := by
  decide

theorem witness_WholeMachine :
    unitExists (.vbcst 255 {} {}) = true ∧ unitExists (.vbcst 256 {} {}) = false
      ∧ (∃ u, exec (.fence 255 {} {}) W = .next u) ∧ (∃ u, step { W with pending := [.fence 255 {} {}] } = .next u) :=
  ⟨by decide, by decide, ⟨_, rfl⟩, ⟨_, rfl⟩⟩

theorem witness_PickWordRoundTrip : pickFits (decodePick (2 ^ 128 - 1)) = true ∧ pickFits (decodePick 0) = true := by decide

/-! ### Well-formedness: each check refuses a command -/

theorem smoke_tile : wellFormed (.add 256 {} {}) = false ∧ wellFormed (.add 255 {} {}) = true := by decide
theorem smoke_warp_tile : wellFormed (.warpMxc { tile := 256, word := 0, lag := 0 } 0) = false := by decide
theorem smoke_lane : wellFormed (.laneDown 96) = false ∧ wellFormed (.laneDown 95) = true := by decide
theorem smoke_stream : wellFormed (.evaluation 16) = false ∧ wellFormed (.evaluation 15) = true := by decide
theorem smoke_router : wellFormed (.warpFlitArrival 257 0) = false ∧ wellFormed (.warpFlitArrival 256 3) = false := by decide
theorem smoke_region : wellFormed (.regionValidWrite 32 0 0) = false ∧ wellFormed (.regionValidWrite 31 8 0) = false := by decide
theorem smoke_peer : wellFormed (.portDown 8) = false ∧ wellFormed (.portUp 8 0 0) = false := by decide
theorem smoke_eye : wellFormed (.eyeScanDone 144 0) = false ∧ wellFormed (.thermalTrip 72) = false := by decide
theorem smoke_die : wellFormed (.droopDetected 4 0 0) = false ∧ wellFormed (.hdmDecoderCommit 2) = false := by decide
theorem smoke_register_field : wellFormed (.add 0 { rd := 32 } {}) = false ∧ wellFormed (.add 0 { imm := 2 ^ 32 } {}) = false := by decide
theorem smoke_opcode : wellFormed (.nop 0 256 {} {}) = false ∧ wellFormed (.nop 0 255 { pg := 8 } {}) = false := by decide
theorem smoke_slot :
    wellFormed (.movv { tile := 0, word := 4096, lag := 0 } 0) = false
      ∧ wellFormed (.movv { tile := 0, word := 0, lag := 256 } 0) = false
      ∧ wellFormed (.movv { tile := 0, word := 0, lag := 0, q := 16 } 0) = false
      ∧ wellFormed (.movv { tile := 0, word := 0, lag := 0 } 64) = false := by decide
theorem smoke_htk_route : wellFormed (.htk { tile := 0, word := 0, lag := 0 } 0 15 0 0 0) = false := by decide
theorem smoke_port_page : wellFormed (.iaPageRead 0 16 0) = false ∧ wellFormed (.iaPageRead 0 15 8) = false := by decide
theorem smoke_link : wellFormed (.linkUp true 16 0) = false ∧ wellFormed (.timeCheck 8) = false := by decide

/-! ### Words and the queue -/

theorem test_no_row_has_bits : decodeTableWord 128 0 = none := rfl
theorem test_no_word_no_change : State.reset.withFetchWord 64 7 = State.reset := rfl
theorem test_step_runs_the_front :
    step { W with pending := [.lockEnSet, .arm] } = exec .lockEnSet { W with pending := [.arm] } := rfl

/-! ### The spec's worked examples -/

/-- FP32 of `m` × 2^`e`. -/
def f32Of (m : Nat) (e : Int) : Nat := (fpack f32 false m e false).1

/-- TILE_ID of tile 157 on the weft plane in a run (spec/01, "finding a tile"). -/
theorem test_tile_id :
    regView { put live [(rTbStatus, 0x14)] with image := some (imageOf (List.replicate 256 2)) } 0xE74000 = 0x80129D9D#32 := by
  decide

set_option maxRecDepth 8192 in
/-- The first short bolt after a transmitter reset: its first 65 line bits (spec/03). -/
theorem test_first_bolt :
    ((boltLine false (2 ^ 58 - 1) ([0, 0, 0, 0, 0, 0xA7] ++ zeros 58)).1.take 65).map b2n
      = [0, 1, 1, 0, 0, 1, 0, 1, 0, 0, 0, 1, 1, 1, 0, 0] ++ List.replicate 38 0
        ++ [1, 0, 1, 0, 0, 0, 1, 1, 0, 1, 0] := by decide

/-- The pick word of all ones in its mop place alone: bits [111:108] (spec/06 R158). -/
theorem test_pick_word : decodePick (15 * 2 ^ 108) = { decodePick 0 with mop := 15 } := by decide

/-- I8 −2 as three unsigned digits and one signed one; U8 30 as slices 2, 3, 1, 0 (spec/04). -/
theorem test_digits :
    [digit false 2, digit false 3, digit false 3, digit true 3] = [2, 3, 3, -1]
      ∧ (List.range 4).map (actSlice 3 30) = [2, 3, 1, 0] := by decide

/-- The E4M3 block of spec/04: q 112, 2, −6 and 0, X −3, one underflow. -/
theorem test_align :
    alignBlock e4m3 ([0x56, 0x2A, 0xB3, 0x15] ++ List.replicate 28 0) = ([112, 2, -6] ++ List.replicate 29 0, -3, 1, false) := by
  decide

/-- The tensor scale record of spec/05's I8 tensor: FOLLOW, history maximum 31.75. -/
def tensorRec : ScaleRec :=
  { scaleRec (zeros 96) with fmt := 2, policy := 1, osafe := f32Of 1 0, amin := f32Of 1 0, outer := f32Of 1 (-6)
                             hist := f32Of 127 (-2) :: List.replicate 15 0 }

/-- `bs` with what `recEnd` stores in it, as a record. -/
def ended (r : ScaleRec) (amax : Nat) (missed : Bool) : ScaleRec :=
  let b := (recEnd 0 r amax missed).foldl (fun b e => overlay b e.1 e.2) (zeros 96)
  let q := scaleRec b
  { r with jumpLeft := q.jumpLeft, head := q.head, hist := r.hist.set r.head (q.hist.getD r.head 0) }

/-- Its outer scale is 2^−6; after the miss of amax 1,016 FOLLOW gives 0.5, JUMP gives OSAFE, KEEP keeps 2^−6. -/
theorem test_outer_scale :
    (chooseOuter tensorRec).1 = f32Of 1 (-6) ∧ (chooseOuter (ended tensorRec (f32Of 1016 0) true)).1 = f32Of 1 (-1)
      ∧ (chooseOuter (ended { tensorRec with policy := 2 } (f32Of 1016 0) true)).1 = f32Of 1 0
      ∧ (chooseOuter (ended { tensorRec with policy := 0 } (f32Of 1016 0) true)).1 = f32Of 1 (-6) := by decide

/-- Of spec/05's I8 tensor: block 0 takes code 0x79 and not 0x78; 0xFF does not reach 1,016 at 2^−6; at 0.5, 0xB0 does and
0xAF does not. -/
theorem test_inner_code :
    [(0x78, -6, 3), (0x79, -6, 3), (0xFF, -6, 1016), (0xAF, -1, 1016), (0xB0, -1, 1016)].map
        (fun (x : Nat × Int × Nat) => codeReaches x.1 (f32Of 1 x.2.1) 2 (f32Of x.2.2 0)) = [false, true, false, false, true] := by
  decide

/-- Its elements 3.0, −1.0 and 0.01 at the element scale 25 × 2^−10: 123, −41 and an underflow (spec/05). -/
theorem test_quantise :
    [f32Of 3 0, f32Of 1 0 + 2 ^ 31, f32Of 0x51EB85 (-29)].map (fun y => quantElem 2 y 25 (-10) 0)
      = [(123, false), (-41, false), (0, true)] := by decide

set_option exponentiation.threshold 400 in
/-- 2^24 + 1 + 1 − 2^24 in an exact accumulator reads 2.0 (spec/09, "four frames on one or two devices"). -/
theorem test_exact_sum :
    xRead ([f32Of 1 24, f32Of 1 0, f32Of 1 0, f32Of 1 24 + 2 ^ 31].foldl (fun a b => (xAddLane a (xOfF32 b)).1) {})
      = (f32Of 1 1, 0) := by decide

/-- An edge on a window boundary: tick 1,000 fine 20 and fine 37 with offset −37, windows of ticks 999 and 1,000
(spec/02). -/
theorem test_window_boundary :
    (let s (raw : Nat) : State := { put live [(rTbSkewTrigIn 3, 0xFFDB)] with tr := { trigIn := [(3, { edges := [raw] })] } }
     [256020, 256037].map (fun raw => (edgeTimes (s raw) 3).map (fun t => (inWindow 255744 256000 t, inWindow 256000 256256 t))))
      = [[(true, false)], [(false, true)]] := by decide

/-- A snapshot from SNAP_IN: DELAY 2, offset +100, an edge at tick 2,000 fine 200 (spec/18). -/
theorem test_snap_in :
    (match execSnapInEdge 512200 (snapState 0x14 none [(rSnCfg, 0x80000002), (rTbSkewSnapIn, 100)]) with
     | .next u => u.ob.pendTick
     | _ => none) = some 2003 := by decide

/-- Sixteen 64 GB modules, MC02 out of service (spec/12). -/
def mem960 : State := put live ((rBbMemStatus, 0xFFFB) :: (List.range 16).map (fun c => (rBbChStatus c, 4)))

theorem test_dpa_map :
    dpaChannel mem960 0x5040 = some (3, 0x1040) ∧ dpaChannel mem960 0x3000002040 = some (6, 0x040)
      ∧ (List.range 4).map (zoneBase mem960) = [0, 0x3000000000, 0x7000000000, 0xB000000000]
      ∧ zoneEnd mem960 3 = 0xF000000000 := by decide

/-- The four-channel stream 2 of spec/12, after its RUN record. -/
def capState (vals : List (Nat × Nat)) (prev : Nat) (last : Option Nat) : State :=
  { put live [(rBbStCfg 2, 4 * 2 ^ 12), (rBbStKey 2, 1000)] with
    bb := { chmap := ((List.range 4).map (fun i => (i, BitVec.ofNat 64 ([0x10000, 3 * 2 ^ 32 + 0x10002, 0x40004, 0x20008].getD i 0))))
            cap := [(2, { runWritten := true, lastKey := last, prevTag := prev, values := vals })] } }

/-- Frame data of spec/12's table. -/
def capData (c1 c2 c3 : Nat) : List Byte := leBytes 2 0x100 ++ leBytes 2 c1 ++ leBytes 4 c2 ++ leBytes 4 c3

theorem test_key_record :
    (frameRecords (capState [] 0 none) 2 5000 3 (capData 500 0xFD 70000) false).1
      = [([0x02, 0x03, 0x04, 0, 0, 0, 0, 0, 0x00, 0x88, 0x13, 0, 0, 0, 0, 0, 0x00, 0x01, 0xF4, 0x01, 0xFD, 0x70, 0x11, 0x01] : List Byte)
        ++ zeros 8] := by
  decide

theorem test_chg_record :
    (frameRecords (capState [(0, 0x100), (1, 500), (2, 0xFD), (3, 70000)] (5000 * 256) (some 5000)) 2 5001 3
        (capData 502 0xFD 70001) false).1
      = [[0x03, 0x03, 0x01, 0, 0x00, 0x01, 0, 0, 0x03, 0x00, 0x71, 0x11, 0x01, 0, 0, 0]]
      ∧ (frameRecords (capState [(0, 0x100), (1, 500), (2, 0xFD), (3, 70001)] (5001 * 256) (some 5000)) 2 5004 3
        (capData 504 0xFE 70001) false).1
      = [[0x03, 0x03, 0x02, 0, 0x00, 0x03, 0, 0, 0x01, 0x00, 0xF8, 0x01, 0x02, 0x00, 0xFE, 0]] := by decide

/-- A 3-fine-unit offset at 40 MHz: OFS2 6 and DLY2 2,400 at A (spec/14). -/
theorem test_time_check :
    (let u := timeMeasured (put live [(rKwTcLimit, 4)]) 0 256001213 256000010 256006197 256005000
     (reg u (rKwTcOfs2 0), reg u (rKwTcDly2 0), regBit u (rKwPortStatus 0) 27)) = (6#32, 2400#32, false) := by decide

set_option maxRecDepth 8192 in
/-- A warp-heavy image under a low cap: floor 166,210 mW (spec/16). -/
theorem test_power_floor :
    powerFloor
      { put live ([(rTbFrameCfg, 1), (rTbTickCfg, 40000 * 65536 + 6), (rPmBase, 18000)]
          ++ (List.range 6).map (fun g => (rBmGroupCfg g, 4)) ++ (List.range 96).map (fun i => (rBmLaneCfg i, 0x80000000))
          ++ (List.range 16).map (fun n => (rBbStRsv n, 9375)) ++ (List.range 16).map (fun n => (rBmStreamCfg n, 0x80000000)))
        with image := some { imageOf [] with streams := List.replicate 16 { en := true } } } 120000 = 166210 := by decide

end Tests
end

section
/-! SUPPORT. Fields of registers bit by bit (spec/00 R8): a write of one field leaves every field apart from it as it was. -/

namespace Sys2Proof.Machine

variable {s u : State} {w : Word} {a b hi lo hi' lo' n m v : Nat} {x : Bool}

/-- The bits of a number in which a field has been replaced. -/
theorem testBit_setFldN {w i : Nat} (h : lo ≤ hi) :
    (setFldN w hi lo v).testBit i = if i < lo ∨ hi < i then w.testBit i else v.testBit (i - lo) := by
  have hlow : w % 2 ^ lo < 2 ^ lo := Nat.mod_lt _ (Nat.two_pow_pos _)
  have hp : 2 ^ (hi + 1) = 2 ^ lo * 2 ^ (hi + 1 - lo) := by rw [← Nat.pow_add]; congr 1; omega
  have hform : setFldN w hi lo v
      = 2 ^ lo * (2 ^ (hi + 1 - lo) * (w / 2 ^ (hi + 1)) + v % 2 ^ (hi + 1 - lo)) + w % 2 ^ lo := by
    rw [setFldN, hp, Nat.mul_add, Nat.mul_comm (w / _), ← Nat.mul_assoc, Nat.mul_comm (v % _) (2 ^ lo)]
    omega
  rw [hform, Nat.testBit_two_pow_mul_add _ hlow, Nat.testBit_two_pow_mul_add _ (Nat.mod_lt _ (Nat.two_pow_pos _))]
  by_cases h1 : i < lo
  · simp [h1]
  · by_cases h2 : hi < i
    · simp only [h1, h2, or_true, if_true, if_false, show ¬ i - lo < hi + 1 - lo by omega, Nat.testBit_div_two_pow]
      congr 1
      omega
    · simp [h1, h2, show i - lo < hi + 1 - lo by omega]

/-- The bits of a field. -/
theorem testBit_fld {w i : Nat} : (fld w hi lo).testBit i = (decide (i < hi + 1 - lo) && w.testBit (i + lo)) := by
  rw [fld, Nat.testBit_mod_two_pow, Nat.testBit_div_two_pow]

/-- A bit is the field that holds it alone. -/
theorem wbit_eq_wfld : wbit w n = (wfld w n n == 1) := by simp [wbit, wfld, bitN, fld]

/-- A field that does not overlap the field written reads as before. -/
theorem wfld_setFld_apart (h : lo ≤ hi) (hd : hi' < lo ∨ hi < lo') :
    wfld (setFld w hi lo v) hi' lo' = wfld w hi' lo' := by
  apply Nat.eq_of_testBit_eq
  intro i
  unfold wfld setFld
  rw [testBit_fld, testBit_fld, BitVec.toNat_ofNat, Nat.testBit_mod_two_pow, testBit_setFldN h]
  by_cases hi1 : i < hi' + 1 - lo'
  · rw [if_pos (by omega)]
    by_cases h32 : i + lo' < 32
    · simp [h32]
    · have hw : w.toNat.testBit (i + lo') = false :=
        Nat.testBit_lt_two_pow (Nat.lt_of_lt_of_le w.isLt (Nat.pow_le_pow_right (by omega) (by omega)))
      simp [hw]
  · simp [hi1]

/-! ### Registers -/

/-- A register is read from the register file alone. -/
theorem reg_of_regs (h : u.regs = s.regs) : reg u a = reg s a := by rw [reg, h, reg]

/-- The fields of a register are those of its word. -/
theorem regF_congr (h : reg u a = reg s a) : regF u a hi lo = regF s a hi lo := by rw [regF, h, regF]

theorem regBit_congr (h : reg u a = reg s a) : regBit u a n = regBit s a n := by rw [regBit, h, regBit]

theorem reg64_congr (h : reg u a = reg s a) (h' : reg u (a + 4) = reg s (a + 4)) : reg64 u a = reg64 s a := by
  rw [reg64, h, h', reg64]

theorem regBit_eq_regF : regBit s a n = (regF s a n n == 1) := wbit_eq_wfld

theorem regF_setF_apart (hs : swf regReset s.regs = true) (h : lo ≤ hi) (hd : hi' < lo ∨ hi < lo') :
    regF (setF s a hi lo v) a hi' lo' = regF s a hi' lo' := by
  rw [regF, setF, reg_setReg_same hs, wfld_setFld_apart h hd, regF]

theorem regBit_setF_apart (hs : swf regReset s.regs = true) (h : lo ≤ hi) (hd : n < lo ∨ hi < n) :
    regBit (setF s a hi lo v) a n = regBit s a n := by
  rw [regBit_eq_regF, regBit_eq_regF, regF_setF_apart hs h hd]

theorem regF_setRegBit_apart (hs : swf regReset s.regs = true) (hd : hi < n ∨ n < lo) :
    regF (setRegBit s a n x) a hi lo = regF s a hi lo := regF_setF_apart hs (Nat.le_refl n) hd

theorem regBit_setRegBit_ne (hs : swf regReset s.regs = true) (hn : m ≠ n) :
    regBit (setRegBit s a n x) a m = regBit s a m := regBit_setF_apart hs (Nat.le_refl n) (by omega)

/-- A bit of a register reads back. -/
theorem regBit_setRegBit_same (hs : swf regReset s.regs = true) (hn : n < 32) : regBit (setRegBit s a n x) a n = x := by
  rw [regBit_eq_regF, setRegBit, regF_setF hs (Nat.le_refl n) hn]
  cases x <;> simp [b2n]

/-- A register reads back a number modulo 2^32. -/
theorem toNat_reg_setRegN (hs : swf regReset s.regs = true) : (reg (setRegN s a v) a).toNat = v % 2 ^ 32 := by
  rw [setRegN, reg_setReg_same hs, BitVec.toNat_ofNat]

theorem reg_setRegN_ne (h : b ≠ a) : reg (setRegN s a v) b = reg s b := reg_setReg_ne h

theorem swf_setF (hs : swf regReset s.regs = true) : swf regReset (setF s a hi lo v).regs = true := swf_setReg hs

theorem swf_setReg64 (hs : swf regReset s.regs = true) : swf regReset (setReg64 s a v).regs = true :=
  swf_setReg (swf_setReg hs)

end Sys2Proof.Machine
end

section
/-! SUPPORT. What a raise touches (spec/00 R16, spec/18 R518, R519): the registers of its subsystem's fault record, the log,
the host's vector, and the fine counter. -/

namespace Sys2Proof.Machine

variable {s : State} {cause source detail a b v : Nat}

/-- The registers that a raise of `cause` can write: the overflow count of the log, the first-fault details, the word of
pending vectors, and the FAULT register with its tag. -/
def raiseRegs (cause : Nat) : List Nat :=
  [rObLogOvw, rBbFaultDetail, rKwFaultDetail, rMsixPba ((0x10 + cause / 256) / 32)]
    ++ match faultBit cause with
      | some (a, _) => [a, faultTagOf a, faultTagOf a + 4]
      | none => []

theorem reg_msix (h : b ≠ rMsixPba (v / 32)) : reg (msix s v) b = reg s b := by
  unfold msix
  split
  · rfl
  · split
    · exact reg_setRegBit_ne h
    · rfl

theorem reg_faultDetail (h : b ≠ rBbFaultDetail) (h' : b ≠ rKwFaultDetail) :
    reg (faultDetail s cause source) b = reg s b := by
  unfold faultDetail
  split
  · split <;> exact reg_setRegN_ne h
  · split
    · exact reg_setRegN_ne h'
    · rfl

theorem reg_logRaise (h : b ≠ rObLogOvw) : reg (logRaise s cause source detail) b = reg s b := by
  unfold logRaise
  split
  · split
    · rfl
    · dsimp only
      split
      · exact reg_countUp_ne h
      · rfl
  · rfl

/-- A raise changes no register outside its fault record. -/
theorem reg_raise (h : b ∉ raiseRegs cause) : reg (raise s cause source detail) b = reg s b := by
  simp only [raiseRegs, List.mem_append, List.mem_cons, List.not_mem_nil, or_false, not_or] at h
  obtain ⟨⟨hov, hbb, hkw, hpba⟩, hfault⟩ := h
  have hlog : reg (logRaise s cause source detail) b = reg s b := reg_logRaise hov
  unfold raise
  dsimp only
  cases hf : faultBit cause with
  | none => exact hlog
  | some ab =>
    obtain ⟨a, n⟩ := ab
    simp only [hf, List.mem_cons, List.not_mem_nil, or_false, not_or] at hfault
    obtain ⟨ha, ht, ht'⟩ := hfault
    have hfirst : ∀ t, reg (setRegBit (if reg t a = 0 then
        faultDetail (setReg64 t (faultTagOf a) (nowTag t)) cause source else t) a n true) b = reg t b := by
      intro t
      rw [reg_setRegBit_ne ha]
      split
      · rw [reg_faultDetail hbb hkw, reg_setReg64_ne ht ht']
      · rfl
    show reg (setFaultBit (logRaise s cause source detail) cause source a n) b = _
    unfold setFaultBit
    dsimp only
    split
    · rw [hfirst, hlog]
    · rw [reg_msix hpba, hfirst, hlog]

theorem msix_eq : ∃ regs cx, msix s v = { s with regs := regs, cx := cx } := by
  unfold msix
  repeat' split
  · exact ⟨s.regs, s.cx, rfl⟩
  · exact ⟨_, s.cx, rfl⟩
  · exact ⟨s.regs, _, rfl⟩

theorem faultDetail_eq : ∃ regs, faultDetail s cause source = { s with regs := regs } := by
  unfold faultDetail
  repeat' split
  · exact ⟨_, rfl⟩
  · exact ⟨_, rfl⟩
  · exact ⟨_, rfl⟩
  · exact ⟨s.regs, rfl⟩

theorem setFaultBit_eq : ∃ regs cx, setFaultBit s cause source a b = { s with regs := regs, cx := cx } := by
  have hfirst : ∃ regs, (if reg s a = 0 then faultDetail (setReg64 s (faultTagOf a) (nowTag s)) cause source else s)
      = { s with regs := regs } := by
    split
    · obtain ⟨regs, h⟩ := faultDetail_eq (s := setReg64 s (faultTagOf a) (nowTag s)) (cause := cause) (source := source)
      exact ⟨regs, h⟩
    · exact ⟨s.regs, rfl⟩
  obtain ⟨regs, hfirst⟩ := hfirst
  unfold setFaultBit
  dsimp only
  rw [hfirst]
  split
  · exact ⟨_, s.cx, rfl⟩
  · exact msix_eq

theorem logRaise_eq : ∃ regs ob, logRaise s cause source detail = { s with regs := regs, ob := ob } := by
  unfold logRaise
  dsimp only
  repeat' split
  · exact ⟨s.regs, _, rfl⟩
  · exact ⟨_, _, rfl⟩
  · exact ⟨s.regs, _, rfl⟩
  · exact ⟨s.regs, _, rfl⟩

/-- What a raise can change: registers, log, host interface, and the fine counter. -/
theorem raise_eq : ∃ regs ob cx shown fine, raise s cause source detail
    = { s with regs := regs, ob := ob, cx := cx, tb := { s.tb with shown := shown, fineCtr := fine } } := by
  obtain ⟨regs, ob, hlog⟩ := logRaise_eq (s := s) (cause := cause) (source := source) (detail := detail)
  unfold raise
  dsimp only
  rw [hlog]
  split
  · rename_i a b _
    obtain ⟨regs', cx, hset⟩ := setFaultBit_eq (s := { s with regs := regs, ob := ob }) (cause := cause)
      (source := source) (a := a) (b := b)
    rw [hset]
    exact ⟨regs', ob, cx, _, _, rfl⟩
  · exact ⟨regs, ob, s.cx, _, _, rfl⟩

end Sys2Proof.Machine
end

section
/-! SUPPORT. Corollaries of what a raise touches, and the canonical form along a chain of operations. -/

namespace Sys2Proof.Machine

variable {s : State} {cause source detail : Nat}

@[simp] theorem raise_rest :
    (raise s cause source detail).image = s.image ∧ (raise s cause source detail).marks = s.marks
      ∧ (raise s cause source detail).rd = s.rd ∧ (raise s cause source detail).tb.tick = s.tb.tick
      ∧ (raise s cause source detail).tb.lapse = s.tb.lapse := by
  obtain ⟨regs, ob, cx, shown, fine, h⟩ := raise_eq (s := s) (cause := cause) (source := source) (detail := detail)
  rw [h]
  exact ⟨rfl, rfl, rfl, rfl, rfl⟩

theorem raise_log : (raise s cause source detail).ob.log = (logRaise s cause source detail).ob.log := by
  unfold raise
  split <;> simp

/-- The entry that was newest before a raise of another cause is one of the newest two after it. -/
theorem raise_keeps_newest {p : LogEntry → Bool} {e : LogEntry} (h : s.ob.log.head? = some e) (he : p e = true)
    (hc : e.cause ≠ cause) : ((raise s cause source detail).ob.log.take 2).any p = true := by
  obtain ⟨es, hlog⟩ : ∃ es, s.ob.log = e :: es := by
    cases hl : s.ob.log <;> simp_all
  rw [raise_log, logRaise_log, hlog]
  simp [hc, he]

/-- The queue and the canonical form are watched, and nothing else. -/
def canonWatch (s : State) : Watch where
  queue := s.pending
  canon := True
  fuse _ := True
  mem _ := True
  ts _ := True
  flash _ := True
  image _ := True
  sreg _ := True
  preg _ := True
  vreg _ := True
  xa _ := True
  pick _ := True

theorem Canonical.good (h : Canonical s) : Good (canonWatch s) s :=
  ⟨rfl, fun _ => h, trivial, trivial, trivial, trivial, trivial, trivial, trivial, trivial, trivial, trivial⟩

theorem Good.canonical {u : State} (h : Good (canonWatch s) u) : Canonical u := by
  obtain ⟨_, hc, _⟩ := h
  exact hc trivial

theorem Canonical.regs (h : Canonical s) : swf regReset s.regs = true := And.left h

theorem Canonical.marks (h : Canonical s) : swf dMark s.marks = true := by
  obtain ⟨_, _, _, _, _, _, hm, _⟩ := h
  exact hm

theorem swf_raise (h : Canonical s) : swf regReset (raise s cause source detail).regs = true :=
  (raise_good h.good).canonical.regs

end Sys2Proof.Machine
end

section
/-! SUPPORT. What the operations of Timebase do (spec/02): the state of tick lock, the frame period, and a tick edge at a
frame-period boundary. -/

namespace Sys2Proof.Machine

variable {s u : State} {v a t : Nat}

/-! ### TB_STATUS and TB_CTRL -/

theorem tbState_congr (h : reg u rTbStatus = reg s rTbStatus) : tbState u = tbState s := regF_congr h

theorem tbState_setTbState (h : Canonical s) (hv : v < 8) : tbState (setTbState s v) = v := by
  rw [tbState, setTbState, regF_setF h.regs (by omega) (by omega)]
  omega

theorem tbState_raise {cause source detail : Nat} (h : rTbStatus ∉ raiseRegs cause) :
    tbState (raise s cause source detail) = tbState s := tbState_congr (reg_raise h)

/-! ### Frame periods -/

theorem tbM_congr (h : reg u rTbFrameCfg = reg s rTbFrameCfg) : tbM u = tbM s := by rw [tbM, regF_congr h, tbM]

theorem tbSlot_congr (h : reg u rTbFrameCfg = reg s rTbFrameCfg) : tbSlot u = tbSlot s := regF_congr h

theorem periodStart_congr (h : reg u rTbFrameCfg = reg s rTbFrameCfg) : periodStart u t = periodStart s t := by
  rw [periodStart, tbSlot_congr h, tbM_congr h, periodStart]

/-- The frames of a frame period depend on TB_FRAME_CFG and on the lags of the loaded image alone. -/
theorem framesInNetwork_congr (h : reg u rTbFrameCfg = reg s rTbFrameCfg) (hi : u.image = s.image) :
    framesInNetwork u t = framesInNetwork s t := by
  have hl : imageL u = imageL s := by rw [imageL, hi, imageL]
  have hd : imageDelta u = imageDelta s := by rw [imageDelta, hi, imageDelta]
  rw [framesInNetwork, hl, hd, tbSlot_congr h, tbM_congr h, framesInNetwork]

theorem mem_framesInNetwork {k : Nat} (hk : k < imageL s) (ht : tbSlot s + (imageDelta s + k) * tbM s ≤ t) :
    t - (imageDelta s + k) * tbM s ∈ framesInNetwork s t :=
  List.mem_filterMap.2 ⟨k, List.mem_range.2 hk, if_pos ht⟩

/-! ### Marks -/

theorem bitN_eq_testBit {w n : Nat} : bitN w n = w.testBit n := by
  rw [Nat.testBit_eq_decide_div_mod_eq, bitN]
  exact Bool.beq_eq_decide_eq _ _

theorem markFrame_rest {f bits : Nat} :
    (markFrame s f bits).tb = s.tb ∧ (markFrame s f bits).ob = s.ob := by
  unfold markFrame
  dsimp only
  split <;> exact ⟨rfl, rfl⟩

theorem reg_markFrame {f bits : Nat} (h : a ≠ rWpMarkedCnt) : reg (markFrame s f bits) a = reg s a := by
  unfold markFrame
  dsimp only
  split
  · exact (reg_of_regs (s := countUp s rWpMarkedCnt 1) rfl).trans (reg_countUp_ne h)
  · rfl

/-- A frame is marked OVERRUN by its own mark, and keeps the bit through the marks of others. -/
theorem frameMark_markFrame_overrun (h : Canonical s) {f g : Nat} :
    bitN (frameMark (markFrame s f 1) g).mark 0 = (decide (g = f) || bitN (frameMark s g).mark 0) := by
  have hm : (markFrame s f 1).marks
      = sset dMark f { frameMark s f with mark := (frameMark s f).mark ||| 1 } s.marks := by
    unfold markFrame
    dsimp only
    split <;> rfl
  rw [frameMark, hm, sget_sset h.marks]
  by_cases hg : g = f
  · simp [hg, bitN_eq_testBit]
  · simp [hg, frameMark]

/-- A fold whose every step keeps `f` keeps it. -/
theorem foldl_keeps {β γ : Type} {f : State → γ} {g : State → β → State} (h : ∀ s x, f (g s x) = f s)
    {l : List β} :
    f (l.foldl g s) = f s := by
  induction l generalizing s with
  | nil => rfl
  | cons x l ih => exact ih.trans (h s x)

theorem foldl_markFrame_overrun (h : Canonical s) {l : List Nat} {f : Nat}
    (hf : f ∈ l ∨ bitN (frameMark s f).mark 0 = true) :
    bitN (frameMark (l.foldl (fun s f => markFrame s f 1) s) f).mark 0 = true := by
  induction l generalizing s with
  | nil => simpa using hf
  | cons g l ih =>
    refine ih (markFrame_good h.good).canonical ?_
    rw [frameMark_markFrame_overrun h]
    rcases hf with hf | hf
    · rcases List.mem_cons.1 hf with rfl | hf
      · simp
      · exact .inl hf
    · simp [hf]

/-! ### Tick overrun and the end of a frame period -/

/-- The state in which the frames of an overrun are marked: cause and count. -/
def overrunCounted (s : State) : State := countUp (raise s 0x0906 noSource 0) rTbOverrunCnt 1

/-- The frames whose networks run in the frame period that now ends. -/
def overrunFrames (s : State) : List Nat :=
  match periodStart s s.tb.tick with
  | some t => framesInNetwork s t
  | none => []

theorem reg_overrunCounted (h : a ∉ raiseRegs 0x0906) (h' : a ≠ rTbOverrunCnt) : reg (overrunCounted s) a = reg s a :=
  (reg_countUp_ne h').trans (reg_raise h)

theorem overrunCounted_canonical (h : Canonical s) : Canonical (overrunCounted s) :=
  (countUp_good (raise_good h.good)).canonical

theorem tickOverrun_eq :
    tickOverrun s = (overrunFrames s).foldl (fun s f => markFrame s f 1) (overrunCounted s) := by
  have hreg : reg (overrunCounted s) rTbFrameCfg = reg s rTbFrameCfg := reg_overrunCounted (by decide) (by decide)
  have htick : (overrunCounted s).tb.tick = s.tb.tick := by simp [overrunCounted]
  have himage : (overrunCounted s).image = s.image := by simp [overrunCounted]
  show (match periodStart (overrunCounted s) (overrunCounted s).tb.tick with
    | some t => (framesInNetwork (overrunCounted s) t).foldl (fun s f => markFrame s f 1) (overrunCounted s)
    | none => overrunCounted s) = _
  rw [htick, periodStart_congr hreg, overrunFrames]
  cases periodStart s s.tb.tick with
  | none => rfl
  | some t => simp only [framesInNetwork_congr hreg himage]

theorem tickOverrun_rest :
    (tickOverrun s).tb = (overrunCounted s).tb ∧ (tickOverrun s).ob = (overrunCounted s).ob := by
  rw [tickOverrun_eq]
  exact ⟨foldl_keeps (f := State.tb) fun _ _ => markFrame_rest.1, foldl_keeps (f := State.ob) fun _ _ => markFrame_rest.2⟩

theorem reg_tickOverrun (h : a ≠ rWpMarkedCnt) : reg (tickOverrun s) a = reg (overrunCounted s) a := by
  rw [tickOverrun_eq]
  exact foldl_keeps (f := (reg · a)) fun _ _ => reg_markFrame h

theorem cutFlits_rest :
    (cutFlits s).marks = s.marks ∧ (cutFlits s).tb.tick = s.tb.tick ∧ (cutFlits s).tb.lapse = s.tb.lapse := by
  unfold cutFlits dropped
  split
  · exact ⟨rfl, rfl, rfl⟩
  · simp

theorem reg_cutFlits (h : a ∉ raiseRegs 0x0407) (h' : a ≠ rRdDropCnt) : reg (cutFlits s) a = reg s a := by
  unfold cutFlits dropped
  split
  · rfl
  · refine (reg_of_regs (s := countUp (raise s 0x0407 noSource 0) rRdDropCnt _) rfl).trans ?_
    exact (reg_countUp_ne h').trans (reg_raise h)

theorem cutFlits_keeps_newest {p : LogEntry → Bool} {e : LogEntry} (h : s.ob.log.head? = some e) (he : p e = true)
    (hc : e.cause ≠ 0x0407) : ((cutFlits s).ob.log.take 2).any p = true := by
  unfold cutFlits dropped
  split
  · cases hl : s.ob.log <;> simp_all
  · simpa using raise_keeps_newest h he hc

end Sys2Proof.Machine
end

section
/-! SUPPORT. The end of a frame period and the tick edge at it (spec/02 R43, R47, R48). -/

namespace Sys2Proof.Machine

variable {s u : State} {a t : Nat}

/-! ### The end of a frame period that overran -/

theorem periodEnd_overrun (hq : 4 * tbSelvage s < s.tb.q) :
    periodEnd s = (let p := cutFlits (tickOverrun s)
      { setRegN p rTbStretchMax (max s.tb.q (reg p rTbStretchMax).toNat) with tb := { p.tb with q := 0 } }) := by
  unfold periodEnd
  dsimp only
  rw [if_pos hq]
  rfl

theorem periodEnd_overrun_tb (hq : 4 * tbSelvage s < s.tb.q) :
    (periodEnd s).tb.q = 0 ∧ (periodEnd s).tb.tick = s.tb.tick ∧ (periodEnd s).tb.lapse = s.tb.lapse := by
  obtain ⟨-, htick, hlapse⟩ := cutFlits_rest (s := tickOverrun s)
  obtain ⟨htb, -⟩ := tickOverrun_rest (s := s)
  rw [periodEnd_overrun hq]
  refine ⟨rfl, htick.trans ?_, hlapse.trans ?_⟩ <;> simp [htb, overrunCounted]

/-- A register that neither the raises nor the counters of a boundary write stays. -/
theorem reg_cutFlits_tickOverrun (h : a ∉ raiseRegs 0x0407 ++ [rRdDropCnt, rWpMarkedCnt]) :
    reg (cutFlits (tickOverrun s)) a = reg (overrunCounted s) a := by
  simp only [List.mem_append, List.mem_cons, List.not_mem_nil, or_false, not_or] at h
  obtain ⟨hr, hd, hm⟩ := h
  exact (reg_cutFlits hr hd).trans (reg_tickOverrun hm)

theorem periodEnd_counted (h : Canonical s) (hq : 4 * tbSelvage s < s.tb.q) :
    Counted s (periodEnd s) rTbOverrunCnt 1 := by
  have hreg : reg (periodEnd s) rTbOverrunCnt = reg (overrunCounted s) rTbOverrunCnt := by
    rw [periodEnd_overrun hq]
    exact (reg_setRegN_ne (by decide)).trans (reg_cutFlits_tickOverrun (by decide))
  unfold Counted
  rw [hreg, overrunCounted, reg_countUp (swf_raise h), reg_raise (by decide)]

theorem periodEnd_stretchMax (h : Canonical s) (hq : 4 * tbSelvage s < s.tb.q) :
    (reg (periodEnd s) rTbStretchMax).toNat = max s.tb.q (reg s rTbStretchMax).toNat % 2 ^ 32 := by
  have hcanon : Canonical (cutFlits (tickOverrun s)) := (cutFlits_good (tickOverrun_good h.good)).canonical
  have hreg : reg (cutFlits (tickOverrun s)) rTbStretchMax = reg s rTbStretchMax :=
    (reg_cutFlits_tickOverrun (by decide)).trans (reg_overrunCounted (by decide) (by decide))
  rw [periodEnd_overrun hq]
  exact (toNat_reg_setRegN hcanon.regs).trans (by rw [hreg])

theorem periodEnd_log (hq : 4 * tbSelvage s < s.tb.q) :
    ((periodEnd s).ob.log.take 2).any (fun l => l.cause == 0x0906) = true := by
  obtain ⟨l, hl, hc, -⟩ := raised_raise (s := s) (cause := 0x0906) (source := noSource) (detail := 0)
  obtain ⟨-, hob⟩ := tickOverrun_rest (s := s)
  rw [periodEnd_overrun hq]
  refine cutFlits_keeps_newest (e := l) ?_ (by simp [hc]) (by rw [hc]; decide)
  rw [hob]
  simpa [overrunCounted] using hl

theorem periodEnd_marks (h : Canonical s) (hq : 4 * tbSelvage s < s.tb.q) (ht : periodStart s s.tb.tick = some t) {f : Nat}
    (hf : f ∈ framesInNetwork s t) : bitN (frameMark (periodEnd s) f).mark 0 = true := by
  have hmarks : (periodEnd s).marks = (tickOverrun s).marks := by
    rw [periodEnd_overrun hq]
    exact cutFlits_rest.1
  have hframes : overrunFrames s = framesInNetwork s t := by rw [overrunFrames, ht]
  rw [frameMark, hmarks, tickOverrun_eq, hframes]
  exact foldl_markFrame_overrun (overrunCounted_canonical h) (.inl hf)

/-! ### A tick edge at a frame-period boundary -/

/-- The registers that a tick edge writes besides the end of the period: the slot tables, and the snapshot it latches. -/
def edgeRegs : List Nat := [rRdStatus, rSnTag, rSnTag + 4, rSnStatus]

theorem tickTimers_rest : (tickTimers s).tb = s.tb ∧ (tickTimers s).ob = s.ob ∧ (tickTimers s).marks = s.marks
    ∧ (tickTimers s).regs = s.regs := by
  have h : ((tickTimers s).tb, (tickTimers s).ob, (tickTimers s).marks, (tickTimers s).regs)
      = (s.tb, s.ob, s.marks, s.regs) :=
    foldl_keeps (f := fun s => (s.tb, s.ob, s.marks, s.regs)) fun s _ => by split <;> simp
  simpa only [Prod.mk.injEq] using h

theorem snapOutFalls_rest : (snapOutFalls s).tb = s.tb ∧ (snapOutFalls s).ob.log = s.ob.log
    ∧ (snapOutFalls s).marks = s.marks ∧ (snapOutFalls s).regs = s.regs := by
  unfold snapOutFalls
  repeat' split
  all_goals exact ⟨rfl, rfl, rfl, rfl⟩

theorem snapLatch_rest : (snapLatch s).tb = s.tb ∧ (snapLatch s).ob.log = s.ob.log ∧ (snapLatch s).marks = s.marks := by
  unfold snapLatch
  repeat' split
  all_goals exact ⟨rfl, rfl, rfl⟩

theorem reg_latchBanks {tag : Nat} (h : a ∉ edgeRegs) : reg (latchBanks s tag) a = reg s a := by
  simp only [edgeRegs, List.mem_cons, List.not_mem_nil, or_false, not_or] at h
  obtain ⟨-, htag, htag', hst⟩ := h
  unfold latchBanks
  dsimp only
  rw [reg_setRegBit_ne hst, reg_setRegBit_ne hst, reg_setReg64_ne htag htag']
  exact reg_of_regs rfl

theorem reg_snapLatch (h : a ∉ edgeRegs) : reg (snapLatch s) a = reg s a := by
  unfold snapLatch
  split
  · rfl
  · next t _ =>
    split
    · rfl
    · dsimp only
      rw [reg_of_regs (s := latchBanks s (t * 256))]
      · exact reg_latchBanks h
      · rfl

/-- The tick count at the edge that begins a frame period. -/
def periodBegun (s : State) (hold : Nat) : State :=
  { s with tb := { s.tb with tick := s.tb.tick + 1, holdTicks := hold, cyc := 0, eighth := 0 } }

/-- What follows the tick count at that edge while the run goes on: the timers, the slot tables, the snapshot. -/
def boundarySettled (s : State) : State := snapLatch (snapOutFalls (setRegBit (tickTimers s) rRdStatus 16 true))

theorem boundarySettled_rest : (boundarySettled s).tb = s.tb ∧ (boundarySettled s).ob.log = s.ob.log
    ∧ (boundarySettled s).marks = s.marks := by
  obtain ⟨htb, hob, hmarks, -⟩ := tickTimers_rest (s := s)
  obtain ⟨htb', hlog', hmarks', -⟩ := snapOutFalls_rest (s := setRegBit (tickTimers s) rRdStatus 16 true)
  obtain ⟨htb'', hlog'', hmarks''⟩ := snapLatch_rest (s := snapOutFalls (setRegBit (tickTimers s) rRdStatus 16 true))
  unfold boundarySettled
  refine ⟨?_, ?_, ?_⟩
  · simp [htb'', htb', htb]
  · simp [hlog'', hlog', hob]
  · simp [hmarks'', hmarks', hmarks]

theorem reg_boundarySettled (h : a ∉ edgeRegs) : reg (boundarySettled s) a = reg s a := by
  obtain ⟨-, -, -, hregs⟩ := tickTimers_rest (s := s)
  obtain ⟨-, -, -, hregs'⟩ := snapOutFalls_rest (s := setRegBit (tickTimers s) rRdStatus 16 true)
  have hrd : a ≠ rRdStatus := fun ha => h (by simp [edgeRegs, ha])
  calc reg (boundarySettled s) a
      = reg (snapOutFalls (setRegBit (tickTimers s) rRdStatus 16 true)) a := reg_snapLatch h
    _ = reg (setRegBit (tickTimers s) rRdStatus 16 true) a := reg_of_regs hregs'
    _ = reg (tickTimers s) a := reg_setRegBit_ne hrd
    _ = reg s a := reg_of_regs hregs

/-- At a frame-period boundary of a run that goes on, the period ends and the tick advances. -/
theorem tickEdge_boundary (hb : lastTick s = true) (hl : (periodEnd s).tb.lapse = false) :
    ∃ hold, tickEdge s = boundarySettled (periodBegun (periodEnd s) hold) := by
  refine ⟨if tbState (periodEnd s) == stHoldover then (periodEnd s).tb.holdTicks + 1 else (periodEnd s).tb.holdTicks, ?_⟩
  unfold tickEdge
  rw [hb]
  simp only [if_true, Bool.true_and]
  rw [if_neg]
  · rfl
  · rw [snapOutFalls_rest.1]
    simp [tickTimers_rest.1, hl]

/-- A tick overrun at a frame-period boundary (R48): the count, the largest q, the cause, and the marks of the frames in the
network; the next frame period begins on time. -/
theorem tickEdge_overrun (h : Canonical s) (hb : lastTick s = true) (hl : s.tb.lapse = false)
    (hq : 4 * tbSelvage s < s.tb.q) :
    Counted s (tickEdge s) rTbOverrunCnt 1 ∧ (tickEdge s).tb.q = 0 ∧ (tickEdge s).tb.tick = s.tb.tick + 1
      ∧ (tickEdge s).tb.cyc = 0 ∧ (tickEdge s).tb.eighth = 0
      ∧ (reg (tickEdge s) rTbStretchMax).toNat = max s.tb.q (reg s rTbStretchMax).toNat % 2 ^ 32
      ∧ ((tickEdge s).ob.log.take 2).any (fun l => l.cause == 0x0906) = true
      ∧ ∀ t, periodStart s s.tb.tick = some t → ∀ f ∈ framesInNetwork s t,
        bitN (frameMark (tickEdge s) f).mark 0 = true := by
  obtain ⟨hq0, htick, hlapse⟩ := periodEnd_overrun_tb hq
  obtain ⟨hold, he⟩ := tickEdge_boundary hb (hlapse.trans hl)
  obtain ⟨htb, hlog, hmarks⟩ := boundarySettled_rest (s := periodBegun (periodEnd s) hold)
  have hreg : ∀ a ∉ edgeRegs, reg (tickEdge s) a = reg (periodEnd s) a := by
    intro a ha
    rw [he]
    exact reg_boundarySettled ha
  refine ⟨?_, ?_, ?_, ?_, ?_, ?_, ?_, fun t ht f hf => ?_⟩
  · rw [Counted, hreg _ (by decide)]
    exact periodEnd_counted h hq
  · rw [he, htb]
    exact hq0
  · rw [he, htb]
    exact congrArg (· + 1) htick
  · rw [he, htb]
    rfl
  · rw [he, htb]
    rfl
  · rw [hreg _ (by decide)]
    exact periodEnd_stretchMax h hq
  · rw [he, hlog]
    exact periodEnd_log hq
  · rw [frameMark, he, hmarks]
    exact periodEnd_marks h hq ht hf

end Sys2Proof.Machine
end

section
/-! SUPPORT. Tick lock, AVS and the clocks (spec/02 R35, R36, R46-R51, R54, spec/16 R444): what each command does. -/

namespace Sys2Proof.Machine

variable {s : State}

/-! ### Tick lock -/

/-- The tick configuration that host software declared is in range (R35). -/
def TickDeclared (s : State) : Prop :=
  4 ≤ tbN s ∧ tbN s ≤ 500 ∧ 100000 ≤ tbN s * tickKhz s ∧ tbN s * tickKhz s ≤ 250000

theorem tickCfgOk_iff : tickCfgOk s = true ↔ TickDeclared s := by
  simp [tickCfgOk, TickDeclared, and_assoc]

theorem tickDeclared_congr {u : State} (h : reg u rTbTickCfg = reg s rTbTickCfg) : TickDeclared u ↔ TickDeclared s := by
  simp only [TickDeclared, tbN, tickKhz, regF_congr h]

theorem onBlock_released {k : Nat} {f : State → State} (h : released s k = true) : onBlock k s f = f s := if_pos h

/-- LOCK_EN is 1, and nothing else has changed. -/
def lockEnabled (s : State) : State := setRegBit s rTbCtrl 0 true

theorem exec_lockEnSet (hr : released s 9 = true) (hl : s.tb.sysclkLost = false) :
    exec .lockEnSet s = .next (if tbState s ≠ 0 then lockEnabled s
      else if tickCfgOk (lockEnabled s) then setTbState (lockEnabled s) 1 else raise (lockEnabled s) 0x0903 noSource 0) := by
  have hst : tbState (lockEnabled s) = tbState s := tbState_congr (reg_setRegBit_ne (by decide))
  show execLockEnSet s = _
  rw [execLockEnSet, onBlock_released hr, hl, ← hst]
  rfl

theorem lockEnSet_effect (h : Canonical s) (hr : released s 9 = true) (hl : s.tb.sysclkLost = false) :
    ∃ u, exec .lockEnSet s = .next u ∧ regBit u rTbCtrl 0 = true ∧ u.tb.tick = s.tb.tick
      ∧ (tbState s = 0 → TickDeclared s → tbState u = 1 ∧ u.ob = s.ob ∧ u.tb = s.tb)
      ∧ (tbState s = 0 → ¬TickDeclared s → tbState u = 0 ∧ Raised u 0x0903 noSource)
      ∧ (tbState s ≠ 0 → tbState u = tbState s) := by
  have hbit : regBit (lockEnabled s) rTbCtrl 0 = true := regBit_setRegBit_same h.regs (by omega)
  have hst : tbState (lockEnabled s) = tbState s := tbState_congr (reg_setRegBit_ne (by decide))
  have hcfg : tickCfgOk (lockEnabled s) = true ↔ TickDeclared s :=
    tickCfgOk_iff.trans (tickDeclared_congr (reg_setRegBit_ne (by decide)))
  have hcanon : Canonical (lockEnabled s) := (setRegBit_good h.good).canonical
  rw [exec_lockEnSet hr hl]
  refine ⟨_, rfl, ?_⟩
  by_cases h0 : tbState s = 0
  · rw [if_neg (Decidable.not_not.2 h0)]
    by_cases hd : TickDeclared s
    · rw [if_pos (hcfg.2 hd)]
      refine ⟨?_, by simp [lockEnabled], fun _ _ => ⟨tbState_setTbState hcanon (by omega), by simp [lockEnabled],
        by simp [lockEnabled]⟩, fun _ hn => absurd hd hn, fun hn => absurd h0 hn⟩
      exact (regBit_congr (reg_setF_ne (by decide))).trans hbit
    · rw [if_neg fun hc => hd (hcfg.1 hc)]
      refine ⟨(regBit_congr (reg_raise (by decide))).trans hbit, by simp [lockEnabled], fun _ hd' => absurd hd' hd,
        fun _ _ => ⟨?_, raised_raise⟩, fun hn => absurd h0 hn⟩
      rw [tbState_raise (by decide), hst, h0]
  · rw [if_pos h0]
    exact ⟨hbit, by simp [lockEnabled], fun hn => absurd hn h0, fun hn => absurd hn h0, fun _ => hst⟩

theorem reg_lockEnds {st a : Nat} : reg (lockEnds s st) a = reg (setRegBit (setTbState s st) rTbCtrl 1 false) a :=
  reg_of_regs rfl

/-- The end of lock: STATE shows `st`, ARM and its locks are clear, LOCK_EN stays as it was. -/
theorem lockEnds_effect (h : Canonical s) {st : Nat} (hst : st < 8) :
    tbState (lockEnds s st) = st ∧ regBit (lockEnds s st) rTbCtrl 1 = false
      ∧ regBit (lockEnds s st) rTbCtrl 0 = regBit s rTbCtrl 0 := by
  have hset : Canonical (setTbState s st) := (setTbState_good h.good).canonical
  refine ⟨?_, ?_, ?_⟩
  · rw [tbState_congr (reg_lockEnds.trans (reg_setRegBit_ne (by decide))), tbState_setTbState h hst]
  · rw [regBit_congr reg_lockEnds, regBit_setRegBit_same hset.regs (by omega)]
  · rw [regBit_congr reg_lockEnds, regBit_setRegBit_ne hset.regs (by omega), setTbState,
      regBit_congr (reg_setF_ne (by decide))]

theorem exec_lockEnClear (hr : released s 9 = true) (hl : s.tb.sysclkLost = false) (hrun : runActive s = false) :
    exec .lockEnClear s = .next (lockEnds (setRegBit s rTbCtrl 0 false) 0) := by
  have hrun' : ¬runActive (setRegBit s rTbCtrl 0 false) = true := by
    rw [runActive, tbState_congr (reg_setRegBit_ne (by decide)), ← runActive, hrun]
    decide
  show execLockEnClear s = _
  rw [execLockEnClear, onBlock_released hr, hl]
  exact congrArg _ (if_neg hrun')

theorem lockEnClear_effect (h : Canonical s) (hr : released s 9 = true) (hl : s.tb.sysclkLost = false)
    (hrun : runActive s = false) :
    ∃ u, exec .lockEnClear s = .next u ∧ regBit u rTbCtrl 0 = false ∧ regBit u rTbCtrl 1 = false ∧ tbState u = 0
      ∧ u.rwlLock = false ∧ u.tb = s.tb := by
  have hoff : Canonical (setRegBit s rTbCtrl 0 false) := (setRegBit_good h.good).canonical
  obtain ⟨hst, harm, hen⟩ := lockEnds_effect hoff (st := 0) (by omega)
  exact ⟨_, exec_lockEnClear hr hl hrun, hen.trans (regBit_setRegBit_same h.regs (by omega)), harm, hst, rfl, rfl⟩

/-- TICK_LOCKED in LOCKING: a tick more than 0.5 % off the declared one fails, any other locks and starts AVS. -/
theorem exec_tickLocked {hz : Nat} (h1 : tbState s = 1) :
    exec (.tickLocked hz) s = .next (if 200 * hz ≤ 201 * (tickKhz s * 1000) ∧ 199 * (tickKhz s * 1000) ≤ 200 * hz
      then avsStart (setTbState s 2) else raise (setTbState s 7) 0x0902 noSource 0) := by
  show execTickLocked hz s = _
  have hoff : tickKhz s * 1000 < 200 * (if hz < tickKhz s * 1000 then tickKhz s * 1000 - hz else hz - tickKhz s * 1000)
      ↔ ¬(200 * hz ≤ 201 * (tickKhz s * 1000) ∧ 199 * (tickKhz s * 1000) ≤ 200 * hz) := by
    split <;> omega
  unfold execTickLocked
  rw [if_neg (Decidable.not_not.2 h1)]
  simp only [hoff, ite_not]

theorem tickLocked_effect (h : Canonical s) (hz : Nat) (h1 : tbState s = 1) :
    (200 * hz ≤ 201 * (tickKhz s * 1000) ∧ 199 * (tickKhz s * 1000) ≤ 200 * hz →
        ∃ u, exec (.tickLocked hz) s = .next u ∧ tbState u = 2 ∧ regBit u rTbStatus 5 = false ∧ u.ob = s.ob)
      ∧ (201 * (tickKhz s * 1000) < 200 * hz ∨ 200 * hz < 199 * (tickKhz s * 1000) →
        ∃ u, exec (.tickLocked hz) s = .next u ∧ tbState u = 7 ∧ Raised u 0x0902 noSource) := by
  have hlocked : Canonical (setTbState s 2) := (setTbState_good h.good).canonical
  refine ⟨fun hin => ⟨avsStart (setTbState s 2), ?_, ?_, regBit_setRegBit_same hlocked.regs (by omega),
      by simp [avsStart]⟩,
    fun hout => ⟨raise (setTbState s 7) 0x0902 noSource 0, ?_, ?_, raised_raise⟩⟩
  · rw [exec_tickLocked h1, if_pos hin]
  · exact (regF_setRegBit_apart hlocked.regs (by omega)).trans (tbState_setTbState h (by omega))
  · rw [exec_tickLocked h1, if_neg (by omega)]
  · exact (tbState_raise (by decide)).trans (tbState_setTbState h (by omega))

theorem tickLockFail_effect (h : Canonical s) (h1 : tbState s = 1) :
    ∃ u, exec .tickLockFail s = .next u ∧ tbState u = 7 ∧ Raised u 0x0901 noSource := by
  refine ⟨raise (setTbState s 7) 0x0901 noSource 0, ?_, ?_, raised_raise⟩
  · show execTickLockFail s = _
    rw [execTickLockFail, if_neg (Decidable.not_not.2 h1)]
  · exact (tbState_raise (by decide)).trans (tbState_setTbState h (by omega))

theorem weftPllUnlock_effect (h : Canonical s) :
    ∃ u, exec .weftPllUnlock s = .next u ∧ regBit u rTbStatus 4 = false ∧ tbState u = tbState s
      ∧ Raised u 0x090D noSource := by
  refine ⟨raise (setRegBit s rTbStatus 4 false) 0x090D noSource 0, rfl, ?_, ?_, raised_raise⟩
  · exact (regBit_congr (reg_raise (by decide))).trans (regBit_setRegBit_same h.regs (by omega))
  · exact (tbState_raise (by decide)).trans (regF_setRegBit_apart h.regs (by omega))

/-! ### AVS -/

theorem headD_false_iff {ok : List Bool} : ok.headD false = true ↔ ok.head? = some true := by
  cases ok <;> simp

/-- AVS_DONE while AVS runs: with margin at 750 mV the search has a result and AVS is ready; without, 750 mV stands. -/
theorem exec_avsDone {ok : List Bool} (h2 : tbState s = 2) (h5 : regBit s rTbStatus 5 = false) :
    exec (.avsDone ok) s = .next (if ok.head? = some true then
        setRegBit (setF s rPmAvsResult 9 0 (min 750 (avsSearch ok + regF s rPmAvsCfg 15 8))) rTbStatus 5 true
      else raise (setRegN s rPmAvsResult 750) 0x0A05 noSource 0) := by
  show execAvsDone ok s = _
  unfold execAvsDone
  rw [h5, h2]
  simp only [ne_eq, not_true, decide_false, Bool.or_self, Bool.false_eq_true, if_false, Bool.not_eq_true',
    ← headD_false_iff]
  cases ok.headD false <;> rfl

theorem avsDone_effect (h : Canonical s) (ok : List Bool) (h2 : tbState s = 2) (h5 : regBit s rTbStatus 5 = false) :
    (ok.head? = some true → ∃ u, exec (.avsDone ok) s = .next u ∧ regBit u rTbStatus 5 = true ∧ tbState u = 2
        ∧ regF u rPmAvsResult 9 0 = min 750 (avsSearch ok + regF s rPmAvsCfg 15 8) ∧ u.ob = s.ob)
      ∧ (ok.head? ≠ some true → ∃ u, exec (.avsDone ok) s = .next u ∧ regBit u rTbStatus 5 = false
        ∧ regF u rPmAvsResult 9 0 = 750 ∧ Raised u 0x0A05 noSource) := by
  rw [exec_avsDone h2 h5]
  refine ⟨fun hok => ?_, fun hok => ?_⟩
  · rw [if_pos hok]
    have hset : ∀ v, swf regReset (setF s rPmAvsResult 9 0 v).regs = true := fun _ => swf_setF h.regs
    refine ⟨_, rfl, regBit_setRegBit_same (hset _) (by omega), ?_, ?_, by simp⟩
    · exact (regF_setRegBit_apart (hset _) (by omega)).trans ((regF_congr (reg_setF_ne (by decide))).trans h2)
    · rw [regF_congr (reg_setRegBit_ne (by decide)), regF_setF h.regs (by omega) (by omega)]
      omega
  · rw [if_neg hok]
    refine ⟨_, rfl, ?_, ?_, raised_raise⟩
    · exact (regBit_congr (reg_raise (by decide))).trans ((regBit_congr (reg_setRegN_ne (by decide))).trans h5)
    · rw [regF_congr (reg_raise (by decide)), regF, wfld, toNat_reg_setRegN h.regs]
      decide

/-! ### Droop -/

/-- The warp pulse that a droop has asked for is the second from now, and it alone is stretched (R46). -/
theorem warpEdge_stretches_second (h : s.tb.late2 = true) :
    (warpEdge (warpEdge s)).tb.slow = true ∧ (warpEdge (warpEdge (warpEdge s))).tb.slow = false := ⟨h, rfl⟩

/-- A detected droop asks for the warp pulse of a run. -/
def droopNoted (s : State) : State := if runActive s then { s with tb := { s.tb with late2 := true } } else s

/-- The weft pulse `weft` is stretched by a quarter of the period in effect. -/
def weftStretched (s : State) (weft : Nat) : State :=
  setReg64 { s with tb := { s.tb with weftPulse := some weft } } rTbWeftStretchPs
    (reg64 s rTbWeftStretchPs + opPeriod (regF s rTbWeftOp 2 0) / 4)

theorem dieCount_le : dieCount s ≤ 4 := by unfold dieCount; split <;> omega

theorem exec_droopDetected {die mv weft : Nat} (hd : die < dieCount s) :
    exec (.droopDetected die mv weft) s = .next (if mv ≤ 5 * max 1 (regF s rTbDroopCfg 5 0) then s
      else if s.tb.weftPulse = some weft then droopNoted s else applyOpStep (weftStretched (droopNoted s) weft)) := by
  have hpulse : (droopNoted s).tb.weftPulse = s.tb.weftPulse := by unfold droopNoted; split <;> rfl
  show execDroopDetected die mv weft s = _
  rw [execDroopDetected, onUnit_exists hd dieCount_le, ← hpulse]
  rfl

theorem droopNoted_rest : (droopNoted s).regs = s.regs ∧ (droopNoted s).ob = s.ob ∧ (droopNoted s).tb.q = s.tb.q
    ∧ (droopNoted s).tb.weftPulse = s.tb.weftPulse ∧ (runActive s = true → (droopNoted s).tb.late2 = true) := by
  unfold droopNoted
  split
  · exact ⟨rfl, rfl, rfl, rfl, fun _ => rfl⟩
  · exact ⟨rfl, rfl, rfl, rfl, fun hr => by contradiction⟩

theorem applyOpStep_rest : (applyOpStep s).tb = s.tb ∧ (applyOpStep s).ob = s.ob := by
  unfold applyOpStep
  split <;> simp

theorem reg_applyOpStep {a : Nat} (h : a ≠ rTbWeftOp) : reg (applyOpStep s) a = reg s a := by
  unfold applyOpStep
  split
  · exact (reg_setRegBit_ne h).trans (reg_setF_ne h)
  · rfl

/-- After the edge no operating-point step is pending, and one that was is in effect (R49, R51, log entry 57). -/
theorem applyOpStep_weftOp (h : swf regReset s.regs = true) : regBit (applyOpStep s) rTbWeftOp 8 = false
    ∧ (regBit s rTbWeftOp 8 = true → regF (applyOpStep s) rTbWeftOp 2 0 = regF s rTbWeftOp 6 4) := by
  have hset : ∀ v, swf regReset (setF s rTbWeftOp 2 0 v).regs = true := fun _ => swf_setF h
  unfold applyOpStep
  split
  · refine ⟨regBit_setRegBit_same (hset _) (by omega), fun _ => ?_⟩
    rw [regF_setRegBit_apart (hset _) (by omega), regF_setF h (by omega) (by omega)]
    exact Nat.mod_eq_of_lt (Nat.mod_lt _ (by omega))
  · next hp => exact ⟨by simpa using hp, fun hp' => absurd hp' hp⟩

theorem droopDetected_effect (h : Canonical s) {die : Nat} (mv weft : Nat) (hd : die < dieCount s) :
    (mv ≤ 5 * max 1 (regF s rTbDroopCfg 5 0) → exec (.droopDetected die mv weft) s = .next s)
      ∧ (5 * max 1 (regF s rTbDroopCfg 5 0) < mv → ∃ u, exec (.droopDetected die mv weft) s = .next u
        ∧ u.tb.q = s.tb.q ∧ u.tb.weftPulse = some weft ∧ u.ob = s.ob
        ∧ (runActive s = true → (warpEdge (warpEdge u)).tb.slow = true
          ∧ (warpEdge (warpEdge (warpEdge u))).tb.slow = false)
        ∧ (s.tb.weftPulse = some weft → u.regs = s.regs)
        ∧ (s.tb.weftPulse ≠ some weft → reg64 u rTbWeftStretchPs =
            (reg64 s rTbWeftStretchPs + opPeriod (regF s rTbWeftOp 2 0) / 4) % 2 ^ 64
          ∧ regBit u rTbWeftOp 8 = false
          ∧ (regBit s rTbWeftOp 8 = true → regF u rTbWeftOp 2 0 = regF s rTbWeftOp 6 4))) := by
  rw [exec_droopDetected hd]
  refine ⟨fun hmv => by rw [if_pos hmv], fun hmv => ?_⟩
  rw [if_neg (by omega)]
  obtain ⟨hregs, hob, hq, hpulse, hlate⟩ := droopNoted_rest (s := s)
  by_cases hw : s.tb.weftPulse = some weft
  · rw [if_pos hw]
    exact ⟨_, rfl, hq, hpulse.trans hw, hob, fun hr => warpEdge_stretches_second (hlate hr), fun _ => hregs,
      fun hn => absurd hw hn⟩
  · rw [if_neg hw]
    have hreg : ∀ a, reg (droopNoted s) a = reg s a := fun a => by rw [reg, hregs, reg]
    have hn : swf regReset (droopNoted s).regs = true := hregs ▸ h.regs
    have hkeep : ∀ a, a ≠ rTbWeftStretchPs → a ≠ rTbWeftStretchPs + 4 →
        reg (weftStretched (droopNoted s) weft) a = reg s a := fun a ha ha' => (reg_setReg64_ne ha ha').trans (hreg a)
    have hop : reg (weftStretched (droopNoted s) weft) rTbWeftOp = reg s rTbWeftOp := hkeep _ (by decide) (by decide)
    obtain ⟨htb, hob'⟩ := applyOpStep_rest (s := weftStretched (droopNoted s) weft)
    obtain ⟨hpend, hcur⟩ := applyOpStep_weftOp (s := weftStretched (droopNoted s) weft) (swf_setReg64 hn)
    refine ⟨_, rfl, ?_, ?_, hob'.trans hob, fun hr => warpEdge_stretches_second ?_, fun hp => absurd hp hw,
      fun _ => ⟨?_, hpend, fun hp => ?_⟩⟩
    · rw [htb]; exact hq
    · rw [htb]; rfl
    · rw [htb]; exact hlate hr
    · calc reg64 (applyOpStep (weftStretched (droopNoted s) weft)) rTbWeftStretchPs
          = reg64 (weftStretched (droopNoted s) weft) rTbWeftStretchPs :=
            reg64_congr (reg_applyOpStep (by decide)) (reg_applyOpStep (by decide))
        _ = (reg64 (droopNoted s) rTbWeftStretchPs + opPeriod (regF (droopNoted s) rTbWeftOp 2 0) / 4) % 2 ^ 64 :=
            reg64_setReg64 hn
        _ = (reg64 s rTbWeftStretchPs + opPeriod (regF s rTbWeftOp 2 0) / 4) % 2 ^ 64 := by
            rw [reg64_congr (hreg _) (hreg _), regF_congr (hreg _)]
    · rw [hcur ((regBit_congr hop).trans hp), regF_congr hop]

/-! ### Tick overrun -/

theorem tickOverrun_effect (h : Canonical s) (hr : runActive s = true) (hb : lastTick s = true) (hl : s.tb.lapse = false)
    (hq : 4 * tbSelvage s < s.tb.q) :
    ∃ u, exec .tickOverrun s = .next u
      ∧ Counted s u rTbOverrunCnt 1 ∧ u.tb.q = 0 ∧ u.tb.tick = s.tb.tick + 1 ∧ u.tb.cyc = 0 ∧ u.tb.eighth = 0
      ∧ (reg u rTbStretchMax).toNat = max s.tb.q (reg s rTbStretchMax).toNat % 2 ^ 32
      ∧ (u.ob.log.take 2).any (fun l => l.cause == 0x0906) = true
      ∧ (∀ t, periodStart s s.tb.tick = some t → ∀ k < imageL s, tbSlot s + (imageDelta s + k) * tbM s ≤ t →
        bitN (frameMark u (t - (imageDelta s + k) * tbM s)).mark 0 = true) := by
  obtain ⟨hcount, hq0, htick, hcyc, heighth, hmax, hlog, hmarks⟩ := tickEdge_overrun h hb hl hq
  refine ⟨tickEdge s, ?_, hcount, hq0, htick, hcyc, heighth, hmax, hlog, fun t ht k hk hle =>
    hmarks t ht _ (mem_framesInNetwork hk hle)⟩
  show execTickOverrun s = _
  rw [execTickOverrun, if_pos (by simp [hr, hb, hq])]

theorem tickOverrun_idle (h : runActive s = false ∨ lastTick s = false ∨ s.tb.q ≤ 4 * tbSelvage s) :
    exec .tickOverrun s = .next s := by
  show execTickOverrun s = _
  rw [execTickOverrun, if_neg]
  rcases h with h | h | h <;> simp [h]

/-- Settles O28: each clause is what its command does (spec/02 R35, R36, R46-R51, R54, spec/16 R444; that a detected droop
brings a pending operating-point step into effect is log entry 57). -/
theorem tickLockAndClocks : Obligations.TickLockAndClocks := by
  intro s h
  exact ⟨fun hr hl => lockEnSet_effect h hr hl, fun hr hl hrun => lockEnClear_effect h hr hl hrun,
    fun hz h1 => tickLocked_effect h hz h1, fun h1 => tickLockFail_effect h h1,
    fun ok h2 h5 => avsDone_effect h ok h2 h5, weftPllUnlock_effect h,
    fun _ mv weft hd => droopDetected_effect h mv weft hd,
    fun hr hb hl hq => tickOverrun_effect h hr hb hl hq, tickOverrun_idle⟩

end Sys2Proof.Machine
end

section
/-! SUPPORT. The model's arithmetic on numbers is that of machine words (spec/00 R8, spec/08 R221): two's complement, the wrap
modulo 2^64, and each scalar operation on the values of two words. -/

namespace Sys2Proof.Machine

theorem sextI_eq_toInt {n : Nat} (hn : 0 < n) (v : Nat) : sextI n v = (BitVec.ofNat n v).toInt := by
  have hp : 2 ^ n = 2 * 2 ^ (n - 1) := by rw [← Nat.pow_succ', Nat.succ_eq_add_one, Nat.sub_add_cancel hn]
  have hc : v % 2 ^ n < 2 ^ (n - 1) ↔ 2 * (v % 2 ^ n) < 2 ^ n := by omega
  rw [sextI, BitVec.toInt_eq_toNat_cond, BitVec.toNat_ofNat]
  simp only [hc]

theorem encI_eq_toNat (n : Nat) (x : Int) : encI n x = (BitVec.ofInt n x).toNat := (BitVec.toNat_ofInt x).symm

theorem sg_toNat (a : DWord) : sg a.toNat = a.toInt := by
  rw [sg, sextI_eq_toInt (by decide), BitVec.ofNat_toNat, BitVec.setWidth_eq]

theorem wrap64_toNat (a : DWord) : wrap64 a.toNat = a.toNat := by
  rw [wrap64, encI_eq_toNat, BitVec.ofInt_natCast, BitVec.ofNat_toNat, BitVec.setWidth_eq]

theorem wrap64_immS {f : WFields} : wrap64 (immS f) = ((BitVec.ofNat 32 f.imm).signExtend 64).toNat := by
  rw [wrap64, encI_eq_toNat, immS, sextI_eq_toInt (by decide), BitVec.signExtend]

/-- `op` on the values of two words and a wrap is `wop` on the words. -/
def ComputesWord (op : Nat → Nat → Int) (wop : DWord → DWord → DWord) : Prop :=
  ∀ a b : DWord, wrap64 (op a.toNat b.toNat) = (wop a b).toNat

theorem computesWord_of_ofInt {op : Nat → Nat → Int} {wop : DWord → DWord → DWord}
    (h : ∀ a b : DWord, BitVec.ofInt 64 (op a.toNat b.toNat) = wop a b) : ComputesWord op wop := fun a b => by
  rw [wrap64, encI_eq_toNat, h]

/-- An operation whose result is the value of a word needs no wrap. -/
theorem computesWord_of_toNat {op : Nat → Nat → Nat} {wop : DWord → DWord → DWord}
    (h : ∀ a b : DWord, op a.toNat b.toNat = (wop a b).toNat) : ComputesWord (fun a b => (op a b : Nat)) wop := fun a b => by
  show wrap64 (op a.toNat b.toNat : Nat) = _
  rw [h, wrap64_toNat]

/-- An operation whose result is the signed value of a word yields the word. -/
theorem computesWord_of_toInt {op : Nat → Nat → Int} {wop : DWord → DWord → DWord}
    (h : ∀ a b : DWord, op a.toNat b.toNat = (wop a b).toInt) : ComputesWord op wop :=
  computesWord_of_ofInt fun a b => by rw [h, BitVec.ofInt_toInt]

theorem add_computesWord : ComputesWord (fun a b => a + b) (· + ·) :=
  computesWord_of_ofInt fun a b => by simp [BitVec.ofInt_add]

theorem sub_computesWord : ComputesWord (fun a b => (a : Int) - b) (· - ·) :=
  computesWord_of_ofInt fun a b => by
    rw [Int.sub_eq_add_neg, BitVec.ofInt_add, BitVec.ofInt_neg, BitVec.sub_eq_add_neg]
    simp

theorem mul_computesWord : ComputesWord (fun a b => a * b) (· * ·) :=
  computesWord_of_ofInt fun a b => by simp [BitVec.ofInt_mul]

theorem mulh_computesWord : ComputesWord (fun a b => sg a * sg b / 2 ^ 64)
    (fun a b => BitVec.ofInt 64 (a.toInt * b.toInt / 2 ^ 64)) :=
  computesWord_of_ofInt fun a b => by simp only [sg_toNat]

theorem mulhu_computesWord : ComputesWord (fun a b => (a * b / 2 ^ 64 : Nat))
    (fun a b => BitVec.ofNat 64 (a.toNat * b.toNat / 2 ^ 64)) :=
  computesWord_of_ofInt fun _ _ => BitVec.ofInt_natCast 64 _

theorem and_computesWord : ComputesWord (fun a b => (a &&& b : Nat)) (· &&& ·) :=
  computesWord_of_toNat fun a b => (BitVec.toNat_and a b).symm

theorem or_computesWord : ComputesWord (fun a b => (a ||| b : Nat)) (· ||| ·) :=
  computesWord_of_toNat fun a b => (BitVec.toNat_or a b).symm

theorem xor_computesWord : ComputesWord (fun a b => (a ^^^ b : Nat)) (· ^^^ ·) :=
  computesWord_of_toNat fun a b => (BitVec.toNat_xor a b).symm

theorem shl_computesWord : ComputesWord (fun a b => (a * 2 ^ (b % 64) : Nat)) (fun a b => a <<< (b.toNat % 64)) :=
  computesWord_of_ofInt fun a b => by
    rw [BitVec.ofInt_natCast, ← Nat.shiftLeft_eq]
    exact BitVec.eq_of_toNat_eq (by simp)

theorem shr_computesWord : ComputesWord (fun a b => (a / 2 ^ (b % 64) : Nat)) (fun a b => a >>> (b.toNat % 64)) :=
  computesWord_of_toNat fun a b => by rw [BitVec.toNat_ushiftRight, Nat.shiftRight_eq_div_pow]

theorem sra_computesWord : ComputesWord (fun a b => sg a / 2 ^ (b % 64)) (fun a b => a.sshiftRight (b.toNat % 64)) :=
  computesWord_of_toInt fun a b => by
    rw [BitVec.toInt_sshiftRight, sg_toNat, Int.shiftRight_eq_div_pow]
    exact congrArg (a.toInt / ·) (Int.natCast_pow 2 _).symm

theorem min_computesWord : ComputesWord (fun a b => min (sg a) (sg b)) (fun a b => if a.slt b then a else b) :=
  computesWord_of_toInt fun a b => by
    simp only [sg_toNat, BitVec.slt_iff_toInt_lt]
    split <;> omega

theorem max_computesWord : ComputesWord (fun a b => max (sg a) (sg b)) (fun a b => if a.slt b then b else a) :=
  computesWord_of_toInt fun a b => by
    simp only [sg_toNat, BitVec.slt_iff_toInt_lt]
    split <;> omega

theorem minu_computesWord : ComputesWord (fun a b => (min a b : Nat)) (fun a b => if a.ult b then a else b) :=
  computesWord_of_toNat fun a b => by
    simp only [BitVec.ult_iff_toNat_lt]
    split <;> omega

theorem maxu_computesWord : ComputesWord (fun a b => (max a b : Nat)) (fun a b => if a.ult b then b else a) :=
  computesWord_of_toNat fun a b => by
    simp only [BitVec.ult_iff_toNat_lt]
    split <;> omega

/-- The six condition codes of R221 on words. -/
def wordCond (c : Nat) (a b : DWord) : Bool := [a == b, a != b, a.slt b, a.sle b, a.ult b, a.ule b].getD c false

theorem condS_toNat {c : Nat} (hc : c < 6) (a b : DWord) : condS c a.toNat b.toNat = wordCond c a b := by
  have heq : (a.toNat == b.toNat) = (a == b) := by rw [Bool.eq_iff_iff, beq_iff_eq, beq_iff_eq, BitVec.toNat_inj]
  match c, hc with
  | 0, _ => exact heq
  | 1, _ => exact congrArg not heq
  | 2, _ => simp [condS, wordCond, sg_toNat, BitVec.slt_eq_decide]
  | 3, _ => simp [condS, wordCond, sg_toNat, BitVec.sle_eq_decide]
  | 4, _ => rfl
  | 5, _ => rfl

theorem plogOp_toNat {o : Nat} (ho : o < 4) (p q : DWord) : plogOp (o % 4) p.toNat q.toNat
    = ([p &&& q, p ||| q, p ^^^ q, p &&& ~~~q].getD o 0).toNat := by
  match o, ho with
  | 0, _ => exact (BitVec.toNat_and p q).symm
  | 1, _ => exact (BitVec.toNat_or p q).symm
  | 2, _ => exact (BitVec.toNat_xor p q).symm
  | 3, _ => exact ((BitVec.toNat_and p (~~~q)).trans (by rw [BitVec.toNat_not]; rfl)).symm

end Sys2Proof.Machine
end

section
/-! SUPPORT. The scalar instructions that run (spec/08 R221): what they read are words, and what they write is a word operation
on what they read. -/

namespace Sys2Proof.Machine

variable {s : State} {t : Nat} {f : WFields} {e : WEnv}

@[simp] theorem toNat_ofNat_getS {r : Nat} : (BitVec.ofNat 64 (getS s t r)).toNat = getS s t r := by
  unfold getS
  split <;> simp

@[simp] theorem toNat_ofNat_getP {r : Nat} : (BitVec.ofNat 64 (getP s t r)).toNat = getP s t r := by
  unfold getP
  split <;> simp [ones64]

/-- An instruction that is met with a field that its opcode does not allow (spec/08 R215, R246). -/
theorem weftInstr_illegal {h : Shape} {lane : Bool} {op : State → Nat → WRes} (hf : Fetched t f e h.opc s)
    (hl : legalFields f h = false) :
    weftInstr t f e h lane s op = .next (takeTrap (spendCycles s t e) t { cause := 0x0301, unit := 9 }) := by
  obtain ⟨ht, hc, ha, hfe, hp, hb⟩ := hf
  have ht' : t < 256 := Nat.lt_of_lt_of_le ht (by unfold tileCount; split <;> omega)
  simp [weftInstr, onUnit, Nat.not_le.mpr ht, Nat.not_le.mpr ht', hc, ha, hfe, core_spendCycles hc, Nat.not_lt.mpr hp, hb, hl]

/-- As `weftInstr_illegal`, for an instruction without a trap of its own. -/
theorem weftSimple_illegal {h : Shape} {lane : Bool} {op : State → Nat → State} (hf : Fetched t f e h.opc s)
    (hl : legalFields f h = false) :
    weftSimple t f e h lane s op = .next (takeTrap (spendCycles s t e) t { cause := 0x0301, unit := 9 }) :=
  weftInstr_illegal hf hl

theorem legalFields_of_rc {h : Shape} (hrc : h.rc ≤ f.rc) : legalFields f h = false := by
  simp [legalFields, Nat.not_lt.mpr hrc]

theorem Runs.rc_lt {h : Shape} {lane : Bool} (hr : Runs t f e h lane s) : f.rc < h.rc := by
  obtain ⟨-, hl, -⟩ := hr
  simp only [legalFields, Bool.and_eq_true, decide_eq_true_eq] at hl
  obtain ⟨⟨-, hrc⟩, -⟩ := hl
  exact hrc

theorem Runs.imm_ok {h : Shape} {lane : Bool} (hr : Runs t f e h lane s) : h.imm f.imm = true := by
  obtain ⟨-, hl, -⟩ := hr
  exact (Bool.and_eq_true_iff.mp hl).2

theorem scalarOp_runs {opc : Nat} {op : Nat → Nat → Int} {wop : DWord → DWord → DWord} (hop : ComputesWord op wop)
    (hr : Runs t f e { opc := opc, rd := 32, ra := 32, rb := 32 } false s) :
    scalarOp opc t f e s op = completes t (setS (spendCycles s t e) t f.rd
      (wop (BitVec.ofNat 64 (getS s t f.ra)) (BitVec.ofNat 64 (getS s t f.rb))).toNat) := by
  have hv := hop (BitVec.ofNat 64 (getS s t f.ra)) (BitVec.ofNat 64 (getS s t f.rb))
  simp only [toNat_ofNat_getS] at hv
  rw [scalarOp, weftSimple_runs hr, getS_spendCycles, getS_spendCycles, hv, completes]

theorem execCmp_runs (hr : Runs t f e { opc := 0x1F, rd := 8, ra := 32, rb := 32, rc := 6 } false s) :
    execCmp t f e s = completes t (setP (spendCycles s t e) t f.rd
      (allBits (wordCond f.rc (BitVec.ofNat 64 (getS s t f.ra)) (BitVec.ofNat 64 (getS s t f.rb))))) := by
  rw [← condS_toNat hr.rc_lt, toNat_ofNat_getS, toNat_ofNat_getS, execCmp, weftSimple_runs hr, getS_spendCycles, getS_spendCycles,
    completes]

theorem execCmpi_runs (hr : Runs t f e { opc := 0x29, rd := 8, ra := 32, rc := 6, imm := immAny } false s) :
    execCmpi t f e s = completes t (setP (spendCycles s t e) t f.rd
      (allBits (wordCond f.rc (BitVec.ofNat 64 (getS s t f.ra)) ((BitVec.ofNat 32 f.imm).signExtend 64)))) := by
  rw [← condS_toNat hr.rc_lt, toNat_ofNat_getS, ← wrap64_immS, execCmpi, weftSimple_runs hr, getS_spendCycles, completes]

theorem execPlog_runs (hr : Runs t f e { opc := 0x2A, rd := 8, ra := 8, rb := 8, imm := immLt 4 } false s) :
    let p : DWord := BitVec.ofNat 64 (getP s t f.ra)
    let q : DWord := BitVec.ofNat 64 (getP s t f.rb)
    execPlog t f e s = completes t (setP (spendCycles s t e) t f.rd
      ([p &&& q, p ||| q, p ^^^ q, p &&& ~~~q].getD f.imm 0).toNat) := by
  intro p q
  rw [← plogOp_toNat (of_decide_eq_true hr.imm_ok), toNat_ofNat_getP, toNat_ofNat_getP, execPlog, weftSimple_runs hr,
    getP_spendCycles, getP_spendCycles, completes]

theorem execPmov_runs (hr : Runs t f e { opc := 0x2B, rd := 8, ra := 32 } false s) :
    execPmov t f e s = completes t (setP (spendCycles s t e) t f.rd (BitVec.ofNat 64 (getS s t f.ra)).toNat) := by
  rw [toNat_ofNat_getS, execPmov, weftSimple_runs hr, getS_spendCycles, completes]

theorem execPrd_runs (hr : Runs t f e { opc := 0x2C, rd := 32, ra := 8 } false s) :
    execPrd t f e s = completes t (setS (spendCycles s t e) t f.rd (getP s t f.ra)) := by
  rw [execPrd, weftSimple_runs hr, getP_spendCycles, completes]

/-- The reserved condition codes (spec/08 R215, R221). -/
theorem reservedCond_illegal (hc : 6 ≤ f.rc) :
    (Fetched t f e 0x1F s → execCmp t f e s = .next (takeTrap (spendCycles s t e) t { cause := 0x0301, unit := 9 }))
      ∧ (Fetched t f e 0x29 s → execCmpi t f e s = .next (takeTrap (spendCycles s t e) t { cause := 0x0301, unit := 9 })) :=
  ⟨fun hf => weftSimple_illegal hf (legalFields_of_rc hc), fun hf => weftSimple_illegal hf (legalFields_of_rc hc)⟩

/-- Settles O1: the fifteen register forms by what each computes on words, then the compares, the reserved condition codes and the
moves of predicates. -/
theorem scalarArithmetic : Obligations.ScalarArithmetic := by
  refine ⟨fun t f e s => ?_, fun t f e s _ => ?_⟩
  · exact ⟨fun hr => (scalarOp_runs add_computesWord hr :), fun hr => (scalarOp_runs sub_computesWord hr :),
      fun hr => (scalarOp_runs mul_computesWord hr :), fun hr => (scalarOp_runs mulh_computesWord hr :),
      fun hr => (scalarOp_runs mulhu_computesWord hr :), fun hr => (scalarOp_runs and_computesWord hr :),
      fun hr => (scalarOp_runs or_computesWord hr :), fun hr => (scalarOp_runs xor_computesWord hr :),
      fun hr => (scalarOp_runs shl_computesWord hr :), fun hr => (scalarOp_runs shr_computesWord hr :),
      fun hr => (scalarOp_runs sra_computesWord hr :), fun hr => (scalarOp_runs min_computesWord hr :),
      fun hr => (scalarOp_runs max_computesWord hr :), fun hr => (scalarOp_runs minu_computesWord hr :),
      fun hr => (scalarOp_runs maxu_computesWord hr :)⟩
  · exact ⟨execCmp_runs, execCmpi_runs, reservedCond_illegal, execPlog_runs, execPmov_runs, execPrd_runs⟩

end Sys2Proof.Machine
end

section
/-! SUPPORT. Keep takes a command (spec/15 R435, spec/17 R494, R495): what a command taken, a critical command accepted and its
response leave as they were. -/

namespace Sys2Proof.Machine

variable {s v w : State} {src : CmdSrc} {op : Nat} {c : KpCmd} {key body bs : List Byte} {ctr a cause source detail st : Nat}

/-- A fold whose every step with an element of the list keeps `f` keeps it. -/
theorem foldl_keeps_mem {β γ : Type} {f : State → γ} {g : State → β → State} {l : List β}
    (h : ∀ s, ∀ x ∈ l, f (g s x) = f s) : f (l.foldl g s) = f s := by
  induction l generalizing s with
  | nil => rfl
  | cons x l ih =>
    exact (ih fun s y hy => h s y (List.mem_cons_of_mem _ hy)).trans (h s x (List.mem_cons_self ..))

/-! ### Events and causes -/

@[simp] theorem raise_keepRest :
    (raise s cause source detail).kp = s.kp ∧ (raise s cause source detail).kw = s.kw
      ∧ (raise s cause source detail).ts = s.ts ∧ (raise s cause source detail).tile = s.tile
      ∧ (raise s cause source detail).sched = s.sched ∧ (raise s cause source detail).fuse = s.fuse := by
  obtain ⟨regs, ob, cx, shown, fine, h⟩ := raise_eq (s := s) (cause := cause) (source := source) (detail := detail)
  rw [h]
  exact ⟨rfl, rfl, rfl, rfl, rfl, rfl⟩

@[simp] theorem msix_keepRest {n : Nat} :
    (msix s n).kp = s.kp ∧ (msix s n).kw = s.kw ∧ (msix s n).ts = s.ts ∧ (msix s n).tile = s.tile
      ∧ (msix s n).image = s.image ∧ (msix s n).sched = s.sched ∧ (msix s n).fuse = s.fuse := by
  obtain ⟨regs, cx, h⟩ := msix_eq (s := s) (v := n)
  rw [h]
  exact ⟨rfl, rfl, rfl, rfl, rfl, rfl, rfl⟩

@[simp] theorem kpEvent_rest {b : Nat} :
    (kpEvent s b).kp = s.kp ∧ (kpEvent s b).kw = s.kw ∧ (kpEvent s b).ts = s.ts ∧ (kpEvent s b).tile = s.tile
      ∧ (kpEvent s b).image = s.image ∧ (kpEvent s b).sched = s.sched ∧ (kpEvent s b).fuse = s.fuse := by
  unfold kpEvent
  dsimp only
  split <;> simp

theorem reg_noteSmb : reg (noteSmb s) a = reg s a := reg_of_regs rfl

theorem reg_kpEvent {b : Nat} (h : a ≠ rKpEvent) (h' : a ≠ rMsixPba 0) : reg (kpEvent s b) a = reg s a := by
  unfold kpEvent
  refine reg_noteSmb.trans ?_
  split
  · exact (reg_msix h').trans (reg_setRegBit_ne h)
  · exact reg_setRegBit_ne h

/-- An event shows in KP_EVENT. -/
theorem regBit_kpEvent {b : Nat} (hs : swf regReset s.regs = true) (hb : b < 32) : regBit (kpEvent s b) rKpEvent b = true := by
  refine Eq.trans (regBit_congr ?_) (regBit_setRegBit_same (x := true) hs hb)
  unfold kpEvent
  refine reg_noteSmb.trans ?_
  split
  · exact reg_msix (by decide)
  · rfl

/-! ### Responses -/

/-- What a response writes: the list of what went out over MCTP, or the mailbox with the event of vector 0. -/
theorem respond_cases :
    (∃ out, respond s c st bs = withKp s (fun k => { k with mctpOut := out }))
      ∨ ∃ cx, respond s c st bs = { s with cx := cx } ∨ respond s c st bs = msix { s with cx := cx } 0 := by
  unfold respond
  extract_lets msg out st₁ st₂ t
  clear_value msg out st₂
  split
  · exact .inl ⟨_, rfl⟩
  · split
    · exact .inr ⟨_, .inr rfl⟩
    · exact .inr ⟨_, .inl rfl⟩

/-- A response can set the pending bit of vector 0 and writes no other register. -/
theorem reg_respond (h : a ≠ rMsixPba 0) : reg (respond s c st bs) a = reg s a := by
  obtain ⟨out, he⟩ | ⟨cx, he | he⟩ := respond_cases (s := s) (c := c) (st := st) (bs := bs) <;> rw [he]
  · rfl
  · rfl
  · exact reg_msix h

@[simp] theorem respond_rest :
    (respond s c st bs).kw = s.kw ∧ (respond s c st bs).ts = s.ts ∧ (respond s c st bs).tile = s.tile
      ∧ (respond s c st bs).image = s.image ∧ (respond s c st bs).sched = s.sched ∧ (respond s c st bs).ob = s.ob
      ∧ (respond s c st bs).fuse = s.fuse ∧ (respond s c st bs).kp.cur = s.kp.cur
      ∧ (respond s c st bs).kp.flash = s.kp.flash ∧ (respond s c st bs).kp.kCmd = s.kp.kCmd
      ∧ (respond s c st bs).kp.nonce = s.kp.nonce ∧ (respond s c st bs).kp.policy = s.kp.policy
      ∧ (respond s c st bs).kp.wiping = s.kp.wiping := by
  obtain ⟨out, he⟩ | ⟨cx, he | he⟩ := respond_cases (s := s) (c := c) (st := st) (bs := bs) <;> rw [he] <;> simp [withKp]

theorem reg_respondTagged (h : a ≠ rMsixPba 0) : reg (respondTagged s c key ctr st bs) a = reg s a := reg_respond h

@[simp] theorem respondTagged_rest :
    (respondTagged s c key ctr st bs).kw = s.kw ∧ (respondTagged s c key ctr st bs).ts = s.ts
      ∧ (respondTagged s c key ctr st bs).tile = s.tile ∧ (respondTagged s c key ctr st bs).image = s.image
      ∧ (respondTagged s c key ctr st bs).sched = s.sched ∧ (respondTagged s c key ctr st bs).ob = s.ob
      ∧ (respondTagged s c key ctr st bs).fuse = s.fuse ∧ (respondTagged s c key ctr st bs).kp.cur = s.kp.cur
      ∧ (respondTagged s c key ctr st bs).kp.flash = s.kp.flash
      ∧ (respondTagged s c key ctr st bs).kp.kCmd = s.kp.kCmd
      ∧ (respondTagged s c key ctr st bs).kp.nonce = s.kp.nonce
      ∧ (respondTagged s c key ctr st bs).kp.policy = s.kp.policy
      ∧ (respondTagged s c key ctr st bs).kp.wiping = s.kp.wiping := respond_rest

theorem raised_respondTagged :
    Raised (respondTagged s c key ctr st bs) cause source ↔ Raised s cause source := by
  simp only [Raised, respondTagged_rest]

/-- A command that fails its own checks shows its cause as the newest raise. -/
theorem raised_failTagged : Raised (failTagged s c key ctr cause) cause noSource :=
  raised_respondTagged.2 raised_raise

theorem reg_failTagged (h : a ≠ rMsixPba 0) (h' : a ∉ raiseRegs cause) : reg (failTagged s c key ctr cause) a = reg s a :=
  (reg_respondTagged h).trans (reg_raise h')

/-! ### Commands taken and accepted -/

theorem Taken.eq (h : Taken src op s c v) : s.kp.wiping = false ∧ ∃ l, v = withKp s (fun k => { k with waiting := l }) := by
  obtain ⟨ht, -⟩ := h
  unfold takeCmd at ht
  split at ht
  · cases ht
  · rename_i hb
    simp only [keepBusy, Bool.or_eq_true, not_or, Bool.not_eq_true] at hb
    obtain ⟨⟨-, hw⟩, -⟩ := hb
    refine ⟨hw, ?_⟩
    (repeat' split at ht) <;> cases ht
    · exact ⟨_, rfl⟩
    · exact ⟨s.kp.waiting, rfl⟩

/-- The state in which the own effect of an accepted command begins: COUNTER is the last accepted one. -/
theorem Accepted.eq (h : Accepted src op s c key ctr body w) : s.kp.wiping = false
    ∧ ∃ l, w = withKp (setReg64 s rKpCmdCtr ctr) (fun k => { k with waiting := l, authRow := 0 }) := by
  obtain ⟨v, ht, -, -, -, -, -, -, rfl⟩ := h
  obtain ⟨hw, l, rfl⟩ := ht.eq
  exact ⟨hw, l, rfl⟩

theorem Accepted.canonical (h : Accepted src op s c key ctr body w) (hs : Canonical s) : Canonical w := by
  obtain ⟨-, l, rfl⟩ := h.eq
  exact (withKp_good (setReg64_good hs.good) fun _ _ => trivial).canonical

theorem onCommand_taken (h : Taken src op s c v) {f : KpCmd → State → State} :
    onCommand src op s f = keepNext (f c v) := by
  obtain ⟨ht, hl⟩ := h
  have hm : (c.mctp && decide (16368 < c.payload.length)) = false := by
    cases hc : c.mctp with
    | false => rfl
    | true => simpa using hl hc
  simp only [onCommand, ht, hm, Bool.false_eq_true, if_false]

theorem onCritical_accepted (h : Accepted src op s c key ctr body w)
    {f : KpCmd → List Byte → Nat → List Byte → State → State} :
    onCritical src op s f = keepNext (f c key ctr body w) := by
  obtain ⟨v, ht, hk, hn, hmac, rfl, hctr, rfl, rfl⟩ := h
  rw [onCritical, onCommand_taken ht, critical, hk]
  dsimp only
  rw [if_neg (by omega), if_neg (Decidable.not_not.2 hmac), if_neg (by omega)]

end Sys2Proof.Machine
end

section
/-! SUPPORT. What ZEROIZE clears and what it leaves (spec/17 R502), and which start follows the newest boot record (R482). -/

namespace Sys2Proof.Machine

variable {s u : State} {a n ty cause : Nat}

/-! ### The newest boot record -/

/-- BOOT_NO of the newest boot record: that of this start, else the newest in flash. -/
def lastBootNo (s : State) : Nat := ((s.kp.cur <|> s.kp.flash.ledger.head?).getD {}).bootNo

/-- BOOT_NO and RESET_CAUSE of the record of the current start. -/
def startId (s : State) : Option (Nat × Nat) := s.kp.cur.map fun r => (r.bootNo, r.cause)

theorem started_iff : Started s u cause ↔ startId u = some (lastBootNo s + 1, cause) := by
  simp only [Started, startId, lastBootNo, Option.map_eq_some_iff, Prod.mk.injEq]

theorem lastBootNo_congr (hc : u.kp.cur = s.kp.cur) (hl : u.kp.flash.ledger = s.kp.flash.ledger) :
    lastBootNo u = lastBootNo s := by rw [lastBootNo, hc, hl, lastBootNo]

/-- An event of the ledger above type 3 changes the record of this start and its copy in flash. -/
theorem ledgerEvent_eq (h : 3 < ty) : ∃ e l, ledgerEvent s ty cause
      = withKp s (fun k => { k with cur := s.kp.cur.map (recordEvent · e), flash := { k.flash with ledger := l } })
    ∧ (s.kp.cur = none → l = s.kp.flash.ledger) := by
  refine ⟨(ty, cause, nowTag s), ?_⟩
  unfold ledgerEvent
  dsimp only
  rw [if_neg (by omega)]
  unfold writeRecord
  cases hc : s.kp.cur with
  | none => exact ⟨s.kp.flash.ledger, by simp [withKp, hc], fun _ => rfl⟩
  | some r => exact ⟨_, by simp only [withKp, hc, Option.map_some]; rfl, nofun⟩

theorem lastBootNo_ledgerEvent (h : 3 < ty) : lastBootNo (ledgerEvent s ty cause) = lastBootNo s := by
  obtain ⟨e, l, he, hl⟩ := ledgerEvent_eq (s := s) (cause := cause) h
  rw [he]
  cases hc : s.kp.cur with
  | none => simp [lastBootNo, withKp, hc, hl hc]
  | some r => simp [lastBootNo, withKp, hc, recordEvent]

/-! ### The end of the run -/

theorem reg_closeBlock {b : Bool} (h : ∀ k < 8, a ≠ rPvLink n k) : reg (closeBlock s n b) a = reg s a := by
  unfold closeBlock
  dsimp only
  split
  · rfl
  · exact foldl_keeps_mem (f := (reg · a)) fun t k hk => reg_setRegN_ne (h k (List.mem_range.1 hk))

theorem closeBlock_kp {b : Bool} : (closeBlock s n b).kp = s.kp := by
  unfold closeBlock
  dsimp only
  split
  · rfl
  · refine (foldl_keeps (f := State.kp) fun t k => ?_).trans ?_ <;> simp

theorem reg_provRunEnd (h : ∀ n < 16, ∀ k < 8, a ≠ rPvLink n k) : reg (provRunEnd s) a = reg s a :=
  foldl_keeps_mem (f := (reg · a)) fun _ n hn => reg_closeBlock (h n (List.mem_range.1 hn))

theorem provRunEnd_kp : (provRunEnd s).kp = s.kp := foldl_keeps (f := State.kp) fun _ _ => closeBlock_kp

theorem reg_bobbinRunEnd (h : ∀ n < 16, a ≠ rBbStStatus n) : reg (bobbinRunEnd s) a = reg s a :=
  foldl_keeps_mem (f := (reg · a)) fun _ n hn => reg_setRegBit_ne (h n (List.mem_range.1 hn))

@[simp] theorem bobbinRunEnd_kp : (bobbinRunEnd s).kp = s.kp :=
  foldl_keeps (f := State.kp) (g := fun s n => setRegBit s (rBbStStatus n) 31 false) fun _ _ => by simp

/-- The registers that a new floor can write. -/
def floorRegs : List Nat := [rPmFloor, rPmCapEff, rPmStatus]

/-- A new effective cap writes PM_CAP_EFF and PM_STATUS[31], and raises its cause where that bit begins. -/
theorem reg_updateCapEff_eq (h : a ∉ raiseRegs 0x0A01) : reg (updateCapEff s) a
    = reg (setRegBit (setF s rPmCapEff 19 0 (max (regF s rPmCap 19 0) (regF s rPmFloor 19 0))) rPmStatus 31
      (decide (regF s rPmCap 19 0 < regF s rPmFloor 19 0))) a := by
  unfold updateCapEff
  dsimp only
  split
  · exact reg_raise h
  · rfl

theorem reg_updateCapEff (h : a ∉ floorRegs) (h' : a ∉ raiseRegs 0x0A01) : reg (updateCapEff s) a = reg s a := by
  simp only [floorRegs, List.mem_cons, List.not_mem_nil, or_false, not_or] at h
  obtain ⟨-, hc, ht⟩ := h
  rw [reg_updateCapEff_eq h', reg_setRegBit_ne ht, reg_setF_ne hc]

@[simp] theorem updateCapEff_kp : (updateCapEff s).kp = s.kp := by
  unfold updateCapEff
  dsimp only
  split <;> simp

theorem reg_setFloor {pw : Nat} (h : a ∉ floorRegs) (h' : a ∉ raiseRegs 0x0A01) : reg (setFloor s pw) a = reg s a :=
  (reg_updateCapEff h h').trans (reg_setF_ne fun he => h (by simp [floorRegs, he]))

@[simp] theorem setFloor_kp {pw : Nat} : (setFloor s pw).kp = s.kp := by simp [setFloor]

theorem bobbinRunEnd_swf (h : swf regReset s.regs = true) : swf regReset (bobbinRunEnd s).regs = true := by
  unfold bobbinRunEnd
  generalize List.range 16 = l
  induction l generalizing s with
  | nil => exact h
  | cons n l ih => exact ih (swf_setF h)

/-- A run without the frames that await a decision, their packets and their pending entries. -/
def framesDropped (s : State) : State := dropC1 { s with tr := { s.tr with undecided := [] } }

theorem framesDropped_rest : (framesDropped s).regs = s.regs ∧ (framesDropped s).kp = s.kp := ⟨rfl, rfl⟩

theorem trigOutOff_rest : (trigOutOff s).regs = s.regs ∧ (trigOutOff s).kp = s.kp := ⟨rfl, rfl⟩

/-- A run that is dropped: its packets, pending entries, undecided frames and the levels of TRIG_OUT are gone. -/
def runDropped (s : State) : State :=
  warpRunEnd (trigOutOff (bobbinRunEnd (framesDropped s)))

/-- Timebase without a run, in state `st`. -/
def runLocked (s : State) (st : Nat) : State :=
  let s := clearArm (setRegBit (setTbState s st) rTbCtrl 2 false)
  { s with tb := { s.tb with stopAt := none, lapse := false } }

theorem abortRun_eq {st : Nat} : abortRun s st = setFloor (runLocked (runDropped s) st) 0 := rfl

theorem reg_runDropped (h : ∀ n < 16, a ≠ rBbStStatus n) (h' : a ∉ [rRdStatus, rWpStatus]) :
    reg (runDropped s) a = reg s a := by
  simp only [List.mem_cons, List.not_mem_nil, or_false, not_or] at h'
  obtain ⟨hr, hw⟩ := h'
  rw [runDropped, warpRunEnd, reg_setRegBit_ne hw, reg_setRegBit_ne hr, reg_of_regs trigOutOff_rest.1,
    reg_bobbinRunEnd h, reg_of_regs framesDropped_rest.1]

theorem runDropped_kp : (runDropped s).kp = s.kp := by
  simp [runDropped, warpRunEnd, trigOutOff_rest, framesDropped_rest]

theorem reg_runLocked {st : Nat} (h : a ≠ rTbCtrl) : reg (runLocked s st) a = reg (setTbState s st) a := by
  have hc : reg (runLocked s st) a = reg (setRegBit (setRegBit (setTbState s st) rTbCtrl 2 false) rTbCtrl 1 false) a :=
    reg_of_regs rfl
  rw [hc, reg_setRegBit_ne h, reg_setRegBit_ne h]

theorem runLocked_kp {st : Nat} : (runLocked s st).kp = s.kp := by simp [runLocked, clearArm]

theorem runDropped_swf (h : swf regReset s.regs = true) : swf regReset (runDropped s).regs = true := by
  refine swf_setF (swf_setF ?_)
  rw [trigOutOff_rest.1]
  exact bobbinRunEnd_swf (framesDropped_rest.1 ▸ h)

theorem tbState_abortRun (h : swf regReset s.regs = true) (hv : n < 8) : tbState (abortRun s n) = n := by
  rw [abortRun_eq, tbState_congr ((reg_setFloor (by decide) (by decide)).trans (reg_runLocked (by decide))), tbState,
    setTbState, regF_setF (runDropped_swf h) (by omega) (by omega)]
  omega

theorem reg_abortRun_memStatus {st : Nat} : reg (abortRun s st) rCxMemStatus = reg s rCxMemStatus := by
  rw [abortRun_eq, reg_setFloor (by decide) (by decide), reg_runLocked (by decide), setTbState, reg_setF_ne (by decide),
    reg_runDropped (by decide) (by decide)]

theorem abortRun_kp {st : Nat} : (abortRun s st).kp = s.kp := by
  rw [abortRun_eq, setFloor_kp, runLocked_kp, runDropped_kp]

/-- The state of an ended run in which the clearing of ZEROIZE begins. -/
def runStopped (s : State) : State := if runActive s then abortRun (provRunEnd s) stLocked else s

theorem runStopped_kp : (runStopped s).kp = s.kp := by
  unfold runStopped
  split
  · exact abortRun_kp.trans provRunEnd_kp
  · rfl

theorem reg_runStopped_memStatus : reg (runStopped s) rCxMemStatus = reg s rCxMemStatus := by
  unfold runStopped
  split
  · exact reg_abortRun_memStatus.trans (reg_provRunEnd (by decide))
  · rfl

theorem runStopped_canonical (h : Canonical s) : Canonical (runStopped s) := by
  unfold runStopped
  split
  · exact (abortRun_good (provRunEnd_good h.good)).canonical
  · exact h

theorem runActive_runStopped (h : Canonical s) : runActive (runStopped s) = false := by
  unfold runStopped
  split
  · rw [runActive, tbState_abortRun (provRunEnd_good h.good).canonical.regs (by decide)]
    rfl
  · rename_i hr
    exact Bool.not_eq_true _ ▸ hr

end Sys2Proof.Machine
end

section
/-! SUPPORT. What ZEROIZE clears (spec/17 R502). -/

namespace Sys2Proof.Machine

variable {s : State} {a n : Nat}

/-- No job, no ticket, no channel and no packet is left; WF_Q_STATUS still shows the queues as they were. -/
def jobsEmptied (s : State) : State :=
  { s with sched := { s.sched with queue := [], running := [], reserved := none, aborts := [] }
           weft := { s.weft with cores := [], tickets := [], chans := [] }
           rd := { s.rd with packets := [], credits := [], wires := [] }
           kw := { s.kw with waits := [] } }

theorem stopJobs_eq : stopJobs s = (List.range 16).foldl noteQueue (jobsEmptied s) := rfl

theorem reg_stopJobs (h : ∀ n < 16, a ≠ rWfQStatus n) : reg (stopJobs s) a = reg s a := by
  rw [stopJobs_eq]
  refine Eq.trans (foldl_keeps_mem (f := (reg · a)) fun t n hn => ?_) (reg_of_regs rfl : reg (jobsEmptied s) a = reg s a)
  exact reg_setF_ne (h n (List.mem_range.1 hn))

theorem stopJobs_rest : (stopJobs s).kp = s.kp ∧ (stopJobs s).sched.queue = [] := by
  rw [stopJobs_eq]
  refine ⟨Eq.trans (foldl_keeps (f := State.kp) fun t n => ?_) (rfl : (jobsEmptied s).kp = s.kp),
    Eq.trans (foldl_keeps (f := fun t => t.sched.queue) fun t n => ?_) (rfl : (jobsEmptied s).sched.queue = [])⟩ <;>
    simp [noteQueue]

theorem reg_resetRegs {lo : Nat} (h : a < lo ∨ lo + n ≤ a) : reg (resetRegs s lo n) a = reg s a := by
  unfold reg resetRegs sclear
  dsimp only
  induction s.regs with
  | nil => rfl
  | cons e m ih =>
    rw [List.filter_cons]
    split
    · rw [sget, sget, ih]
    · rename_i he
      have hne : a ≠ e.1 := by
        simp only [Bool.not_eq_true', Bool.not_eq_false, Bool.and_eq_true, decide_eq_true_eq] at he
        omega
      rw [ih, sget, if_neg hne]

theorem dropRecords_rest : (dropRecords s).regs = s.regs ∧ (dropRecords s).kp = s.kp := ⟨rfl, rfl⟩

theorem clearTiles_rest : (clearTiles s).regs = s.regs ∧ (clearTiles s).kp = s.kp ∧ (clearTiles s).sched = s.sched
    ∧ (clearTiles s).ts = [] ∧ (clearTiles s).tile.pick = [] ∧ (clearTiles s).tile.pages = [] :=
  ⟨rfl, rfl, rfl, rfl, rfl, rfl⟩

theorem clearLoader_rest : (clearLoader s).regs = (resetRegs s rLdStatus 0x60).regs
    ∧ (clearLoader s).kp = { s.kp with ld := { job := none } } ∧ (clearLoader s).sched = s.sched
    ∧ (clearLoader s).ts = s.ts ∧ (clearLoader s).tile = s.tile ∧ (clearLoader s).image = none :=
  ⟨rfl, rfl, rfl, rfl, rfl, rfl⟩

theorem eraseKeys_rest : (eraseKeys s).kp = { s.kp with kCmd := none } ∧ (eraseKeys s).sched = s.sched
    ∧ (eraseKeys s).ts = s.ts ∧ (eraseKeys s).tile = s.tile ∧ (eraseKeys s).image = s.image ∧ (eraseKeys s).kw.farmKey = [] :=
  ⟨rfl, rfl, rfl, rfl, rfl, rfl⟩

theorem reg_eraseKeys (h : a ∉ [rKpCmdCtr, rKpCmdCtr + 4, rKpDebug]) : reg (eraseKeys s) a = reg s a := by
  simp only [List.mem_cons, List.not_mem_nil, or_false, not_or] at h
  obtain ⟨h0, h4, hd⟩ := h
  exact (reg_setF_ne hd).trans (reg_setReg64_ne h0 h4)

theorem debugLevel_eraseKeys (h : swf regReset s.regs = true) : debugLevel (eraseKeys s) = 0 :=
  regF_setF (s := { withKp (setReg64 s rKpCmdCtr 0) (fun k => { k with kCmd := none }) with
    kw := { s.kw with farmKey := [] } }) (swf_setReg64 h) (by decide) (by decide)

/-! ### ZEROIZE before its event enters the ledger -/

/-- The run has ended, no job and no record is left, tiles and loader are clear. -/
def contentsCleared (s : State) : State := clearLoader (clearTiles (stopJobs (dropRecords (runStopped s))))

theorem zeroize_eq : zeroize s = kpEvent (ledgerEvent (eraseKeys (contentsCleared s)) 5 0) 4 := rfl

theorem contentsCleared_canonical (h : Canonical s) : Canonical (contentsCleared s) :=
  (clearLoader_good (clearTiles_good (stopJobs_good (dropRecords_good (runStopped_canonical h).good)) (fun _ => trivial)
    (fun _ => trivial) fun _ => trivial) fun _ => trivial).canonical

theorem reg_contentsCleared (h : ∀ n < 16, a ≠ rWfQStatus n) (hl : a < rLdStatus ∨ rLdStatus + 0x60 ≤ a) :
    reg (contentsCleared s) a = reg (runStopped s) a := by
  rw [contentsCleared, reg_of_regs clearLoader_rest.1, reg_resetRegs hl, reg_of_regs clearTiles_rest.1, reg_stopJobs h,
    reg_of_regs dropRecords_rest.1]

theorem contentsCleared_kp : (contentsCleared s).kp = { s.kp with ld := { job := none } } := by
  rw [contentsCleared, clearLoader_rest.2.1, clearTiles_rest.2.1, stopJobs_rest.1, dropRecords_rest.2, runStopped_kp]

theorem contentsCleared_rest : (contentsCleared s).sched.queue = [] ∧ (contentsCleared s).ts = []
    ∧ (contentsCleared s).tile.pick = [] ∧ (contentsCleared s).tile.pages = [] ∧ (contentsCleared s).image = none := by
  obtain ⟨-, -, hs, hts, ht, hi⟩ := clearLoader_rest (s := clearTiles (stopJobs (dropRecords (runStopped s))))
  obtain ⟨-, -, hs', hts', hpick, hpages⟩ := clearTiles_rest (s := stopJobs (dropRecords (runStopped s)))
  rw [contentsCleared, hs, hts, ht, hi, hs', hts', hpick, hpages]
  exact ⟨stopJobs_rest.2, rfl, rfl, rfl, rfl⟩

/-! ### ZEROIZE as a whole -/

theorem ledgerEvent_rest {ty cause : Nat} (h : 3 < ty) :
    (ledgerEvent s ty cause).regs = s.regs ∧ (ledgerEvent s ty cause).sched = s.sched ∧ (ledgerEvent s ty cause).ts = s.ts
      ∧ (ledgerEvent s ty cause).tile = s.tile ∧ (ledgerEvent s ty cause).image = s.image
      ∧ (ledgerEvent s ty cause).kw = s.kw ∧ (ledgerEvent s ty cause).kp.kCmd = s.kp.kCmd
      ∧ (ledgerEvent s ty cause).kp.nonce = s.kp.nonce ∧ (ledgerEvent s ty cause).kp.wiping = s.kp.wiping := by
  obtain ⟨e, l, he, -⟩ := ledgerEvent_eq (s := s) (cause := cause) h
  rw [he]
  exact ⟨rfl, rfl, rfl, rfl, rfl, rfl, rfl, rfl, rfl⟩

theorem reg_ledgerEvent {ty cause : Nat} (h : 3 < ty) : reg (ledgerEvent s ty cause) a = reg s a :=
  reg_of_regs (ledgerEvent_rest h).1

/-- What ZEROIZE clears, and the fields of Keep that it keeps. -/
theorem zeroize_rest : (zeroize s).ts = [] ∧ (zeroize s).tile.pick = [] ∧ (zeroize s).tile.pages = []
    ∧ (zeroize s).image = none ∧ (zeroize s).sched.queue = [] ∧ (zeroize s).kw.farmKey = []
    ∧ (zeroize s).kp.kCmd = none ∧ (zeroize s).kp.nonce = s.kp.nonce ∧ (zeroize s).kp.wiping = s.kp.wiping := by
  obtain ⟨hq, hts, hpick, hpages, himg⟩ := contentsCleared_rest (s := s)
  simp [zeroize_eq, ledgerEvent_rest, eraseKeys_rest, contentsCleared_kp, hq, hts, hpick, hpages, himg]

theorem lastBootNo_zeroize : lastBootNo (zeroize s) = lastBootNo s := by
  have hk : (kpEvent (ledgerEvent (eraseKeys (contentsCleared s)) 5 0) 4).kp
      = (ledgerEvent (eraseKeys (contentsCleared s)) 5 0).kp := kpEvent_rest.1
  have he : (eraseKeys (contentsCleared s)).kp = { s.kp with kCmd := none, ld := { job := none } } := by
    rw [eraseKeys_rest.1, contentsCleared_kp]
  calc lastBootNo (zeroize s)
      = lastBootNo (ledgerEvent (eraseKeys (contentsCleared s)) 5 0) :=
        lastBootNo_congr (by rw [zeroize_eq, hk]) (by rw [zeroize_eq, hk])
    _ = lastBootNo (eraseKeys (contentsCleared s)) := lastBootNo_ledgerEvent (by decide)
    _ = lastBootNo s := lastBootNo_congr (by rw [he]) (by rw [he])

theorem reg_zeroize (h : ∀ n < 16, a ≠ rWfQStatus n) (hl : a < rLdStatus ∨ rLdStatus + 0x60 ≤ a)
    (hk : a ∉ [rKpCmdCtr, rKpCmdCtr + 4, rKpDebug]) (he : a ≠ rKpEvent) (hm : a ≠ rMsixPba 0) :
    reg (zeroize s) a = reg (runStopped s) a := by
  rw [zeroize_eq, reg_kpEvent he hm, reg_ledgerEvent (by decide), reg_eraseKeys hk, reg_contentsCleared h hl]

theorem memActive_zeroize : memActive (zeroize s) = memActive s :=
  regBit_congr ((reg_zeroize (by decide) (by decide) (by decide) (by decide) (by decide)).trans reg_runStopped_memStatus)

theorem runActive_zeroize (h : Canonical s) : runActive (zeroize s) = false := by
  rw [runActive, tbState_congr (reg_zeroize (by decide) (by decide) (by decide) (by decide) (by decide))]
  exact runActive_runStopped h

theorem debugLevel_zeroize (h : Canonical s) : debugLevel (zeroize s) = 0 := by
  have hr : reg (zeroize s) rKpDebug = reg (eraseKeys (contentsCleared s)) rKpDebug := by
    rw [zeroize_eq, reg_kpEvent (by decide) (by decide), reg_ledgerEvent (by decide)]
  rw [debugLevel, regF_congr hr]
  exact debugLevel_eraseKeys (contentsCleared_canonical h).regs

theorem zeroize_canonical (h : Canonical s) : Canonical (zeroize s) :=
  (zeroize_good h.good (fun _ => trivial) (fun _ => trivial) (fun _ => trivial) (fun _ => trivial) fun _ => trivial).canonical

/-- KP_EVENT.ZEROIZED shows. -/
theorem regBit_zeroize_event (h : Canonical s) : regBit (zeroize s) rKpEvent 4 = true := by
  have hc : Canonical (eraseKeys (contentsCleared s)) := (eraseKeys_good (contentsCleared_canonical h).good).canonical
  rw [zeroize_eq]
  exact regBit_kpEvent (by rw [(ledgerEvent_rest (by decide)).1]; exact hc.regs) (by decide)

/-! ### Debug levels (R500, R501) -/

theorem setDebug_of_ne {lvl : Nat} (h : debugLevel s ≠ lvl) : setDebug s lvl
    = kpEvent (ledgerEvent (withRec (setF s rKpDebug 1 0 lvl) (fun r => { r with debug := max r.debug lvl })) 4 0) 3 := if_neg h

theorem debugLevel_setDebug {lvl : Nat} (hs : swf regReset s.regs = true) (hl : lvl ≤ 3) :
    debugLevel (setDebug s lvl) = lvl := by
  by_cases h : debugLevel s = lvl
  · rw [setDebug, if_pos h, h]
  · have hr : reg (setDebug s lvl) rKpDebug = reg (setF s rKpDebug 1 0 lvl) rKpDebug := by
      rw [setDebug_of_ne h, reg_kpEvent (by decide) (by decide), reg_ledgerEvent (by decide)]
      rfl
    rw [debugLevel, regF_congr hr, regF_setF hs (by decide) (by decide)]
    omega

theorem setDebug_rest {lvl : Nat} : (setDebug s lvl).ts = s.ts ∧ (setDebug s lvl).tile = s.tile
    ∧ (setDebug s lvl).image = s.image ∧ (setDebug s lvl).kp.nonce = s.kp.nonce := by
  by_cases h : debugLevel s = lvl
  · rw [setDebug, if_pos h]
    exact ⟨rfl, rfl, rfl, rfl⟩
  · rw [setDebug_of_ne h]
    simp [ledgerEvent_rest, withRec, withKp]

end Sys2Proof.Machine
end

section
/-! SUPPORT. Operations below the boot steps that leave Keep as it is (spec/17 R478): blocks, memory channels, ports, and what
a load writes outside its own record (spec/10 R294). -/

namespace Sys2Proof.Machine

variable {s : State} {n v t m : Nat}

@[simp] theorem ite_kp {p : Prop} [Decidable p] {a b : State} : (if p then a else b).kp = if p then a.kp else b.kp :=
  apply_ite State.kp p a b

@[simp] theorem foldl_kp {β : Type} {g : State → β → State} {l : List β} (h : ∀ s x, (g s x).kp = s.kp) :
    (l.foldl g s).kp = s.kp := foldl_keeps (f := State.kp) h

/-! ### Blocks, memory channels, ports -/

@[simp] theorem keepRegs_kp {as : List Nat} {u : State} : (keepRegs as u s).kp = s.kp := by simp [keepRegs]

@[simp] theorem fuseRegs_kp : (fuseRegs s).kp = s.kp := by simp [fuseRegs]

@[simp] theorem noteInfo_kp : (noteInfo s).kp = s.kp := by simp [noteInfo]

@[simp] theorem setBootState_kp : (setBootState s v).kp = s.kp := by simp [setBootState]

@[simp] theorem release_kp {ks : List Nat} : (release s ks).kp = s.kp := by simp [release]

@[simp] theorem fwFails_kp {img : List Byte} : (fwFails s img).kp = s.kp := by simp [fwFails]

@[simp] theorem putChan_kp {x : ChanSt} : (putChan s n x).kp = s.kp := by simp [putChan]

@[simp] theorem sizeMemory_kp : (sizeMemory s).kp = s.kp := by simp [sizeMemory]

@[simp] theorem infoValid_kp : (infoValid s).kp = s.kp := by simp [infoValid]

@[simp] theorem chanCauses_kp {xs : List ChanSt} : (chanCauses s xs).kp = s.kp := by simp [chanCauses]

@[simp] theorem memoryReady_kp : (memoryReady s).kp = s.kp := by simp [memoryReady]

@[simp] theorem setPortState_kp : (setPortState s n v).kp = s.kp := by simp [setPortState]

@[simp] theorem eyeLost_kp : (eyeLost s n).kp = s.kp := by simp [eyeLost]

@[simp] theorem inject_kp {p : Packet} : (inject s p).kp = s.kp := by simp [inject, dropped]

@[simp] theorem unitDone_kp {c : Nat} : (unitDone s t n v c).kp = s.kp := by simp [unitDone]

@[simp] theorem portDiscard_kp : (portDiscard s n).kp = s.kp := by simp [portDiscard]

@[simp] theorem portDown_kp {cause : Nat} : (portDown s n cause).kp = s.kp := by simp [portDown]

/-! ### What a load reads and writes -/

@[simp] theorem loadFails_kp {x : LoadErr} : (loadFails s x).kp = s.kp := by simp [loadFails]

@[simp] theorem noteBad_kp : (noteBad s n).kp = s.kp := by simp [noteBad]

@[simp] theorem readLine_kp {errs : List SymErr} : (readLine s n errs).1.kp = s.kp := by
  unfold readLine
  dsimp only
  repeat' split
  all_goals simp

@[simp] theorem readLines_kp {a : Nat} {errs : List (Nat × List SymErr)} : (readLines s a n errs).1.kp = s.kp := by
  unfold readLines
  generalize (none : Option Nat) = z
  generalize List.range _ = l
  induction l generalizing s z with
  | nil => rfl
  | cons i l ih =>
    rw [List.foldl_cons, ih]
    exact readLine_kp

@[simp] theorem readSource_kp {dpa : Nat} {file : Option (List Byte)} {errs : List (Nat × List SymErr)} :
    (readSource s dpa n file errs).1.kp = s.kp := by
  unfold readSource
  repeat' split
  · rfl
  · exact readLines_kp
  · rfl

@[simp] theorem writeExtents_kp {bs : List Byte} {es : List (Nat × Nat × Nat)} : (writeExtents s n bs es).kp = s.kp := by
  simp [writeExtents]

@[simp] theorem writeCells_kp {b : Bool} {rows : List Nat} : (writeCells s t m n b rows).kp = s.kp := rfl

@[simp] theorem writePage_kp {b : Bool} {rows : List Nat} : (writePage s t m n b rows).kp = s.kp := by simp [writePage]

@[simp] theorem writeF8Set_kp {f : FFmt} {bs : List Byte} : (writeF8Set s t m n f bs).1.kp = s.kp := by simp [writeF8Set]

@[simp] theorem writePageRecord_kp {bs : List Byte} : (writePageRecord s t bs n v).kp = s.kp := by
  unfold writePageRecord
  dsimp only
  split <;> simp

@[simp] theorem writeSect_kp {b : List Byte} {x : Sect} : (writeSect b s x).kp = s.kp := by
  unfold writeSect
  dsimp only
  split <;> simp [writeCode, writeTstore, writeWeights, writeWarpcfg, writeSlots]

@[simp] theorem writeMarrow_kp {b : List Byte} : (writeMarrow b s).kp = s.kp := by simp [writeMarrow]

@[simp] theorem clearTables_kp : (clearTables s).kp = s.kp := by simp [clearTables]

@[simp] theorem writeImage_kp {b : List Byte} : (writeImage b s).kp = s.kp := by simp [writeImage]

@[simp] theorem writeUpTo_kp {b : List Byte} : (writeUpTo b n s).kp = s.kp := by simp [writeUpTo]

@[simp] theorem restoreRecords_kp {p : Nat → Bool} : (restoreRecords s p).kp = s.kp := by
  unfold restoreRecords
  split <;> simp

@[simp] theorem publishWeft_kp {b : List Byte} : (publishWeft b s).kp = s.kp := by
  unfold publishWeft
  split <;> simp [writeJobs]

@[simp] theorem publishImage_kp {b : List Byte} {signed : Bool} : (publishImage b signed s).kp = s.kp := by
  simp [publishImage, ldDone, publishDigests, clearProv, clearWarpPlane, publishWarp]

end Sys2Proof.Machine
end

section
/-! SUPPORT. What a start leaves alone (spec/17 R478, R482, R485): BOOT_NO and RESET_CAUSE of its record, copy A of the owner
record, K_cmd, and whether a rewrite of DDR4 is awaited. -/

namespace Sys2Proof.Machine

variable {s u : State} {e : BootEnv} {k n : Nat} {late : Bool}

/-- What a start leaves alone of Keep. -/
def bootView (k : KpSt) : Option (Nat × Nat) × Option OwnerRec × Option (List Byte) × Bool :=
  (k.cur.map fun r => (r.bootNo, r.cause), k.flash.ownerA, k.kCmd, k.wiping)

@[simp] theorem bootView_ite {p : Prop} [Decidable p] {a b : KpSt} :
    bootView (if p then a else b) = if p then bootView a else bootView b := apply_ite bootView p a b

/-! ### The record of the start and the flash -/

@[simp] theorem bootView_withKp {f : KpSt → KpSt} (h : ∀ k, (f k).cur = k.cur ∧ (f k).flash.ownerA = k.flash.ownerA
    ∧ (f k).kCmd = k.kCmd ∧ (f k).wiping = k.wiping) : bootView (withKp s f).kp = bootView s.kp := by
  obtain ⟨hc, ho, hk, hw⟩ := h s.kp
  simp only [bootView, withKp, hc, ho, hk, hw]

@[simp] theorem bootView_withFlash {f : Flash → Flash} (h : ∀ x, (f x).ownerA = x.ownerA) :
    bootView (withFlash s f).kp = bootView s.kp := bootView_withKp fun _ => ⟨rfl, h _, rfl, rfl⟩

@[simp] theorem bootView_withRec {f : BootRec → BootRec} (h : ∀ r, (f r).bootNo = r.bootNo ∧ (f r).cause = r.cause) :
    bootView (withRec s f).kp = bootView s.kp := by
  unfold bootView withRec withKp
  cases hc : s.kp.cur <;> simp [hc, h]

@[simp] theorem bootView_writeRecord : bootView (writeRecord s).kp = bootView s.kp := by
  unfold writeRecord
  split <;> simp

@[simp] theorem bootView_foldl {β : Type} {g : State → β → State} {l : List β}
    (h : ∀ s x, bootView (g s x).kp = bootView s.kp) : bootView (l.foldl g s).kp = bootView s.kp :=
  foldl_keeps (f := fun s => bootView s.kp) h

/-! ### The answers of a step -/

@[simp] theorem bootView_putStep {x : StepRec} : bootView (putStep s k x).kp = bootView s.kp := by simp [putStep]

@[simp] theorem bootView_endStep {outcome cause detail : Nat} :
    bootView (endStep s e k outcome cause detail).kp = bootView s.kp := by simp [endStep]

@[simp] theorem bootView_passStep : bootView (passStep s e k).kp = bootView s.kp := by simp [passStep]

@[simp] theorem bootView_haltStep {cause : Nat} : bootView (haltStep s e k cause).kp = bootView s.kp := by simp [haltStep]

@[simp] theorem bootView_markBad : bootView (markBad s k).kp = bootView s.kp := by simp [markBad]

@[simp] theorem bootView_degrade : bootView (degrade s).kp = bootView s.kp := by simp [degrade]

@[simp] theorem bootView_startFirmware : bootView (startFirmware s k).kp = bootView s.kp := by simp [startFirmware]

@[simp] theorem bootView_trySlots {ks : List Nat} : bootView (trySlots ks s).1.kp = bootView s.kp := by
  induction ks generalizing s with
  | nil => rfl
  | cons k ks ih =>
    unfold trySlots
    split
    · exact bootView_startFirmware
    · rw [ih, bootView_markBad]
      simp

/-! ### The load of S12 -/

theorem bootView_withLd {j : Option LoadJob} : bootView (withLd s j).kp = bootView s.kp := rfl

@[simp] theorem bootView_setLoadJob {j : Option LoadJob} : bootView (setLoadJob s j).kp = bootView s.kp := by
  rw [setLoadJob, bootView_withLd]
  simp

@[simp] theorem bootView_loadFirst {cmd : Option (KpCmd × List Byte × Nat)} {dpa : Nat} {file : Option (List Byte)}
    {errs : List (Nat × List SymErr)} : bootView (loadFirst s cmd dpa n file errs).1.kp = bootView s.kp := by
  unfold loadFirst
  split
  · simp
  · dsimp only
    split
    · simp
    · split <;> simp

@[simp] theorem bootView_loadLost {x : LoadErr} : bootView (loadLost s x).kp = bootView s.kp := by simp [loadLost]

@[simp] theorem bootView_loadSecond {j : LoadJob} {errs : List (Nat × List SymErr)} :
    bootView (loadSecond s j errs).1.kp = bootView s.kp := by
  unfold loadSecond
  dsimp only
  split
  · simp
  · split <;> simp

/-! ### The steps -/

@[simp] theorem bootView_bootS0 : bootView (bootS0 e late s).kp = bootView s.kp := by simp [bootS0]

@[simp] theorem bootView_bootS1 : bootView (bootS1 e late s).kp = bootView s.kp := by
  unfold bootS1
  dsimp only
  repeat' split
  all_goals simp

@[simp] theorem bootView_bootS2 : bootView (bootS2 e late s).kp = bootView s.kp := by simp [bootS2]

@[simp] theorem bootView_bootS3 : bootView (bootS3 e late s).kp = bootView s.kp := by simp [bootS3]

@[simp] theorem bootView_bootS4 : bootView (bootS4 e late s).kp = bootView s.kp := by simp [bootS4]

@[simp] theorem bootView_trainAll : bootView (trainAll e late s).kp = bootView s.kp := by
  unfold trainAll
  extract_lets xs fails spd all bad lost s₁ s₂ bb s₃
  have h₁ : bootView s₁.kp = bootView s.kp := by simp [s₁]
  have h₂ : bootView s₂.kp = bootView s₁.kp := by simp [s₂]
  clear_value s₂
  have h₃ : bootView s₃.kp = bootView s₂.kp := congrArg bootView chanCauses_kp
  rw [bootView_endStep, ← h₁, ← h₂, ← h₃]
  simp

@[simp] theorem bootView_bootS5 : bootView (bootS5 e late s).kp = bootView s.kp := by simp [bootS5]

@[simp] theorem bootView_bootS6 : bootView (bootS6 e s).kp = bootView s.kp := by simp [bootS6]

@[simp] theorem bootView_bootS7 : bootView (bootS7 e late s).kp = bootView s.kp := by
  unfold bootS7
  extract_lets all cnt bad alt grp bm s₁ s₂
  have h₁ : bootView s₁.kp = bootView s.kp :=
    (bootView_withRec (f := fun r => { r with grp := grp }) fun r => ⟨rfl, rfl⟩).trans (congrArg bootView rfl)
  rw [release_kp, bootView_endStep, h₁]

@[simp] theorem bootView_bootS8 : bootView (bootS8 e late s).kp = bootView s.kp := by simp [bootS8]

@[simp] theorem bootView_bootS9 : bootView (bootS9 e late s).kp = bootView s.kp := by simp [bootS9, skipS9]

@[simp] theorem bootView_bootS10 : bootView (bootS10 e late s).kp = bootView s.kp := by
  unfold bootS10
  extract_lets bad s₁ s₂ s₃ out
  have h₁ : bootView s₁.kp = bootView s.kp := by simp [s₁]
  have h₂ : bootView s₂.kp = bootView s₁.kp := by simp [s₂]
  have h₃ : bootView s₃.kp = bootView s₂.kp := bootView_foldl fun t r => by split <;> simp
  rw [release_kp, bootView_endStep, h₃, h₂, h₁]

@[simp] theorem bootView_applyOwner {r : Option OwnerRec} : bootView (applyOwner s r).kp = bootView s.kp := by
  unfold applyOwner
  split <;> simp

@[simp] theorem bootView_bootS11 : bootView (bootS11 e late s).kp = bootView s.kp := by simp [bootS11]

@[simp] theorem bootView_bootS12 : bootView (bootS12 e late s).kp = bootView s.kp := by
  unfold bootS12
  dsimp only
  repeat' split
  all_goals simp

@[simp] theorem bootView_bootS13 : bootView (bootS13 e late s).kp = bootView s.kp := by simp [bootS13]

@[simp] theorem bootView_bootS14 : bootView (bootS14 e late s).kp = bootView s.kp := by simp [bootS14]

@[simp] theorem bootView_bootS15 : bootView (bootS15 e s).kp = bootView s.kp := by simp [bootS15, finishBoot]

/-! ### The whole start -/

theorem bootView_bootStep : bootView (bootStep k e late s).kp = bootView s.kp := by
  unfold bootStep
  split <;> simp

theorem bootView_runStep : bootView (runStep e s k).kp = bootView s.kp := by simp [runStep, bootView_bootStep]

theorem bootView_bootFrom : bootView (bootFrom k e s).kp = bootView s.kp := bootView_foldl fun _ _ => bootView_runStep

/-- The record of a new start: the next BOOT_NO and its RESET_CAUSE. -/
theorem newRecord_id {prev : Option BootRec} {cause : Nat} {aon : List (Nat × Nat × Nat)} :
    (newRecord prev cause aon).bootNo = (prev.getD {}).bootNo + 1 ∧ (newRecord prev cause aon).cause = cause := by
  have hfold : ∀ r : BootRec, (aon.foldl recordEvent r).bootNo = r.bootNo ∧ (aon.foldl recordEvent r).cause = r.cause := by
    induction aon with
    | nil => exact fun _ => ⟨rfl, rfl⟩
    | cons x aon ih => exact fun r => ih (recordEvent r x)
  obtain ⟨hno, hcause⟩ := hfold _
  refine ⟨hno.trans ?_, hcause⟩
  cases prev <;> rfl

theorem warmReset_kp : (warmReset s).kp = { flash := s.kp.flash, mctpOut := s.kp.mctpOut, cur := s.kp.cur, aon := s.kp.aon } := by
  simp [warmReset, blankState]

/-- A warm start leaves a record with the next BOOT_NO and its RESET_CAUSE, copy A of the owner record as it was, no K_cmd, and no
rewrite of DDR4 to await. -/
theorem bootView_warmStart {cause : Nat} :
    bootView (warmStart cause e s).kp = (some (lastBootNo s + 1, cause), s.kp.flash.ownerA, none, false) := by
  rw [warmStart, bootStart, bootView_bootFrom, noteInfo_kp]
  obtain ⟨hno, hcause⟩ := newRecord_id (prev := s.kp.cur <|> s.kp.flash.ledger.head?) (cause := cause) (aon := s.kp.aon)
  simp only [bootView, withKp, warmReset_kp, lastBootNo, Option.map_some, hno, hcause]

theorem started_warmStart {cause : Nat} (h : lastBootNo u = lastBootNo s) : Started s (warmStart cause e u) cause := by
  rw [started_iff, ← h]
  exact congrArg Prod.fst bootView_warmStart

theorem warmStart_rest {cause : Nat} : (warmStart cause e s).kp.flash.ownerA = s.kp.flash.ownerA
    ∧ (warmStart cause e s).kp.kCmd = none ∧ (warmStart cause e s).kp.wiping = false := by
  have hv := bootView_warmStart (e := e) (s := s) (cause := cause)
  simp only [bootView, Prod.mk.injEq] at hv
  exact hv.2

end Sys2Proof.Machine
end

section
/-! SUPPORT. The effects of the critical commands once Keep has accepted them (spec/16 R451, spec/17 R484, R488, R489, R496-R498,
R500-R502). Each begins in the state `w` of `Accepted`. -/

namespace Sys2Proof.Machine

variable {s v w : State} {src : CmdSrc} {c : KpCmd} {key body : List Byte} {ctr : Nat} {e : BootEnv}

/-- The newest boot record is that of the state in which the command arrived. -/
theorem Accepted.lastBootNo {op : Nat} (h : Accepted src op s c key ctr body w) : lastBootNo w = lastBootNo s := by
  obtain ⟨-, l, rfl⟩ := h.eq
  rfl

theorem Accepted.reg {op a : Nat} (h : Accepted src op s c key ctr body w) (ha : a ≠ rKpCmdCtr) (ha' : a ≠ rKpCmdCtr + 4) :
    reg w a = reg s a := by
  obtain ⟨-, l, rfl⟩ := h.eq
  exact reg_setReg64_ne ha ha'

/-- The fields that an accepted command finds as the state before it had them. -/
theorem Accepted.rest {op : Nat} (h : Accepted src op s c key ctr body w) :
    w.fuse = s.fuse ∧ w.kp.flash = s.kp.flash ∧ w.kp.cur = s.kp.cur ∧ w.kp.svn = s.kp.svn ∧ w.kp.policy = s.kp.policy
      ∧ w.kp.ownerKey = s.kp.ownerKey ∧ w.kp.wiping = false := by
  obtain ⟨hw, l, rfl⟩ := h.eq
  exact ⟨rfl, rfl, rfl, rfl, rfl, rfl, hw⟩

/-! ### SET_CAP (R451) -/

theorem regF_updateCapEff (hs : swf regReset s.regs = true) :
    regF (updateCapEff s) rPmCapEff 19 0 = max (regF s rPmCap 19 0) (regF s rPmFloor 19 0)
      ∧ regF (updateCapEff s) rPmStatus 27 26 = regF s rPmStatus 27 26 := by
  have hcap : regF s rPmCap 19 0 < 2 ^ 20 := Nat.mod_lt _ (by decide)
  have hfloor : regF s rPmFloor 19 0 < 2 ^ 20 := Nat.mod_lt _ (by decide)
  constructor
  · rw [regF_congr (reg_updateCapEff_eq (by decide)), regF_congr (reg_setRegBit_ne (by decide)),
      regF_setF hs (by decide) (by decide)]
    omega
  · rw [regF_congr (reg_updateCapEff_eq (by decide)), regF_setRegBit_apart (swf_setF hs) (by decide)]
    exact regF_congr (reg_setF_ne (by decide))

theorem setPackageCap_stands (hs : swf regReset s.regs = true) {mw : Nat} (h : 120000 ≤ mw ∧ mw ≤ 450000) :
    regF (setPackageCap s mw 1).1 rPmCap 19 0 = mw
      ∧ regF (setPackageCap s mw 1).1 rPmCapEff 19 0 = max mw (regF s rPmFloor 19 0)
      ∧ regF (setPackageCap s mw 1).1 rPmStatus 27 26 = 1 := by
  have hcs : swf regReset (setF s rPmCap 19 0 mw).regs = true := swf_setF hs
  have hset : (setPackageCap s mw 1).1 = updateCapEff (setF (setF s rPmCap 19 0 mw) rPmStatus 27 26 1) := by
    rw [setPackageCap, if_neg (by omega)]
  have hcap : regF (setF (setF s rPmCap 19 0 mw) rPmStatus 27 26 1) rPmCap 19 0 = mw := by
    rw [regF_congr (reg_setF_ne (by decide)), regF_setF hs (by decide) (by decide)]
    omega
  obtain ⟨heff, hstat⟩ := regF_updateCapEff (s := setF (setF s rPmCap 19 0 mw) rPmStatus 27 26 1) (swf_setF hcs)
  rw [hset, heff, hstat, hcap, regF_congr (reg_updateCapEff (by decide) (by decide)), hcap,
    regF_congr (a := rPmFloor) ((reg_setF_ne (by decide)).trans (reg_setF_ne (by decide))),
    regF_setF hcs (by decide) (by decide)]
  exact ⟨rfl, rfl, rfl⟩

theorem setPackageCap_refused {mw : Nat} (h : mw < 120000 ∨ 450000 < mw) :
    (setPackageCap s mw 1).1 = raise s 0x0A02 noSource 0 := by rw [setPackageCap, if_pos h]

theorem setCap_effect (hs : Canonical s) (h : Accepted src 0x21 s c key ctr body w) (hl : body.length = 4) :
    ∃ u, exec (.setCap src) s = .next (keepNext u)
      ∧ (120000 ≤ leAt body 0 4 ∧ leAt body 0 4 ≤ 450000 → regF u rPmCap 19 0 = leAt body 0 4
        ∧ regF u rPmCapEff 19 0 = max (leAt body 0 4) (regF s rPmFloor 19 0) ∧ regF u rPmStatus 27 26 = 1)
      ∧ (leAt body 0 4 < 120000 ∨ 450000 < leAt body 0 4 →
        regF u rPmCap 19 0 = regF s rPmCap 19 0 ∧ Raised u 0x0A02 noSource) := by
  refine ⟨_, congrArg Host.Outcome.next ((onCritical_accepted h).trans (congrArg keepNext (if_neg (Decidable.not_not.2 hl)))),
    fun hr => ?_, fun hr => ?_⟩
  · obtain ⟨hcap, heff, hstat⟩ := setPackageCap_stands (h.canonical hs).regs hr
    rw [regF_congr (reg_respondTagged (by decide)), regF_congr (reg_respondTagged (by decide)),
      regF_congr (reg_respondTagged (by decide)), hcap, heff, hstat, regF_congr (h.reg (by decide) (by decide))]
    exact ⟨rfl, rfl, rfl⟩
  · rw [regF_congr (reg_respondTagged (by decide)), setPackageCap_refused hr, regF_congr (reg_raise (by decide)),
      regF_congr (h.reg (by decide) (by decide))]
    exact ⟨rfl, raised_respondTagged.2 (setPackageCap_refused hr ▸ raised_raise)⟩

/-! ### FW_UPDATE (R497) -/

theorem writeSlot_firmware {slot : Nat} {bs : List Byte} (h : slot < 2) : slotImage (writeSlot s slot bs) slot = bs
    ∧ (writeSlot s slot bs).kp.flash.preferred = slot
    ∧ (writeSlot s slot bs).kp.flash.bootImg = s.kp.flash.bootImg := by
  obtain rfl | rfl : slot = 0 ∨ slot = 1 := by omega
  · exact ⟨rfl, rfl, rfl⟩
  · exact ⟨rfl, rfl, rfl⟩

theorem writeSlot_bootImage {bs : List Byte} : (writeSlot s 2 bs).kp.flash.bootImg = bs
    ∧ (writeSlot s 2 bs).kp.flash.slotA = s.kp.flash.slotA ∧ (writeSlot s 2 bs).kp.flash.slotB = s.kp.flash.slotB :=
  ⟨rfl, rfl, rfl⟩

theorem lastBootNo_writeSlot {slot : Nat} {bs : List Byte} : lastBootNo (writeSlot s slot bs) = lastBootNo s := by
  refine lastBootNo_congr rfl ?_
  unfold writeSlot withFlash withKp
  dsimp only
  split <;> rfl

theorem readUpdate_kp {a n : Nat} {errs : List (Nat × List SymErr)} {r : State × Bool × List Byte}
    (h : readUpdate s a n errs = some r) : r.1.kp = s.kp := by
  unfold readUpdate at h
  split at h
  · cases h
    exact readLines_kp
  · cases h

/-- FW_UPDATE once the image has been read without an uncorrectable line. -/
def fwUpdated (x : State) (bs : List Byte) (slot len : Nat) (flashOk warm : Bool) (e : BootEnv) (c : KpCmd) (key : List Byte)
    (ctr : Nat) : State :=
  if slot < 2 && !fwValid x bs then respondTagged (fwFails x bs) c key ctr (if fwSigned x bs then 0x0B03 else 0x0B02) []
  else if !flashOk then failTagged (spoilSlot x slot len) c key ctr 0x0B0A
  else
    let s := respondTagged (writeSlot x slot bs) c key ctr 0 []
    if warm && decide (slot < 2) then warmStart 4 e s else s

section
variable {flashOk warm : Bool} {errs : List (Nat × List SymErr)} {x : State} {bs : List Byte} {slot len : Nat}

theorem exec_fwUpdate (h : Accepted src 0x22 s c key ctr body w) (hl : body.length = 16) (hs : leAt body 12 1 ≤ 2)
    (hrun : ¬(leAt body 12 1 = (curRec w).slot % 4 ∧ leAt body 12 1 < 2))
    (hlen : leAt body 8 4 ≤ (if leAt body 12 1 = 2 then 16 else 4) * 2 ^ 20)
    (hread : readUpdate w (leAt body 0 8) (leAt body 8 4) errs = some (x, false, bs)) :
    exec (.fwUpdate src flashOk warm errs e) s
      = .next (keepNext (fwUpdated x bs (leAt body 12 1) (leAt body 8 4) flashOk warm e c key ctr)) := by
  show execFwUpdate src flashOk warm errs e s = _
  have hok : ¬(2 < leAt body 12 1 ∨ leAt body 12 1 = (curRec w).slot % 4 ∧ leAt body 12 1 < 2
      ∨ (if leAt body 12 1 = 2 then 16 else 4) * 2 ^ 20 < leAt body 8 4) := by
    rintro (h2 | h2 | h2)
    · omega
    · exact hrun h2
    · omega
  rw [execFwUpdate, onCritical_accepted h, if_neg (Decidable.not_not.2 hl), if_neg hok, hread]
  rfl

theorem fwUpdated_valid (hs : slot < 2) (hv : fwValid x bs = true) (hf : flashOk = true) :
    fwUpdated x bs slot len flashOk warm e c key ctr = if warm
      then warmStart 4 e (respondTagged (writeSlot x slot bs) c key ctr 0 [])
      else respondTagged (writeSlot x slot bs) c key ctr 0 [] := by
  simp [fwUpdated, hs, hv, hf]

theorem fwUpdated_invalid (hs : slot < 2) (hv : fwValid x bs = false) :
    (fwUpdated x bs slot len flashOk warm e c key ctr).kp.flash = x.kp.flash := by
  simp [fwUpdated, hs, hv]

theorem fwUpdated_bootImage (hs : slot = 2) (hf : flashOk = true) :
    fwUpdated x bs slot len flashOk warm e c key ctr = respondTagged (writeSlot x slot bs) c key ctr 0 [] := by
  simp [fwUpdated, hs, hf]

theorem respondTagged_flash {st : Nat} : (respondTagged s c key ctr st bs).kp.flash = s.kp.flash := by simp

theorem slotImage_congr {s u : State} (h : u.kp.flash = s.kp.flash) {k : Nat} : slotImage u k = slotImage s k := by
  rw [slotImage, h, slotImage]

theorem lastBootNo_respondTagged {st : Nat} : lastBootNo (respondTagged s c key ctr st bs) = lastBootNo s :=
  lastBootNo_congr (by simp) (by simp)

/-- A valid image in a firmware slot, the warm reset after it, an image that is not valid, and the boot image. -/
theorem fwUpdate_effect (h : Accepted src 0x22 s c key ctr body w) (hl : body.length = 16) (hs : leAt body 12 1 ≤ 2)
    (hrun : ¬(leAt body 12 1 = (curRec w).slot % 4 ∧ leAt body 12 1 < 2))
    (hlen : leAt body 8 4 ≤ (if leAt body 12 1 = 2 then 16 else 4) * 2 ^ 20)
    (hread : readUpdate w (leAt body 0 8) (leAt body 8 4) errs = some (x, false, bs)) :
    ∃ u, exec (.fwUpdate src flashOk warm errs e) s = .next (keepNext u)
      ∧ (leAt body 12 1 < 2 → fwValid x bs = true → flashOk = true → warm = false → slotImage u (leAt body 12 1) = bs
        ∧ u.kp.flash.preferred = leAt body 12 1 ∧ u.kp.flash.bootImg = s.kp.flash.bootImg)
      ∧ (leAt body 12 1 < 2 → fwValid x bs = true → flashOk = true → warm = true → Started s u 4)
      ∧ (leAt body 12 1 < 2 → fwValid x bs = false → u.kp.flash = s.kp.flash)
      ∧ (leAt body 12 1 = 2 → flashOk = true → u.kp.flash.bootImg = bs ∧ u.kp.flash.slotA = s.kp.flash.slotA
        ∧ u.kp.flash.slotB = s.kp.flash.slotB) := by
  have hx : x.kp = w.kp := readUpdate_kp hread
  have hflash : x.kp.flash = s.kp.flash := hx ▸ h.rest.2.1
  refine ⟨_, exec_fwUpdate h hl hs hrun hlen hread, fun h2 hv hf hw => ?_, fun h2 hv hf hw => ?_, fun h2 hv => ?_,
    fun h2 hf => ?_⟩
  · obtain ⟨himg, hpref, hboot⟩ := writeSlot_firmware (s := x) (bs := bs) h2
    rw [fwUpdated_valid h2 hv hf, hw, if_neg (by decide), slotImage_congr respondTagged_flash, respondTagged_flash, himg,
      hpref, hboot, hflash]
    exact ⟨rfl, rfl, rfl⟩
  · rw [fwUpdated_valid h2 hv hf, hw, if_pos rfl]
    refine started_warmStart ?_
    rw [lastBootNo_respondTagged, lastBootNo_writeSlot, ← h.lastBootNo]
    exact lastBootNo_congr (by rw [hx]) (by rw [hx])
  · rw [fwUpdated_invalid h2 hv, hflash]
  · obtain ⟨hboot, ha, hb⟩ := writeSlot_bootImage (s := x) (bs := bs)
    rw [fwUpdated_bootImage h2 hf, respondTagged_flash, h2, hboot, ha, hb, hflash]
    exact ⟨rfl, rfl, rfl⟩

end

/-! ### FARM_POWER (R496) -/

/-- The farm power key and the two bits of KW_FARM_CFG set. -/
def farmKeyed (s : State) (en coord : Bool) (k : List Byte) : State :=
  let s := setRegBit (setRegBit s rKwFarmCfg 31 en) rKwFarmCfg 30 coord
  { s with kw := { s.kw with farmKey := k } }

theorem farmKeyed_bits {en coord : Bool} {k : List Byte} (hs : swf regReset s.regs = true) :
    regBit (farmKeyed s en coord k) rKwFarmCfg 31 = en ∧ regBit (farmKeyed s en coord k) rKwFarmCfg 30 = coord := by
  have hr : reg (farmKeyed s en coord k) rKwFarmCfg
      = reg (setRegBit (setRegBit s rKwFarmCfg 31 en) rKwFarmCfg 30 coord) rKwFarmCfg := reg_of_regs rfl
  have hs' : swf regReset (setRegBit s rKwFarmCfg 31 en).regs = true := swf_setF hs
  rw [regBit_congr hr, regBit_congr hr, regBit_setRegBit_ne hs' (by decide), regBit_setRegBit_same hs (by decide),
    regBit_setRegBit_same hs' (by decide)]
  exact ⟨rfl, rfl⟩

theorem farmPower_effect (hs : Canonical s) (h : Accepted src 0x23 s c key ctr body w) (hl : body.length = 40)
    (hp : (leAt body 0 1 % 2 == 1) = false ∨ leAt s.kp.policy 2 1 ≠ 0) :
    ∃ u, exec (.farmPower src) s = .next (keepNext u)
      ∧ u.kw.farmKey = (if leAt body 0 1 % 2 == 1
        then xorBytes (slice body 8 32) (shake256 32 (ascii "EX20-WRAP" ++ key ++ leBytes 8 ctr)) else [])
      ∧ regBit u rKwFarmCfg 31 = (leAt body 0 1 % 2 == 1) ∧ regBit u rKwFarmCfg 30 = (leAt body 1 1 % 2 == 1) := by
  obtain ⟨-, -, -, -, hpol, -, -⟩ := h.rest
  have hallow : ¬((leAt body 0 1 % 2 == 1) && leAt w.kp.policy 2 1 == 0) = true := by
    rw [hpol]
    rcases hp with hp | hp <;> simp [hp]
  obtain ⟨hen, hcoord⟩ := farmKeyed_bits (h.canonical hs).regs (en := leAt body 0 1 % 2 == 1)
    (coord := leAt body 1 1 % 2 == 1) (k := if leAt body 0 1 % 2 == 1
      then xorBytes (slice body 8 32) (shake256 32 (ascii "EX20-WRAP" ++ key ++ leBytes 8 ctr)) else [])
  refine ⟨respondTagged (farmKeyed w _ _ _) c key ctr 0 [], ?_, ?_, (regBit_congr (reg_respondTagged (by decide))).trans hen,
    (regBit_congr (reg_respondTagged (by decide))).trans hcoord⟩
  · show execFarmPower src s = _
    rw [execFarmPower, onCritical_accepted h, if_neg (Decidable.not_not.2 hl), if_neg hallow]
    rfl
  · rw [respondTagged_rest.1]
    rfl

end Sys2Proof.Machine
end

section
/-! SUPPORT. The effects of DEBUG_UNLOCK, ZEROIZE, FUSE_ADVANCE, SET_POLICY, LEDGER_CLEAR and OWNER_TRANSFER once Keep has accepted
them (spec/17 R484, R488, R489, R498, R500-R502). -/

namespace Sys2Proof.Machine

variable {s v w : State} {src : CmdSrc} {c : KpCmd} {key body bs : List Byte} {ctr st : Nat} {e : BootEnv}

/-! ### DEBUG_UNLOCK (R500, R501) -/

theorem debugLevel_respondTagged : debugLevel (respondTagged s c key ctr st bs) = debugLevel s :=
  regF_congr (reg_respondTagged (by decide))

theorem debugLock_effect (hs : Canonical s) (h : Accepted src 0x24 s c key ctr body w) (hl : 8 ≤ body.length)
    (h0 : leAt body 0 1 = 0) : ∃ u, exec (.debugUnlock src false) s = .next (keepNext u) ∧ debugLevel u = 0 := by
  refine ⟨respondTagged (setDebug w 0) c key ctr 0 [], ?_, ?_⟩
  · show execDebugUnlock src false s = _
    rw [execDebugUnlock, onCritical_accepted h, if_neg (by omega), if_pos h0]
  · rw [debugLevel_respondTagged, debugLevel_setDebug (h.canonical hs).regs (by decide)]

/-- The nonce is used up. -/
def nonceUsed (s : State) : State := withKp s (fun k => { k with nonce := none })

theorem useNonce_valid {nonce : List Byte} (h : s.kp.nonce = some nonce) : useNonce s nonce false = (nonceUsed s, true) := if_pos h

theorem nonceUsed_canonical (h : Canonical s) : Canonical (nonceUsed s) := (withKp_good h.good fun _ _ => trivial).canonical

/-- The level granted, after ZEROIZE where it is level 3. -/
def debugGranted (s : State) (lvl : Nat) : State := setDebug (if lvl = 3 then zeroize s else s) lvl

theorem debugLevel_debugGranted {lvl : Nat} (hs : Canonical s) (hl : lvl ≤ 3) : debugLevel (debugGranted s lvl) = lvl := by
  refine debugLevel_setDebug ?_ hl
  split
  · exact (zeroize_canonical hs).regs
  · exact hs.regs

theorem debugGranted_nonce {lvl : Nat} : (debugGranted s lvl).kp.nonce = s.kp.nonce := by
  rw [debugGranted]
  split <;> simp [setDebug_rest, zeroize_rest]

theorem debugGranted_three : (debugGranted s 3).ts = [] ∧ (debugGranted s 3).tile.pick = [] ∧ (debugGranted s 3).image = none := by
  obtain ⟨hts, htile, himg, -⟩ := setDebug_rest (s := zeroize s) (lvl := 3)
  obtain ⟨zts, zpick, -, zimg, -⟩ := zeroize_rest (s := s)
  rw [debugGranted, if_pos rfl, hts, htile, himg]
  exact ⟨zts, zpick, zimg⟩

/-- A request for a debug level whose signature has been judged. -/
def debugAnswered (s : State) (lvl : Nat) (signed : Bool) (c : KpCmd) (key : List Byte) (ctr : Nat) : State :=
  if signed then respondTagged (debugGranted s lvl) c key ctr 0 [] else failTagged s c key ctr 0x0B15

theorem exec_debugUnlock {lvl : Nat} {nonce : List Byte} (h : Accepted src 0x24 s c key ctr body w) (hlvl : lvl = leAt body 0 1)
    (hnonce : nonce = slice body 8 32) (h0 : 0 < lvl) (hmax : lvl ≤ leAt w.kp.policy 1 1) (h3 : lvl ≤ 3) (hl : body.length = 2460)
    (hn : w.kp.nonce = some nonce) :
    exec (.debugUnlock src false) s = .next (keepNext (debugAnswered (nonceUsed w) lvl
      (Config.mldsaVerify (if lvl = 3 then vendorKey w else w.kp.ownerKey) (ascii "EX20-DEBUG")
        (leBytes 1 lvl ++ nonce ++ uidBytes w) (slice body 40 2420)) c key ctr)) := by
  subst hlvl hnonce
  show execDebugUnlock src false s = _
  rw [execDebugUnlock, onCritical_accepted h, if_neg (by omega), if_neg (by omega), if_neg (by omega), if_neg (Decidable.not_not.2 hl),
    useNonce_valid hn]
  dsimp only
  generalize Config.mldsaVerify (if leAt body 0 1 = 3 then vendorKey w else w.kp.ownerKey) (ascii "EX20-DEBUG") _ _ = signed
  cases signed <;> rfl

theorem debugAnswered_effect {lvl : Nat} {signed : Bool} (hs : Canonical s) (h3 : lvl ≤ 3) :
    (debugAnswered s lvl signed c key ctr).kp.nonce = s.kp.nonce
      ∧ debugLevel (debugAnswered s lvl signed c key ctr) = (if signed then lvl else debugLevel s)
      ∧ (signed = true → lvl = 3 → (debugAnswered s lvl signed c key ctr).ts = []
        ∧ (debugAnswered s lvl signed c key ctr).tile.pick = [] ∧ (debugAnswered s lvl signed c key ctr).image = none) := by
  cases signed with
  | false =>
    refine ⟨?_, ?_, nofun⟩
    · simp [debugAnswered, failTagged]
    · exact regF_congr (reg_failTagged (by decide) (by decide))
  | true =>
    have ha : debugAnswered s lvl true c key ctr = respondTagged (debugGranted s lvl) c key ctr 0 [] := rfl
    rw [ha, debugLevel_respondTagged, debugLevel_debugGranted hs h3]
    refine ⟨?_, rfl, ?_⟩
    · simp [debugGranted_nonce]
    · rintro - rfl
      simpa using debugGranted_three

theorem debugUnlock_effect {lvl : Nat} {nonce : List Byte} {signed : Bool} (hs : Canonical s)
    (h : Accepted src 0x24 s c key ctr body w) (hlvl : lvl = leAt body 0 1) (hnonce : nonce = slice body 8 32) (h0 : 0 < lvl)
    (hmax : lvl ≤ leAt w.kp.policy 1 1) (h3 : lvl ≤ 3) (hl : body.length = 2460) (hn : w.kp.nonce = some nonce)
    (hsigned : signed = Config.mldsaVerify (if lvl = 3 then vendorKey w else w.kp.ownerKey) (ascii "EX20-DEBUG")
      (leBytes 1 lvl ++ nonce ++ uidBytes w) (slice body 40 2420)) :
    ∃ u, exec (.debugUnlock src false) s = .next (keepNext u) ∧ u.kp.nonce = none
      ∧ debugLevel u = (if signed then lvl else debugLevel s)
      ∧ (signed = true → lvl = 3 → u.ts = [] ∧ u.tile.pick = [] ∧ u.image = none) := by
  have hlevel : debugLevel (nonceUsed w) = debugLevel s := regF_congr (h.reg (by decide) (by decide))
  have heff := debugAnswered_effect (c := c) (key := key) (ctr := ctr) (signed := signed)
    (nonceUsed_canonical (h.canonical hs)) h3
  rw [hlevel] at heff
  exact ⟨_, hsigned ▸ exec_debugUnlock h hlvl hnonce h0 hmax h3 hl hn, heff⟩

/-! ### ZEROIZE (R502) -/

/-- ZEROIZE, with the rewrite of DDR4 begun where the flag asks for it. -/
def zeroizedWith (s : State) (ddr4 : Bool) : State :=
  if ddr4 then withKp (memoryInactive (zeroize s)) (fun k => { k with wiping := true }) else zeroize s

theorem exec_zeroize (h : Accepted src 0x25 s c key ctr body w) (hl : body.length = 4) :
    exec (.zeroize src) s = .next (keepNext (respondTagged (zeroizedWith w (leAt body 0 4 % 2 == 1)) c key ctr 0 [])) := by
  show execZeroize src s = _
  rw [execZeroize, onCritical_accepted h, if_neg (Decidable.not_not.2 hl)]
  simp only [zeroizedWith, beq_iff_eq]

theorem reg_zeroizedWith {a : Nat} {ddr4 : Bool} (h : a ≠ rCxMemStatus) : reg (zeroizedWith s ddr4) a = reg (zeroize s) a := by
  unfold zeroizedWith
  split
  · exact (reg_of_regs (s := memoryInactive (zeroize s)) (by simp)).trans (reg_setRegBit_ne h)
  · rfl

theorem memActive_zeroizedWith {ddr4 : Bool} (hs : Canonical s) : memActive (zeroizedWith s ddr4) = (memActive s && !ddr4) := by
  unfold zeroizedWith
  cases ddr4 with
  | false => simp [memActive_zeroize]
  | true =>
    have hr : memActive (withKp (memoryInactive (zeroize s)) fun k => { k with wiping := true })
        = memActive (memoryInactive (zeroize s)) := regBit_congr (reg_of_regs (by simp))
    rw [if_pos rfl, hr, Bool.not_true, Bool.and_false]
    exact regBit_setRegBit_same (zeroize_canonical hs).regs (by decide)

theorem zeroizedWith_rest {ddr4 : Bool} (hw : s.kp.wiping = false) :
    (zeroizedWith s ddr4).ts = [] ∧ (zeroizedWith s ddr4).tile.pick = [] ∧ (zeroizedWith s ddr4).tile.pages = [] ∧ (zeroizedWith s ddr4).image = none ∧ (zeroizedWith s ddr4).sched.queue = []
    ∧ (zeroizedWith s ddr4).kp.kCmd = none ∧ (zeroizedWith s ddr4).kw.farmKey = [] ∧ (zeroizedWith s ddr4).kp.wiping = ddr4 := by
  obtain ⟨hts, hpick, hpages, himg, hq, hfarm, hk, -, hwipe⟩ := zeroize_rest (s := s)
  cases ddr4 with
  | false => exact ⟨hts, hpick, hpages, himg, hq, hk, hfarm, hwipe.trans hw⟩
  | true =>
    have ht : zeroizedWith s true = withKp (memoryInactive (zeroize s)) (fun k => { k with wiping := true }) := rfl
    rw [ht]
    simp [memoryInactive, withKp, hts, hpick, hpages, himg, hq, hk, hfarm]

theorem zeroize_effect (hs : Canonical s) (h : Accepted src 0x25 s c key ctr body w) (hl : body.length = 4) {ddr4 : Bool}
    (hd : ddr4 = (leAt body 0 4 % 2 == 1)) :
    ∃ u, exec (.zeroize src) s = .next (keepNext u) ∧ runActive u = false ∧ u.ts = [] ∧ u.tile.pick = [] ∧ u.tile.pages = []
      ∧ u.image = none ∧ u.sched.queue = [] ∧ u.kp.kCmd = none ∧ u.kw.farmKey = [] ∧ debugLevel u = 0
      ∧ regBit u rKpEvent 4 = true ∧ u.kp.wiping = ddr4 ∧ memActive u = (memActive s && !ddr4) := by
  obtain ⟨-, -, -, -, -, -, hw⟩ := h.rest
  have hc := h.canonical hs
  obtain ⟨hts, hpick, hpages, himg, hq, hk, hfarm, hwipe⟩ := zeroizedWith_rest (ddr4 := ddr4) hw
  have hreg : ∀ a, a ≠ rMsixPba 0 → a ≠ rCxMemStatus →
      reg (respondTagged (zeroizedWith w ddr4) c key ctr 0 []) a = reg (zeroize w) a :=
    fun a hm ha => (reg_respondTagged hm).trans (reg_zeroizedWith ha)
  have hmem : memActive (respondTagged (zeroizedWith w ddr4) c key ctr 0 []) = (memActive s && !ddr4) := by
    rw [memActive, regBit_congr (reg_respondTagged (by decide)), ← memActive, memActive_zeroizedWith hc, memActive, memActive,
      regBit_congr (h.reg (by decide) (by decide))]
  refine ⟨_, hd ▸ exec_zeroize h hl, ?_⟩
  rw [runActive, tbState_congr (hreg _ (by decide) (by decide)), ← runActive, runActive_zeroize hc, debugLevel,
    regF_congr (hreg _ (by decide) (by decide)), ← debugLevel, debugLevel_zeroize hc,
    regBit_congr (hreg _ (by decide) (by decide)), regBit_zeroize_event hc, hmem]
  simp [hts, hpick, hpages, himg, hq, hk, hfarm, hwipe]

theorem lastBootNo_memoryRewritten : lastBootNo (memoryRewritten s) = lastBootNo s := by
  have hk : (memoryRewritten s).kp = s.kp := by simp [memoryRewritten, memoryZero]
  exact lastBootNo_congr (by rw [hk]) (by rw [hk])

theorem zeroizeDdr4Done_effect (hw : s.kp.wiping = true) :
    ∃ u, exec (.zeroizeDdr4Done e) s = .next u ∧ Started s u 5 ∧ u.kp.wiping = false := by
  refine ⟨warmStart 5 e (memoryRewritten s), ?_, started_warmStart lastBootNo_memoryRewritten, warmStart_rest.2.2⟩
  show execZeroizeDdr4Done e s = _
  rw [execZeroizeDdr4Done, hw]
  rfl

/-! ### FUSE_ADVANCE (R498) -/

/-- The fuses are watched, and nothing else. -/
def fuseWatch (s : State) : Watch :=
  { canonWatch s with canon := False, fuse := (· = s.fuse) }

/-- What waits for Keep changes no fuse. -/
theorem keepNext_fuse : (keepNext s).fuse = s.fuse := by
  have hg : Good (fuseWatch s) s :=
    ⟨rfl, nofun, rfl, trivial, trivial, trivial, trivial, trivial, trivial, trivial, trivial, trivial⟩
  obtain ⟨-, -, hf, -⟩ := keepNext_good hg
  exact hf

theorem fuseAdvance_effect {blown : Bool} (h : Accepted src 0x26 s c key ctr body w) :
    ∃ u, exec (.fuseAdvance src blown) s = .next (keepNext u)
      ∧ (s.kp.svn ≤ Config.fwSvn s.kp.flash.golden → (curRec s).slot ≠ 2 → s.kp.svn ≤ 64 → blown = true →
        (keepNext u).fuse = { s.fuse with antiRollback := max s.kp.svn s.fuse.antiRollback })
      ∧ ((Config.fwSvn s.kp.flash.golden < s.kp.svn ∨ (curRec s).slot = 2 ∨ 64 < s.kp.svn ∨ blown = false) →
        (keepNext u).fuse = s.fuse ∧ Raised u 0x0B1B noSource) := by
  obtain ⟨hf, hflash, hcur, hsvn, -, -, -⟩ := h.rest
  have hslot : curRec w = curRec s := by rw [curRec, hcur, curRec]
  refine ⟨_, congrArg Host.Outcome.next (onCritical_accepted h), fun h1 h2 h3 hb => ?_, fun hno => ?_⟩
  · have hyes : ¬(Config.fwSvn s.kp.flash.golden < s.kp.svn ∨ (curRec s).slot = 2 ∨ 64 < s.kp.svn ∨ (!blown) = true) := by
      rintro (hg | hg | hg | hg)
      · omega
      · exact h2 hg
      · omega
      · simp [hb] at hg
    dsimp only
    rw [hflash, hsvn, hslot, hf, if_neg hyes, keepNext_fuse]
    simp
  · have hno' : Config.fwSvn s.kp.flash.golden < s.kp.svn ∨ (curRec s).slot = 2 ∨ 64 < s.kp.svn ∨ (!blown) = true := by
      simpa using hno
    dsimp only
    rw [hflash, hsvn, hslot, hf, if_pos hno', keepNext_fuse]
    refine ⟨?_, raised_failTagged⟩
    simp [failTagged, hf]

/-! ### SET_POLICY (R489) -/

/-- Both copies of the owner record hold the key and the policy, copy B with the later sequence number. -/
theorem writeOwner_rest {k p : List Byte} : ∃ a b, (writeOwner s k p).kp.flash.ownerA = some a
    ∧ (writeOwner s k p).kp.flash.ownerB = some b ∧ a.policy = p ∧ b.policy = p ∧ a.key = k ∧ b.key = k
    ∧ b.seq = (a.seq + 1) % 2 ^ 32 := by
  refine ⟨_, _, rfl, rfl, rfl, rfl, rfl, rfl, ?_⟩
  dsimp only
  omega

theorem lastBootNo_writeOwner {k p : List Byte} : lastBootNo (writeOwner s k p) = lastBootNo s := rfl

/-- The policy is in effect at once. -/
def policySet (s : State) (p : List Byte) : State := withKp (writeOwner s s.kp.ownerKey p) (fun k => { k with policy := p })

theorem policySet_rest {p : List Byte} : (policySet s p).kp.policy = p
    ∧ (policySet s p).kp.flash = (writeOwner s s.kp.ownerKey p).kp.flash := ⟨rfl, rfl⟩

theorem setPolicy_effect {flashOk : Bool} (h : Accepted src 0x27 s c key ctr body w) (hl : body.length = 16) :
    ∃ u, exec (.setPolicy src flashOk) s = .next (keepNext u)
      ∧ (flashOk = true → u.kp.policy = body ∧ (∃ a b, u.kp.flash.ownerA = some a ∧ u.kp.flash.ownerB = some b
        ∧ a.policy = body ∧ b.policy = body ∧ a.key = s.kp.ownerKey ∧ b.key = s.kp.ownerKey
        ∧ b.seq = (a.seq + 1) % 2 ^ 32))
      ∧ (flashOk = false → u.kp.policy = s.kp.policy ∧ u.kp.flash.ownerB = s.kp.flash.ownerB ∧ Raised u 0x0B0A noSource) := by
  obtain ⟨-, hflash, -, -, hpol, hown, -⟩ := h.rest
  have hex : exec (.setPolicy src flashOk) s = .next (keepNext (if !flashOk
      then failTagged (withFlash w (fun f => { f with ownerA := none })) c key ctr 0x0B0A
      else respondTagged (policySet w body) c key ctr 0 [])) := by
    show execSetPolicy src flashOk s = _
    rw [execSetPolicy, onCritical_accepted h, if_neg (Decidable.not_not.2 hl)]
    rfl
  refine ⟨_, hex, ?_, ?_⟩
  · rintro rfl
    obtain ⟨hp, hf⟩ := policySet_rest (s := w) (p := body)
    rw [Bool.not_true, if_neg (by decide), respondTagged_flash, hf, ← hown]
    exact ⟨by simp [hp], writeOwner_rest⟩
  · rintro rfl
    refine ⟨?_, ?_, raised_failTagged⟩
    · simpa [failTagged, withFlash, withKp] using hpol
    · simp [failTagged, withFlash, withKp, hflash]

/-! ### LEDGER_CLEAR (R484) -/

theorem recStep_clearCounts {r : BootRec} {k : Nat} (hk : k < 16) : recStep (clearCounts body r) k
    = { recStep r k with fails := if bitN (leAt body 0 2) k then 0 else (recStep r k).fails } := by
  have hlen : k < (List.range 16).length := by simpa using hk
  rw [recStep, clearCounts, List.getD_eq_getElem?_getD, List.getElem?_map, List.getElem?_eq_getElem hlen, List.getElem_range]
  rfl

theorem writeRecord_cur : (writeRecord s).kp.cur = s.kp.cur := by
  unfold writeRecord
  split <;> rfl

/-- The counts cleared, shown in KP_STEPk, and the record written. -/
def ledgerCleared (s : State) (body : List Byte) : State :=
  writeRecord ((List.range 16).foldl (fun s k => setReg64 s (rKpStep k) (stepBits (recStep (curRec s) k)))
    (withRec s (clearCounts body)))

theorem ledgerCleared_cur : (ledgerCleared s body).kp.cur = s.kp.cur.map (clearCounts body) := by
  rw [ledgerCleared, writeRecord_cur, foldl_kp fun _ _ => by simp]
  rfl

theorem ledgerClear_effect {r : BootRec} (h : Accepted src 0x28 s c key ctr body w) (hl : body.length = 16)
    (hr : s.kp.cur = some r) :
    ∃ u q, exec (.ledgerClear src) s = .next (keepNext u) ∧ u.kp.cur = some q ∧ q.bootNo = r.bootNo
      ∧ ∀ k < 16, (recStep q k).outcome = (recStep r k).outcome
        ∧ (recStep q k).fails = (if bitN (leAt body 0 2) k then 0 else (recStep r k).fails) := by
  obtain ⟨-, -, hcur, -, -, -, -⟩ := h.rest
  refine ⟨respondTagged (ledgerCleared w body) c key ctr 0 [], clearCounts body r, ?_, ?_, rfl, fun k hk => ?_⟩
  · show execLedgerClear src s = _
    rw [execLedgerClear, onCritical_accepted h, if_neg (Decidable.not_not.2 hl)]
    rfl
  · simp [ledgerCleared_cur, hcur, hr]
  · rw [recStep_clearCounts hk]
    exact ⟨rfl, rfl⟩

/-! ### OWNER_TRANSFER (R488, R490) -/

/-- A transfer that is authorised: the start that follows it has RESET_CAUSE 6 and finds the new owner with the default policy. -/
theorem transferOwner_effect {newKey : List Byte} {answer : State → State} (hn : lastBootNo w = lastBootNo s)
    (hboot : ∀ t, lastBootNo (answer t) = lastBootNo t) (hflash : ∀ t, (answer t).kp.flash = t.kp.flash) :
    Started s (transferOwner newKey e answer w) 6 ∧ (transferOwner newKey e answer w).kp.kCmd = none
      ∧ ∃ a, (transferOwner newKey e answer w).kp.flash.ownerA = some a ∧ a.key = newKey ∧ a.policy = defaultPolicy := by
  have hclear : lastBootNo (memoryRewritten (memoryInactive (zeroize w))) = lastBootNo s :=
    lastBootNo_memoryRewritten.trans (lastBootNo_zeroize.trans hn)
  obtain ⟨a, b, ha, -, hpol, -, hk, -⟩ := writeOwner_rest (s := memoryRewritten (memoryInactive (zeroize w))) (k := newKey)
    (p := defaultPolicy)
  obtain ⟨hown, hkey, -⟩ := warmStart_rest (e := e) (cause := 6)
    (s := answer (writeOwner (memoryRewritten (memoryInactive (zeroize w))) newKey defaultPolicy))
  refine ⟨started_warmStart ((hboot _).trans (lastBootNo_writeOwner.trans hclear)), hkey, a, ?_, hk, hpol⟩
  exact hown.trans ((congrArg Flash.ownerA (hflash _)).trans ha)

theorem transferOk_lastBootNo {signer : List Byte} {late : Bool} : lastBootNo (transferOk s signer body late).1 = lastBootNo s := by
  unfold transferOk useNonce
  dsimp only
  split <;> rfl

/-- On an owned device the current owner signs (R488). -/
theorem ownerTransfer_owned (h : Accepted src 0x11 s c key ctr body w) (ho : owned s = true) (hl : body.length = 3764) :
    ∃ u, exec (.ownerTransfer src false e) s = .next (keepNext u) ∧ ((transferOk w w.kp.ownerKey body false).2 = true →
      Started s u 6 ∧ u.kp.kCmd = none ∧ ∃ a, u.kp.flash.ownerA = some a ∧ a.key = slice body 0 1312
        ∧ a.policy = defaultPolicy) := by
  have hex : exec (.ownerTransfer src false e) s = .next (keepNext (if (transferOk w w.kp.ownerKey body false).2
      then transferOwner (slice body 0 1312) e (fun s => respondTagged s c key ctr 0 []) (transferOk w w.kp.ownerKey body false).1
      else failTagged (transferOk w w.kp.ownerKey body false).1 c key ctr 0x0B16)) := by
    show execOwnerTransfer src false e s = _
    rw [execOwnerTransfer, if_pos ho, onCritical_accepted h, if_neg (Decidable.not_not.2 hl)]
  refine ⟨_, hex, fun hok => ?_⟩
  rw [if_pos hok]
  exact transferOwner_effect (transferOk_lastBootNo.trans h.lastBootNo) (fun _ => lastBootNo_respondTagged)
    fun _ => respondTagged_flash

/-- On a device without an owner the vendor signs (R490). -/
theorem ownerTransfer_unowned (h : Taken src 0x11 s c v) (ho : owned s = false) (hl : c.payload.length = 3764) :
    ∃ u, exec (.ownerTransfer src false e) s = .next (keepNext u) ∧ ((transferOk v (vendorKey v) c.payload false).2 = true →
      Started s u 6 ∧ ∃ a, u.kp.flash.ownerA = some a ∧ a.key = slice c.payload 0 1312 ∧ a.policy = defaultPolicy) := by
  have hex : exec (.ownerTransfer src false e) s = .next (keepNext (if (transferOk v (vendorKey v) c.payload false).2
      then transferOwner (slice c.payload 0 1312) e (fun s => respond s c 0 []) (transferOk v (vendorKey v) c.payload false).1
      else failCmd (transferOk v (vendorKey v) c.payload false).1 c 0x0B16)) := by
    show execOwnerTransfer src false e s = _
    rw [execOwnerTransfer, ho, if_neg (by decide), onCommand_taken h, if_neg (Decidable.not_not.2 hl)]
  have hv : lastBootNo v = lastBootNo s := by
    obtain ⟨-, l, rfl⟩ := h.eq
    rfl
  refine ⟨_, hex, fun hok => ?_⟩
  rw [if_pos hok]
  obtain ⟨hst, -, ha⟩ := transferOwner_effect (e := e) (newKey := slice c.payload 0 1312) (answer := fun s => respond s c 0 [])
    (transferOk_lastBootNo.trans hv) (fun _ => lastBootNo_congr (by simp) (by simp)) fun _ => by simp
  exact ⟨hst, ha⟩

/-! ### The statement -/

/-- Settles O35: each command by the lemma about its effect. -/
theorem criticalCommands : Obligations.CriticalCommands := by
  intro s src c key ctr body w e hs
  refine ⟨fun h hl => setCap_effect hs h hl, fun flashOk warm errs x bs h hl => ?_, fun h hl => ?_, fun h hl => ⟨fun h0 => ?_, ?_⟩,
    fun h hl => zeroize_effect hs h hl rfl, zeroizeDdr4Done_effect, fun blown h => fuseAdvance_effect h,
    fun flashOk h hl => setPolicy_effect h hl, fun r h hl hr => ledgerClear_effect h hl hr,
    fun h ho hl => ownerTransfer_owned h ho hl, fun v h ho hl => ownerTransfer_unowned h ho hl⟩
  · intro slot h2 hrun hlen hread
    exact fwUpdate_effect h hl h2 hrun hlen hread
  · intro en hp
    exact farmPower_effect hs h hl hp
  · exact debugLock_effect hs h hl h0
  · intro h0 hmax h3 hlen hn
    exact debugUnlock_effect hs h rfl rfl h0 hmax h3 hlen hn rfl

end Sys2Proof.Machine
end

section
/-! SUPPORT. The two parts of a raise (spec/18 R519): its entry in the error log and its FAULT bit, each with the registers that
it writes. -/

namespace Sys2Proof.Machine

variable {s u : State} {cause source detail a b c k : Nat}

/-- Setting a bit leaves it and the bits that were set. -/
theorem regBit_setRegBit_true (hs : swf regReset s.regs = true) (hb : b < 32) :
    regBit (setRegBit s a b true) a k = (regBit s a k || k == b) := by
  by_cases hk : k = b
  · simp [hk, regBit_setRegBit_same hs hb]
  · simp [hk, regBit_setRegBit_ne hs hk]

/-! ### The FAULT registers -/

/-- The FAULT registers of the subsystems. -/
def faultRegs : List Nat :=
  [rBmFault, rWpFault, rWfFault, rRdFault, rTrFault, rBbFault, rKwFault, rCxFault, rTbFault, rPmFault, rKpFault, rObFault]

/-- A cause with a bit has it in a FAULT register, and belongs to one of the subsystems 1 to 11. -/
theorem faultBit_range (h : faultBit cause = some (a, b)) : a ∈ faultRegs ∧ b < 32 ∧ cause / 256 ≤ 11 := by
  revert h
  fun_cases faultBit cause <;> intro h <;> simp only [Option.some.injEq, Prod.mk.injEq, reduceCtorEq] at h
  all_goals
    obtain ⟨rfl, rfl⟩ := h
    exact ⟨by decide, by omega, by omega⟩

/-- What a raise writes beside its FAULT bit lies apart: the count of the log, details, pending vectors, the tag. -/
theorem faultRegs_apart : ∀ a ∈ faultRegs,
    a ∉ [rObLogOvw, rBbFaultDetail, rKwFaultDetail, rMsixPba 0, faultTagOf a, faultTagOf a + 4]
    ∧ ∀ c ∈ [faultTagOf a, faultTagOf a + 4], c ∉ [rObLogOvw, rBbFaultDetail, rKwFaultDetail, rMsixPba 0] := by
  decide

/-- The state in which a FAULT bit is set: the first fault has left its tag and detail. -/
def firstFault (s : State) (cause source a : Nat) : State :=
  if reg s a = 0 then faultDetail (setReg64 s (faultTagOf a) (nowTag s)) cause source else s

theorem reg_setFaultBit (hc : cause / 256 ≤ 11) (h : c ≠ rMsixPba 0) :
    reg (setFaultBit s cause source a b) c = reg (setRegBit (firstFault s cause source a) a b true) c := by
  have hv : (0x10 + cause / 256) / 32 = 0 := by omega
  unfold setFaultBit firstFault
  dsimp only
  split
  · rfl
  · exact reg_msix (by rwa [hv])

theorem reg_firstFault (h : c ∉ [rBbFaultDetail, rKwFaultDetail, faultTagOf a, faultTagOf a + 4]) :
    reg (firstFault s cause source a) c = reg s c := by
  simp only [List.mem_cons, List.not_mem_nil, or_false, not_or] at h
  obtain ⟨hbb, hkw, ht, ht'⟩ := h
  unfold firstFault
  split
  · rw [reg_faultDetail hbb hkw, reg_setReg64_ne ht ht']
  · rfl

theorem swf_faultDetail (hs : swf regReset s.regs = true) : swf regReset (faultDetail s cause source).regs = true := by
  unfold faultDetail
  split
  · split <;> exact swf_setReg hs
  · split
    · exact swf_setReg hs
    · exact hs

theorem swf_firstFault (hs : swf regReset s.regs = true) : swf regReset (firstFault s cause source a).regs = true := by
  unfold firstFault
  split
  · exact swf_faultDetail (swf_setReg64 hs)
  · exact hs

/-- The FAULT bit of a raise is set, and no other bit of its register changes. -/
theorem regBit_setFaultBit (hs : swf regReset s.regs = true) (h : faultBit cause = some (a, b)) :
    regBit (setFaultBit s cause source a b) a k = (regBit s a k || k == b) := by
  obtain ⟨ha, hb, hc⟩ := faultBit_range h
  have hapart := (faultRegs_apart a ha).1
  simp only [List.mem_cons, List.not_mem_nil, or_false, not_or] at hapart
  obtain ⟨-, hbb, hkw, hpba, ht, ht'⟩ := hapart
  have hfirst : reg (firstFault s cause source a) a = reg s a := reg_firstFault (by simp [hbb, hkw, ht, ht'])
  rw [regBit_congr (reg_setFaultBit hc hpba), regBit_setRegBit_true (swf_firstFault hs) hb, regBit_congr hfirst]

/-- The tag of a FAULT register is written by the first fault alone. -/
theorem reg64_setFaultBit (hs : swf regReset s.regs = true) (h : faultBit cause = some (a, b)) :
    reg64 (setFaultBit s cause source a b) (faultTagOf a)
      = if reg s a = 0 then nowTag s % 2 ^ 64 else reg64 s (faultTagOf a) := by
  obtain ⟨ha, -, hc⟩ := faultBit_range h
  obtain ⟨hapart, htag⟩ := faultRegs_apart a ha
  simp only [List.mem_cons, List.not_mem_nil, or_false, not_or, forall_eq_or_imp, forall_eq] at hapart htag
  obtain ⟨-, -, -, -, ht, ht'⟩ := hapart
  obtain ⟨⟨-, hbb, hkw, hpba⟩, -, hbb', hkw', hpba'⟩ := htag
  have hset : reg64 (setFaultBit s cause source a b) (faultTagOf a) = reg64 (firstFault s cause source a) (faultTagOf a) :=
    reg64_congr ((reg_setFaultBit hc hpba).trans (reg_setRegBit_ne (Ne.symm ht)))
      ((reg_setFaultBit hc hpba').trans (reg_setRegBit_ne (Ne.symm ht')))
  rw [hset, firstFault]
  split
  · rw [reg64_congr (reg_faultDetail hbb hkw) (reg_faultDetail hbb' hkw'), reg64_setReg64 hs]
  · rfl

theorem reg_setFaultBit_ovw (h : faultBit cause = some (a, b)) :
    reg (setFaultBit s cause source a b) rObLogOvw = reg s rObLogOvw := by
  obtain ⟨ha, -, hc⟩ := faultBit_range h
  obtain ⟨hapart, htag⟩ := faultRegs_apart a ha
  simp only [List.mem_cons, List.not_mem_nil, or_false, not_or, forall_eq_or_imp, forall_eq] at hapart htag
  obtain ⟨hov, -⟩ := hapart
  obtain ⟨⟨ht, -⟩, ht', -⟩ := htag
  rw [reg_setFaultBit hc (by decide), reg_setRegBit_ne (Ne.symm hov), reg_firstFault]
  simp only [List.mem_cons, List.not_mem_nil, or_false, not_or]
  exact ⟨by decide, by decide, Ne.symm ht, Ne.symm ht'⟩

/-! ### The entry in the log -/

/-- A raise of the newest entry's cause and source is merged into it. -/
theorem logRaise_merges {e : LogEntry} {es : List LogEntry} (h : s.ob.log = e :: es) (hc : e.cause = cause)
    (hs : e.source = source) :
    logRaise s cause source detail = { s with ob := { s.ob with log := { e with reps := satN 16 (e.reps + 1) } :: es } } := by
  unfold logRaise
  split
  · next e' es' hl =>
    obtain ⟨rfl, rfl⟩ := List.cons.inj (hl.symm.trans h)
    exact if_pos ⟨hc, hs⟩
  · next hl => simp [hl] at h

/-- Another raise takes a new entry, and counts the entry that it overwrites when there are 4,096. -/
theorem logRaise_enters (h : ¬∃ e, s.ob.log.head? = some e ∧ e.cause = cause ∧ e.source = source) :
    (logRaise s cause source detail).ob.log = (⟨cause, source, 1, detail % 2 ^ 16, nowTag s⟩ :: s.ob.log).take 4096
      ∧ (logRaise s cause source detail).regs = (if 4096 ≤ s.ob.log.length then countUp s rObLogOvw 1 else s).regs := by
  unfold logRaise
  split
  · next e es hl =>
    have hne : ¬(e.cause = cause ∧ e.source = source) := fun hc => h ⟨e, by simp [hl], hc⟩
    rw [if_neg hne, hl]
    exact ⟨rfl, rfl⟩
  · next hl => simp [hl]

theorem swf_logRaise (h : Canonical s) : swf regReset (logRaise s cause source detail).regs = true :=
  (logRaise_good h.good).canonical.regs

theorem nowTag_congr (htb : u.tb = s.tb) (hst : reg u rTbStatus = reg s rTbStatus) (hn : reg u rTbTickCfg = reg s rTbTickCfg) :
    nowTag u = nowTag s := by
  have hfine : fineNow u = fineNow s := by simp only [fineNow, fineAt, tbN, regF_congr hn, htb]
  have hrun : runActive u = runActive s := by rw [runActive, tbState_congr hst, runActive]
  rw [nowTag, hrun, hfine, htb, nowTag]

theorem nowTag_logRaise : nowTag (logRaise s cause source detail) = nowTag s := by
  obtain ⟨regs, ob, h⟩ := logRaise_eq (s := s) (cause := cause) (source := source) (detail := detail)
  exact nowTag_congr (by rw [h]) (reg_logRaise (by decide)) (reg_logRaise (by decide))

/-! ### The raise -/

theorem reg_raise_of_faultBit (h : faultBit cause = some (a, b)) :
    reg (raise s cause source detail) c = reg (setFaultBit (logRaise s cause source detail) cause source a b) c := by
  unfold raise
  rw [h]
  rfl

theorem reg_raise_of_no_faultBit (h : faultBit cause = none) :
    reg (raise s cause source detail) c = reg (logRaise s cause source detail) c := by
  unfold raise
  rw [h]
  rfl

/-- The count of overwritten entries is the log's alone. -/
theorem reg_raise_ovw : reg (raise s cause source detail) rObLogOvw = reg (logRaise s cause source detail) rObLogOvw := by
  cases h : faultBit cause with
  | none => exact reg_raise_of_no_faultBit h
  | some ab => exact (reg_raise_of_faultBit h).trans (reg_setFaultBit_ovw h)

theorem regBit_raise (hs : Canonical s) (h : faultBit cause = some (a, b)) :
    regBit (raise s cause source detail) a k = (regBit s a k || k == b) := by
  have ha := (faultRegs_apart a (faultBit_range h).1).1
  rw [regBit_congr (reg_raise_of_faultBit h), regBit_setFaultBit (swf_logRaise hs) h,
    regBit_congr (reg_logRaise (List.ne_of_not_mem_cons ha))]

theorem reg64_faultTag_raise (hs : Canonical s) (h : faultBit cause = some (a, b)) :
    reg64 (raise s cause source detail) (faultTagOf a)
      = if reg s a = 0 then nowTag s % 2 ^ 64 else reg64 s (faultTagOf a) := by
  obtain ⟨ha, htag⟩ := faultRegs_apart a (faultBit_range h).1
  simp only [List.mem_cons (b := faultTagOf a), List.mem_singleton, forall_eq_or_imp, forall_eq] at htag
  obtain ⟨ht, ht'⟩ := htag
  rw [reg64_congr (reg_raise_of_faultBit h) (reg_raise_of_faultBit h), reg64_setFaultBit (swf_logRaise hs) h, nowTag_logRaise,
    reg_logRaise (List.ne_of_not_mem_cons ha),
    reg64_congr (reg_logRaise (List.ne_of_not_mem_cons ht)) (reg_logRaise (List.ne_of_not_mem_cons ht'))]

/-- Settles O59: the log by its two cases, the FAULT register by its bits and its tag. -/
theorem raisesAreLogged : Obligations.RaisesAreLogged := by
  intro s cause source detail hs
  refine ⟨fun e es hl hc hsrc => ?_, fun hsame => ?_, fun a b hf => ⟨fun k _ => regBit_raise hs hf, reg64_faultTag_raise hs hf⟩,
    fun hf a ha => (reg_raise_of_no_faultBit hf).trans (reg_logRaise ha)⟩
  · rw [raise_log, reg_raise_ovw, logRaise_merges hl hc hsrc]
    exact ⟨rfl, rfl⟩
  · obtain ⟨hlog, hregs⟩ := logRaise_enters (detail := detail) hsame
    refine ⟨raise_log.trans hlog, fun hlen => ?_, fun hlen => ?_⟩
    · rw [if_neg (Nat.not_le.2 hlen)] at hregs
      exact reg_raise_ovw.trans (reg_of_regs hregs)
    · rw [if_pos hlen] at hregs
      rw [Counted, reg_raise_ovw, reg_of_regs hregs]
      exact reg_countUp hs.regs

end Sys2Proof.Machine
end

section
/-! SUPPORT. Snapshot requests and the latch (spec/18 R507-R511): what a raise leaves of the snapshot unit, the cases of a request,
and what latches. -/

namespace Sys2Proof.Machine

variable {s : State} {cause key source detail a n tick src tag t : Nat}

/-! ### Causes raised on the way -/

theorem raise_snap : (raise s cause source detail).snap = s.snap := by
  obtain ⟨regs, ob, cx, shown, fine, h⟩ := raise_eq (s := s) (cause := cause) (source := source) (detail := detail)
  rw [h]

theorem raise_pendTick : (raise s cause source detail).ob.pendTick = s.ob.pendTick := by
  have hlog : (logRaise s cause source detail).ob.pendTick = s.ob.pendTick := by
    unfold logRaise
    dsimp only
    repeat' split
    all_goals simp
  rw [← hlog, raise]
  split <;> simp

theorem raiseOnce_snap : (raiseOnce s cause key source detail).snap = s.snap := by
  unfold raiseOnce
  split
  · rfl
  · exact raise_snap

theorem raiseOnce_pendTick : (raiseOnce s cause key source detail).ob.pendTick = s.ob.pendTick := by
  unfold raiseOnce
  split
  · rfl
  · exact raise_pendTick

theorem reg_raiseOnce (h : a ∉ raiseRegs cause) : reg (raiseOnce s cause key source detail) a = reg s a := by
  unfold raiseOnce
  split
  · rfl
  · exact (reg_of_regs rfl).trans (reg_raise h)

theorem raiseOnce_canonical (h : Canonical s) : Canonical (raiseOnce s cause key source detail) :=
  (raiseOnce_good h.good).canonical

/-- An event that is raised once a run is counted each time. -/
theorem counted_countUp_raiseOnce (h : Canonical s) (ha : a ∉ raiseRegs cause) :
    Counted s (countUp (raiseOnce s cause key source detail) a n) a n := by
  rw [Counted, reg_countUp (raiseOnce_canonical h).regs, reg_raiseOnce ha]

/-! ### A request that is missed, and an edge before the run -/

theorem snapMissed_rest : (snapMissed s).snap = s.snap ∧ (snapMissed s).ob.pendTick = s.ob.pendTick := by
  simp [snapMissed, raiseOnce_snap, raiseOnce_pendTick]

theorem counted_snapMissed (h : Canonical s) : Counted s (snapMissed s) rSnMissed 1 :=
  counted_countUp_raiseOnce h (by decide)

theorem snapMissed_canonical (h : Canonical s) : Canonical (snapMissed s) := (snapMissed_good h.good).canonical

theorem prerunEvent_pendTick : (prerunEvent s).ob.pendTick = s.ob.pendTick := by
  simp [prerunEvent, raiseOnce_pendTick]

theorem counted_prerunEvent (h : Canonical s) : Counted s (prerunEvent s) rTbPrerunCnt 1 :=
  counted_countUp_raiseOnce h (by decide)

/-! ### The cases of a request (R509) -/

/-- The state in which a request from `src` holds the pending place with tick `tick`, after `s`. -/
def snapNamed (s : State) (tick src : Nat) : State :=
  let v := setF s rSnStatus 2 0 (2 ^ src)
  { v with ob := { v.ob with pendTick := some tick } }

theorem snapRequest_held (hr : runActive s = true) (hh : regBit s rSnStatus 31 = true) :
    snapRequest s tick src = snapMissed s := by
  simp [snapRequest, hr, hh]

theorem snapRequest_first (hr : runActive s = true) (hh : regBit s rSnStatus 31 = false) (hp : s.ob.pendTick = none) :
    snapRequest s tick src = snapNamed (setRegBit s rSnStatus 30 true) tick src := by
  simp [snapRequest, snapNamed, hr, hh, hp]

theorem snapRequest_merged (hr : runActive s = true) (hh : regBit s rSnStatus 31 = false) (hp : s.ob.pendTick = some tick) :
    snapRequest s tick src = setRegBit s rSnStatus src true := by
  simp [snapRequest, hr, hh, hp]

theorem snapRequest_earlier (hr : runActive s = true) (hh : regBit s rSnStatus 31 = false) (hp : s.ob.pendTick = some t)
    (ht : tick < t) : snapRequest s tick src = snapNamed (snapMissed s) tick src := by
  simp [snapRequest, snapNamed, hr, hh, hp, ht, Nat.ne_of_lt ht]

theorem snapRequest_later (hr : runActive s = true) (hh : regBit s rSnStatus 31 = false) (hp : s.ob.pendTick = some t)
    (ht : t < tick) : snapRequest s tick src = snapMissed s := by
  simp [snapRequest, hr, hh, hp, Nat.ne_of_gt ht, Nat.lt_asymm ht]

theorem reg_snapNamed : reg (snapNamed s tick src) a = reg (setF s rSnStatus 2 0 (2 ^ src)) a := reg_of_regs rfl

theorem reg_snapNamed_ne (h : a ≠ rSnStatus) : reg (snapNamed s tick src) a = reg s a := reg_snapNamed.trans (reg_setF_ne h)

/-- The source of the request that holds the pending place is the only one shown. -/
theorem snapNamed_source (hs : swf regReset s.regs = true) (hsrc : src < 3) :
    regF (snapNamed s tick src) rSnStatus 2 0 = 2 ^ src :=
  ((regF_congr reg_snapNamed).trans (regF_setF hs (by decide) (by decide))).trans
    (Nat.mod_eq_of_lt (Nat.pow_lt_pow_right (by decide) hsrc))

/-- What a request for tick `tick` from source bit `src` does to the snapshot unit in a run (R508, R509). -/
def Requested (s u : State) (tick src : Nat) : Prop :=
  u.snap = s.snap
    ∧ (regBit s rSnStatus 31 = true → u.ob.pendTick = s.ob.pendTick ∧ Counted s u rSnMissed 1)
    ∧ (regBit s rSnStatus 31 = false → s.ob.pendTick = none → u.ob.pendTick = some tick ∧ regF u rSnStatus 2 0 = 2 ^ src
      ∧ regBit u rSnStatus 30 = true ∧ reg u rSnMissed = reg s rSnMissed)
    ∧ (∀ t, regBit s rSnStatus 31 = false → s.ob.pendTick = some t →
      (tick = t → u.ob.pendTick = some t ∧ reg u rSnMissed = reg s rSnMissed
          ∧ ∀ k < 3, regBit u rSnStatus k = (regBit s rSnStatus k || k == src))
        ∧ (tick < t → u.ob.pendTick = some tick ∧ regF u rSnStatus 2 0 = 2 ^ src ∧ Counted s u rSnMissed 1)
        ∧ (t < tick → u.ob.pendTick = some t ∧ Counted s u rSnMissed 1))

theorem snapRequest_snap (hr : runActive s = true) : (snapRequest s tick src).snap = s.snap := by
  cases hh : regBit s rSnStatus 31 with
  | true => rw [snapRequest_held hr hh, snapMissed_rest.1]
  | false =>
    cases hp : s.ob.pendTick with
    | none => rw [snapRequest_first hr hh hp]; rfl
    | some t =>
      rcases Nat.lt_trichotomy tick t with ht | rfl | ht
      · rw [snapRequest_earlier hr hh hp ht]; exact snapMissed_rest.1
      · rw [snapRequest_merged hr hh hp]; rfl
      · rw [snapRequest_later hr hh hp ht, snapMissed_rest.1]

theorem snapRequest_requested (hs : Canonical s) (hr : runActive s = true) (hsrc : src < 3) :
    Requested s (snapRequest s tick src) tick src := by
  refine ⟨snapRequest_snap hr, fun hh => ?_, fun hh hp => ?_, fun t hh hp => ⟨?_, fun ht => ?_, fun ht => ?_⟩⟩
  · rw [snapRequest_held hr hh]
    exact ⟨snapMissed_rest.2, counted_snapMissed hs⟩
  · have hpend : regBit (snapNamed (setRegBit s rSnStatus 30 true) tick src) rSnStatus 30 = true :=
      (regBit_congr reg_snapNamed).trans
        ((regBit_setF_apart (swf_setF hs.regs) (by decide) (by decide)).trans (regBit_setRegBit_same hs.regs (by decide)))
    rw [snapRequest_first hr hh hp]
    exact ⟨rfl, snapNamed_source (swf_setF hs.regs) hsrc, hpend,
      (reg_snapNamed_ne (by decide)).trans (reg_setRegBit_ne (by decide))⟩
  · rintro rfl
    rw [snapRequest_merged hr hh hp]
    exact ⟨by simpa using hp, reg_setRegBit_ne (by decide), fun k _ => regBit_setRegBit_true hs.regs (by omega)⟩
  · rw [snapRequest_earlier hr hh hp ht]
    refine ⟨rfl, snapNamed_source (snapMissed_canonical hs).regs hsrc, ?_⟩
    rw [Counted, reg_snapNamed_ne (by decide)]
    exact counted_snapMissed hs
  · rw [snapRequest_later hr hh hp ht]
    exact ⟨snapMissed_rest.2.trans hp, counted_snapMissed hs⟩

/-! ### The commands that request (R508) -/

/-- The calibrated time of a SNAP_IN edge with raw tag `tag` (R57). -/
def snapInTime (s : State) (tag : Nat) : Int := (tag : Int) + sextI 16 (regF s rTbSkewSnapIn 15 0)

theorem exec_snapInEdge_requests (hr : runActive s = true) (hc : 0 ≤ snapInTime s tag) :
    exec (.snapInEdge tag) s = .next (snapRequest s ((snapInTime s tag).toNat / 256 + snapDelay s) 0) := by
  show execSnapInEdge tag s = _
  rw [snapInTime] at hc
  simp [execSnapInEdge, snapInTime, hr, Int.not_lt.2 hc]

theorem exec_snapInEdge_prerun (hr : runActive s = true) (hc : snapInTime s tag < 0) :
    exec (.snapInEdge tag) s = .next (prerunEvent s) := by
  show execSnapInEdge tag s = _
  rw [snapInTime] at hc
  simp [execSnapInEdge, hr, hc]

theorem exec_snapInEdge_idle (hr : runActive s = false) : exec (.snapInEdge tag) s = .next s := by
  show execSnapInEdge tag s = _
  simp [execSnapInEdge, hr]

theorem exec_atGo_requests (hb : released s 11 = true) (hr : runActive s = true) (ht : s.tb.tick + 2 ≤ reg64 s rSnAt) :
    exec .atGo s = .next (snapRequest s (reg64 s rSnAt) 2) := by
  show execAtGo s = _
  simp [execAtGo, onBlock, hb, hr, Nat.not_lt.2 ht]

theorem exec_atGo_refused (hb : released s 11 = true) (hr : runActive s = true) (ht : reg64 s rSnAt < s.tb.tick + 2) :
    exec .atGo s = .next (raise s 0x0BB2 noSource 0) := by
  show execAtGo s = _
  simp [execAtGo, onBlock, hb, hr, ht]

theorem exec_atGo_idle (hr : runActive s = false) : exec .atGo s = .next s := by
  show execAtGo s = _
  simp [execAtGo, onBlock, hr]

/-! ### The latch (R507, R510) -/

/-- After a latch HELD is set, PEND is clear and SN_TAG holds the tag; the sources shown stay. -/
theorem latchBanks_status (hs : swf regReset s.regs = true) :
    regBit (latchBanks s tag) rSnStatus 31 = true ∧ regBit (latchBanks s tag) rSnStatus 30 = false
      ∧ regF (latchBanks s tag) rSnStatus 2 0 = regF s rSnStatus 2 0 ∧ reg64 (latchBanks s tag) rSnTag = tag % 2 ^ 64 := by
  let v : State := { s with snap := some (takeSnap s) }
  have h1 : swf regReset (setReg64 v rSnTag tag).regs = true := swf_setReg64 (s := v) hs
  have h2 : swf regReset (setRegBit (setReg64 v rSnTag tag) rSnStatus 30 false).regs = true := swf_setF h1
  have hst : reg (setReg64 v rSnTag tag) rSnStatus = reg s rSnStatus := reg_setReg64_ne (by decide) (by decide)
  have htag : reg64 (setReg64 v rSnTag tag) rSnTag = tag % 2 ^ 64 := reg64_setReg64 (s := v) hs
  refine ⟨regBit_setRegBit_same h2 (by decide), ?_, ?_, ?_⟩
  · exact (regBit_setRegBit_ne h2 (by decide)).trans (regBit_setRegBit_same h1 (by decide))
  · exact (regF_setRegBit_apart h2 (by decide)).trans ((regF_setRegBit_apart h1 (by decide)).trans (regF_congr hst))
  · refine (reg64_congr ?_ ?_).trans htag
    · exact (reg_setRegBit_ne (by decide)).trans (reg_setRegBit_ne (by decide))
    · exact (reg_setRegBit_ne (by decide)).trans (reg_setRegBit_ne (by decide))

/-- The snapshot unit once the banks have latched at tick `t` of a run. -/
def snapLatched (s : State) (t : Nat) : State :=
  let v := latchBanks s (t * 256)
  { v with ob := { v.ob with pendTick := none, outTick := some t }, pins := { v.pins with snapOut := true } }

theorem snapLatch_due (hp : s.ob.pendTick = some t) (hr : runActive s = true) (ht : t ≤ s.tb.tick) :
    snapLatch s = snapLatched s t := by
  simp [snapLatch, snapLatched, hp, hr, Nat.not_lt.2 ht]

theorem reg_snapLatched : reg (snapLatched s t) a = reg (latchBanks s (t * 256)) a := reg_of_regs rfl

/-- In a run the latch holds the banks and clears PEND, and SN_TAG names the latch tick. -/
theorem snapLatched_status (hs : swf regReset s.regs = true) : regBit (snapLatched s t) rSnStatus 31 = true
    ∧ regBit (snapLatched s t) rSnStatus 30 = false ∧ reg64 (snapLatched s t) rSnTag = t * 256 % 2 ^ 64 := by
  obtain ⟨hheld, hpend, -, htag⟩ := latchBanks_status (tag := t * 256) hs
  exact ⟨(regBit_congr reg_snapLatched).trans hheld, (regBit_congr reg_snapLatched).trans hpend,
    (reg64_congr reg_snapLatched reg_snapLatched).trans htag⟩

theorem snapLatch_early (hp : s.ob.pendTick = some t) (ht : s.tb.tick < t) : snapLatch s = s := by
  simp [snapLatch, hp, ht]

theorem snapLatch_none (hp : s.ob.pendTick = none) : snapLatch s = s := by simp [snapLatch, hp]

/-- The snapshot unit once the banks have latched outside a run. -/
def snapTaken (s : State) : State :=
  let v := latchBanks (setF s rSnStatus 2 0 4) 0
  { v with ob := { v.ob with pendTick := none } }

theorem reg_snapTaken : reg (snapTaken s) a = reg (latchBanks (setF s rSnStatus 2 0 4) 0) a := reg_of_regs rfl

theorem exec_snapshotNow_takes (hb : released s 11 = true) (hr : runActive s = false) (hh : regBit s rSnStatus 31 = false) :
    exec .snapshotNow s = .next (snapTaken s) := by
  show execSnapshotNow s = _
  simp [execSnapshotNow, onBlock, snapTaken, hb, hr, hh]

/-- Outside a run the request holds the banks at once, named by software, with tag 0. -/
theorem snapTaken_status (hs : swf regReset s.regs = true) : regBit (snapTaken s) rSnStatus 31 = true
    ∧ regF (snapTaken s) rSnStatus 2 0 = 4 ∧ reg64 (snapTaken s) rSnTag = 0 := by
  obtain ⟨hheld, -, hsrc, htag⟩ := latchBanks_status (s := setF s rSnStatus 2 0 4) (tag := 0) (swf_setF hs)
  exact ⟨(regBit_congr reg_snapTaken).trans hheld,
    (regF_congr reg_snapTaken).trans (hsrc.trans (regF_setF hs (by decide) (by decide))),
    (reg64_congr reg_snapTaken reg_snapTaken).trans htag⟩

theorem exec_snapshotRelease (hb : released s 11 = true) : exec .snapshotRelease s = .next (setRegBit s rSnStatus 31 false) := by
  show execSnapshotRelease s = _
  simp [execSnapshotRelease, onBlock, hb]

/-! ### SN_DATA (R511) -/

/-- The word that is read is one of tile store, and the debug level does not allow it. -/
def snDenied (s : State) (k n w : Nat) : Bool := tileStoreWord s k n w && debugLevel s == 0

/-- The state after a read of word `w` of unit `n` of bank `k` while `z` is latched. -/
def snDataShown (s : State) (z : Snap) (k n w : Nat) : State :=
  { setRegBit s rSnStatus 29 (snDenied s k n w) with
    readData := BitVec.ofNat 32 (if snDenied s k n w then 0 else bankData s z k n w) }

theorem exec_snDataRead {z : Snap} (hz : s.snap = some z) (ha : reachable s rSnData = true) :
    exec .snDataRead s = .next (snDataShown s z (regF s rSnSel 31 24) (regF s rSnSel 23 16) (regF s rSnSel 15 0)) := by
  show execSnDataRead s = _
  simp [execSnDataRead, snDataShown, snDenied, ha, hz]

theorem snDataShown_denied {z : Snap} {k n w : Nat} (hs : swf regReset s.regs = true) :
    regBit (snDataShown s z k n w) rSnStatus 29 = snDenied s k n w :=
  (regBit_congr (reg_of_regs rfl)).trans (regBit_setRegBit_same hs (by decide))

theorem snDataShown_readData {z : Snap} {k n w : Nat} :
    (snDataShown s z k n w).readData = if snDenied s k n w then 0 else BitVec.ofNat 32 (bankData s z k n w) := by
  unfold snDataShown
  split <;> rfl

theorem bankData_tileStore {z : Snap} {k n w : Nat} (h : tileStoreWord s k n w = true) :
    bankData s z k n w = ofLe (tsRead (thaw z) n (regF (thaw z) rSnTsAddr 18 12 * 4096 + 4 * (w - 32)) 4) := by
  simp [bankData, h]

theorem bankData_some {z : Snap} {k n w size : Nat} {content : List Nat} (h : tileStoreWord s k n w = false)
    (hb : bankOf s (thaw z) k n w = some (size, content)) :
    BitVec.ofNat 32 (bankData s z k n w) = if w < size then BitVec.ofNat 32 (Config.bankWord k n w content) else 0 := by
  have hd : bankData s z k n w = if w < size then Config.bankWord k n w content % 2 ^ 32 else 0 := by simp [bankData, h, hb]
  rw [hd]
  split
  · exact BitVec.eq_of_toNat_eq (by simp)
  · rfl

theorem bankData_none {z : Snap} {k n w : Nat} (h : tileStoreWord s k n w = false) (hb : bankOf s (thaw z) k n w = none) :
    bankData s z k n w = 0 := by
  simp [bankData, h, hb]

end Sys2Proof.Machine
end

section
/-! SUPPORT. The statement on snapshots (spec/18 R508-R511). -/

namespace Sys2Proof.Machine

/-- Settles O47: each command by the lemma that says what it does, then the effect of a request, a latch and a read. -/
theorem snapshots : Obligations.Snapshots := by
  intro s hs
  refine ⟨fun tag hc hr => ?_, fun tag hc hr => ?_, fun hb ht hr => ?_, fun hb hr ht => ?_, fun hr => ?_, fun hb hr hh => ?_,
    fun t hp hr => ⟨fun ht => ?_, fun ht => ?_⟩, fun hp => ?_, ?_, fun hb => ?_, fun ha z hz => ?_⟩
  · exact ⟨_, exec_snapInEdge_requests hr hc, snapRequest_requested hs hr (by decide)⟩
  · exact ⟨_, exec_snapInEdge_prerun hr hc, prerunEvent_pendTick, counted_prerunEvent hs⟩
  · exact ⟨_, exec_atGo_requests hb hr ht, snapRequest_requested hs hr (by decide)⟩
  · exact ⟨_, exec_atGo_refused hb hr ht, raise_pendTick, raised_raise⟩
  · exact ⟨fun tag => exec_snapInEdge_idle hr, exec_atGo_idle hr⟩
  · obtain ⟨hheld, hsrc, htag⟩ := snapTaken_status hs.regs
    exact ⟨_, _, exec_snapshotNow_takes hb hr hh, rfl, rfl, rfl, rfl, rfl, rfl, rfl, fun a hne => reg_setF_ne hne, hheld, hsrc,
      htag, rfl⟩
  · exact congrArg Host.Outcome.next (snapLatch_early hp ht)
  · obtain ⟨hheld, hpend, htag⟩ := snapLatched_status (t := t) hs.regs
    exact ⟨_, _, congrArg Host.Outcome.next (snapLatch_due hp hr ht), rfl, rfl, rfl, rfl, rfl, rfl, rfl, rfl, rfl, hheld, hpend,
      htag, rfl, rfl, rfl, rfl⟩
  · exact congrArg Host.Outcome.next (snapLatch_none hp)
  · exact ⟨_, rfl, rfl, rfl, rfl⟩
  · exact ⟨_, exec_snapshotRelease hb, regBit_setRegBit_same hs.regs (by decide), rfl⟩
  · dsimp only
    refine ⟨_, exec_snDataRead hz ha, rfl, fun htile hlevel => ?_, fun htile hlevel => ?_, fun htile => ?_⟩
    · rw [snDataShown_readData, snDataShown_denied hs.regs, snDenied, htile, hlevel]
      exact ⟨rfl, rfl⟩
    · have hd : snDenied s (regF s rSnSel 31 24) (regF s rSnSel 23 16) (regF s rSnSel 15 0) = false := by
        simp [snDenied, hlevel]
      rw [snDataShown_readData, snDataShown_denied hs.regs, hd, bankData_tileStore htile]
      exact ⟨rfl, rfl⟩
    · have hd : snDenied s (regF s rSnSel 31 24) (regF s rSnSel 23 16) (regF s rSnSel 15 0) = false := by
        simp [snDenied, htile]
      rw [snDataShown_readData, snDataShown_denied hs.regs, hd]
      refine ⟨rfl, ?_⟩
      split
      · next size content hbank => exact bankData_some htile hbank
      · next hbank => exact congrArg (BitVec.ofNat 32) (bankData_none htile hbank)

end Sys2Proof.Machine
end
